-- ==== Sys2Proof/Word.lean ====
section
/-! DEFINITION. Words and bytes: the plain bit vectors of the device, and the names of the parts
that a command, a register or a descriptor may name (R2, R22, R23). -/

namespace Sys2Proof

/-- One byte of memory. -/
abbrev Byte := BitVec 8
/-- A 32-bit word: one word of an engine command (R194). -/
abbrev Word := BitVec 32
/-- A 64-bit word: a scalar register, a sync object or an MMIO register. -/
abbrev DWord := BitVec 64

/-- A partition, 0-3 (Table 14.1). -/
abbrev Part := Fin 4
/-- Who accesses a register: partitions 0-3, or 4, the management port (R492). -/
abbrev Requester := Fin 5
/-- A compute die CD0-CD3 (R17). -/
abbrev Die := Fin 4
/-- An I/O die (R17). -/
abbrev Iod := Fin 2
/-- A fabric port F0-F31. -/
abbrev FPort := Fin 32
/-- A Ratil Coherent Link port A-D. -/
abbrev RPort := Fin 4
/-- A ring pair of the host interface (R396). -/
abbrev Ring := Fin 64
/-- A core identifier (R22): bits 8:7 the die, bits 6:0 the core's number within the die. -/
abbrev CoreId := BitVec 9
/-- A thread identifier (R23): core identifier times 64, plus the context. -/
abbrev Thread := BitVec 15
/-- A tensor handle (R224). -/
abbrev Handle := BitVec 16
/-- A sync object index (R183). -/
abbrev SyncObj := BitVec 15
/-- A device virtual address (R232). -/
abbrev VA := BitVec 48
/-- A 64-byte line: its bytes, lowest address first. -/
abbrev Line := List Byte

/-- The four streams of a thread (R164), in the order of the context area (Table 7.12). -/
inductive Stream where
  | scalar | vector | matrix | move
deriving DecidableEq, Repr

/-- The stream's number as registers, events and SETP code it (Tables 7.7 and 18.22). -/
def Stream.code : Stream → Nat
  | .scalar => 0 | .vector => 1 | .matrix => 2 | .move => 3

/-- The eight words of one engine command (R194). -/
structure Cmd where
  w0 : Word
  w1 : Word
  w2 : Word
  w3 : Word
  w4 : Word
  w5 : Word
  w6 : Word
  w7 : Word
deriving DecidableEq, Repr

/-- The command of eight zero words. -/
def Cmd.zero : Cmd := ⟨0, 0, 0, 0, 0, 0, 0, 0⟩

end Sys2Proof
end

