-- ==== Sys2Proof/Syntax.lean ====
section
/-! DEFINITION. The commands of the block: one constructor of `Instr` for each row of the spec's
table of operations and events, with the operands the row's step takes. A step of an engine names the
thread (and, for opcodes every stream accepts, the stream): the command's eight words stand at the head
of that stream's queue, as the control core fetched them. A step of the command interpreter names the
ring: the packet's bytes stand in the submission ring. A step that something outside causes (a flit, a
cell, a sensor reading, a pin) carries what arrived. -/

namespace Sys2Proof

/-- An access through a scratch window (R180). -/
inductive WindowAccess where
  | read (bytes : Nat)
  | write (data : List Byte)
deriving DecidableEq, Repr

/-- A physical upset of the array met by a load or a pass (Table 3.7): none, a parity error of the
stationary registers or the feeder, or an uncorrectable drain-buffer error that an accumulate reads. -/
inductive ArrayUpset where
  | none | parity | drainEcc
deriving DecidableEq, Repr

/-- The payload of a HELLO cell (Table 11.7). -/
structure Hello where
  seen     : Bool
  mode     : BitVec 8
  port     : BitVec 8
  version  : BitVec 8
  domain   : BitVec 32
  rank     : BitVec 32
  deviceId : BitVec 64
deriving DecidableEq, Repr

/-- A fabric cell as it arrives or is sent (Tables 11.3 and 11.4): the control word's fields, the tag,
the target and the payload bytes. -/
structure Cell where
  vc      : BitVec 3
  type    : BitVec 5
  poison  : Bool
  last    : Bool
  first   : Bool
  len     : BitVec 4
  seq     : BitVec 12
  tag     : BitVec 16
  target  : BitVec 48
  payload : List Byte
deriving DecidableEq, Repr

/-- A message of the Ratil Coherent Link (Tables 13.6 and 13.7): the header unit's fields and the data
units' bytes; `poison` marks a line its sender poisoned (R373). -/
structure RclMsg where
  opcode : BitVec 8
  tag    : BitVec 12
  status : BitVec 8
  sub    : BitVec 4
  addr   : BitVec 52
  aux    : BitVec 32
  data   : List Byte
  poison : Bool
deriving DecidableEq, Repr

/-- The header of a flit (Table 13.4). -/
structure FlitHeader where
  kind    : BitVec 4
  seq     : BitVec 12
  ackSeq  : BitVec 12
  nak     : Bool
  credReq : BitVec 16
  credRsp : BitVec 16
  credSnp : BitVec 16
  credEvt : BitVec 16
  valid   : BitVec 14
deriving DecidableEq, Repr

/-- A resource with admission units (Table 14.9): the message slots of a fabric port, the Update Die
with the Reserve, or the one copy that runs into a REQUANT_COPY destination (R277). -/
inductive Resource where
  | fabric (port : FPort)
  | update
  | requant (part : Part) (handle : Handle)
deriving DecidableEq, Repr

/-- A part that the device firmware trains (R465). -/
inductive TrainPart where
  | stack (h : Fin 8)
  | reserve
  | updLink (i : Iod)
deriving DecidableEq, Repr

/-- What a patrol read finds in a line (R481). -/
inductive ScrubResult where
  | clean | corrected | uncorrected
deriving DecidableEq, Repr

/-- A unit with a thermal comparator (R437). -/
inductive TripUnit where
  | die (d : Die) | iod (i : Iod) | updateDie | regulators
deriving DecidableEq, Repr

/-- What a management ATTEST request carries (Table 17.6): one of the four writes of the nonce, the go,
or the read of the report from an offset. -/
inductive AttestReq where
  | nonce (quarter : Fin 4) (data : List Byte)
  | go
  | read (offset : BitVec 12)
deriving DecidableEq, Repr

/-- Why a management request is malformed (R485). -/
inductive MgtFlaw where
  | pec | length | command
deriving DecidableEq, Repr

/-- The commands of the block, one constructor for each row of the table. -/
inductive Instr where
  /-- REGISTER_WRITE (R4): A write to a register field that has no behaviour of its own sets the field as its access code states. -/
  | registerWrite (r : Requester) (offset : BitVec 26) (wide : Bool) (value : DWord)
  /-- COMMAND_FETCH (R171): The control core fetches up to two commands per KCLK from eligible streams in two-level round-robin into their queues. -/
  | commandFetch (core : CoreId) (upset : Bool)
  /-- ILLEGAL_COMMAND (R195): An undefined, misplaced or out-of-range command halts its context as if by stop-after-N and is logged. -/
  | illegalCommand (t : Thread) (st : Stream)
  /-- COMMAND_SKIPPED (R196): A command whose predicate does not select it retires at its queue head without executing or signalling. -/
  | commandSkipped (t : Thread) (st : Stream)
  /-- COMMAND_COMPLETE (R165): A command's writes become visible at their homes; its status word is written and its completion signal sent. -/
  | commandComplete (t : Thread) (st : Stream)
  /-- NOP (R194): The common NOP command does nothing. -/
  | nop (t : Thread) (st : Stream)
  /-- END (R169): A stream stops fetching and retires; when all four streams have retired END the context is done and free. -/
  | endStream (t : Thread) (st : Stream)
  /-- LOOP (R205): LOOP latches its count and repeats the following body, skipping it entirely when the count is zero. -/
  | loop (t : Thread) (st : Stream)
  /-- LOOP_ITERATION_END (R208): An iteration of a loop body ends; the loop continues, or exits on count or on p15 with exit_on_fault. -/
  | loopIterationEnd (t : Thread) (st : Stream)
  /-- SIGNAL (R185): The SIGNAL command adds d to a sync object, saturating. -/
  | signal (t : Thread) (st : Stream)
  /-- WAIT (R188): The WAIT command registers a threshold on a sync object and holds its stream not ready until met. -/
  | wait (t : Thread) (st : Stream)
  /-- RESET (R185): The RESET command sets a sync object's value. -/
  | reset (t : Thread) (st : Stream)
  /-- BANK_SWITCH (R221): A stream issues BANK_SWITCH with its entry point and stops fetching. -/
  | bankSwitch (t : Thread) (st : Stream)
  /-- BANK_SWITCH_TAKES_EFFECT (R221): Once every stream has retired BANK_SWITCH or END and nothing is in flight, the context's bank flips and streams resume. -/
  | bankSwitchTakesEffect (t : Thread)
  /-- MOVI (R199): Scalar move of an immediate into a register. -/
  | movi (t : Thread)
  /-- ADD (R199): Scalar 64-bit addition modulo 2^64. -/
  | add (t : Thread)
  /-- SUB (R199): Scalar 64-bit subtraction modulo 2^64. -/
  | sub (t : Thread)
  /-- MUL (R199): Scalar multiplication keeping the low 64 bits. -/
  | mul (t : Thread)
  /-- AND (R199): Scalar bitwise AND. -/
  | and (t : Thread)
  /-- OR (R199): Scalar bitwise OR. -/
  | or (t : Thread)
  /-- XOR (R199): Scalar bitwise XOR. -/
  | xor (t : Thread)
  /-- SHL (R199): Scalar left shift by src1 bits 5:0. -/
  | shl (t : Thread)
  /-- SHR (R199): Scalar logical right shift. -/
  | shr (t : Thread)
  /-- SAR (R199): Scalar arithmetic right shift. -/
  | sar (t : Thread)
  /-- MINS (R199): Scalar signed minimum. -/
  | mins (t : Thread)
  /-- MAXS (R199): Scalar signed maximum. -/
  | maxs (t : Thread)
  /-- CMPP (R199): Scalar comparison writing a target predicate p1-p11. -/
  | cmpp (t : Thread)
  /-- SETP (R202): Sets predicates by immediate, width word, flag or stream status, stalling while the width word is provisional. -/
  | setp (t : Thread)
  /-- LD (R200): Scalar 64-bit load from a device virtual address. -/
  | ld (t : Thread)
  /-- ST (R200): Scalar 64-bit store to a device virtual address. -/
  | st (t : Thread)
  /-- PUTP (R199): Writes a thread parameter register from a scalar register. -/
  | putp (t : Thread)
  /-- GETP (R199): Reads a thread parameter register into a scalar register. -/
  | getp (t : Thread)
  /-- LIDX (R199): Returns the iteration index of the stream's loop at a given depth. -/
  | lidx (t : Thread)
  /-- FETCH_ADD (R185): Scalar atomic fetch-and-add on a sync object, returning the old value. -/
  | fetchAdd (t : Thread)
  /-- SETNCW (R201): Rewrites the thread's numeric control word under a mask. -/
  | setncw (t : Thread)
  /-- SYNC_OPERATION_APPLIED (R187): The home sync unit applies one SIGNAL, FETCH_ADD or RESET to an object and compares registered waits. -/
  | syncOperationApplied (obj : SyncObj)
  /-- SYNC_WAIT_LONG (R191): A wait pending beyond DBG_WAIT_LIMIT x 1,024 KCLK logs one event and continues. -/
  | syncWaitLong (t : Thread) (st : Stream)
  /-- SYNC_SLOT_SIGNAL_WRITE (R184): A plain write to a sync slot's SIGNAL offset adds the written value. -/
  | syncSlotSignalWrite (p : Part) (obj : SyncObj) (wide : Bool) (value : DWord)
  /-- SYNC_SLOT_RESET_WRITE (R184): A plain write to a sync slot's RESET offset sets the value. -/
  | syncSlotResetWrite (p : Part) (obj : SyncObj) (wide : Bool) (value : DWord)
  /-- SYNC_SLOT_VALUE_WRITE (R184): A plain write to a sync slot's VALUE offset is dropped and logged. -/
  | syncSlotValueWrite (p : Part) (obj : SyncObj) (wide : Bool) (value : DWord)
  /-- SCRATCH_WINDOW_ACCESS (R180): An outside agent reads or writes a core's scratch through its window; upper-half accesses read 0 or are dropped. -/
  | scratchWindowAccess (p : Part) (offset : BitVec 31) (a : WindowAccess)
  /-- VADD (R41): Vector elementwise addition, floating or wrapping integer. -/
  | vadd (t : Thread)
  /-- VSUB (R41): Vector elementwise subtraction. -/
  | vsub (t : Thread)
  /-- VMUL (R41): Vector elementwise multiplication. -/
  | vmul (t : Thread)
  /-- VFMA (R41): Vector fused multiply-add dst = src0 x src1 + dst with one rounding. -/
  | vfma (t : Thread)
  /-- VDIV (R41): Vector elementwise division. -/
  | vdiv (t : Thread)
  /-- VSQRT (R58): Vector square root within 1 ulp. -/
  | vsqrt (t : Thread)
  /-- VRECIP (R58): Vector reciprocal within 1 ulp. -/
  | vrecip (t : Thread)
  /-- VRSQRT (R58): Vector reciprocal square root within 1 ulp. -/
  | vrsqrt (t : Thread)
  /-- VMIN (R43): NaN-propagating vector minimum. -/
  | vmin (t : Thread)
  /-- VMAX (R43): NaN-propagating vector maximum. -/
  | vmax (t : Thread)
  /-- VMINNUM (R43): Vector minimumNumber returning the non-NaN operand. -/
  | vminnum (t : Thread)
  /-- VMAXNUM (R43): Vector maximumNumber returning the non-NaN operand. -/
  | vmaxnum (t : Thread)
  /-- VABS (R42): Vector absolute value as a sign-bit operation. -/
  | vabs (t : Thread)
  /-- VNEG (R42): Vector negation as a sign-bit operation. -/
  | vneg (t : Thread)
  /-- VCOPYSIGN (R42): Vector copy-sign as a sign-bit operation. -/
  | vcopysign (t : Thread)
  /-- VCMP (R41): Vector quiet comparison writing one byte per element. -/
  | vcmp (t : Thread)
  /-- VEXP (R58): Vector exponential within 2 ulp. -/
  | vexp (t : Thread)
  /-- VEXP2 (R58): Vector base-2 exponential within 2 ulp. -/
  | vexp2 (t : Thread)
  /-- VLOG (R58): Vector natural logarithm within 2 ulp. -/
  | vlog (t : Thread)
  /-- VLOG2 (R58): Vector base-2 logarithm within 2 ulp. -/
  | vlog2 (t : Thread)
  /-- VTANH (R58): Vector hyperbolic tangent within 2 ulp. -/
  | vtanh (t : Thread)
  /-- VSIGMOID (R58): Vector sigmoid within 2 ulp. -/
  | vsigmoid (t : Thread)
  /-- VERF (R58): Vector error function within 2 ulp. -/
  | verf (t : Thread)
  /-- VSIN (R58): Vector sine within 2 ulp. -/
  | vsin (t : Thread)
  /-- VCOS (R58): Vector cosine within 2 ulp. -/
  | vcos (t : Thread)
  /-- VCVT (R51): Vector conversion between formats, quantising to integers with scale tiles and optional fold. -/
  | vcvt (t : Thread)
  /-- DEQUANT (R112): Vector dequantisation q x s(c) after checking the scale tile for count and entry. -/
  | dequant (t : Thread)
  /-- SCALE_GRAD (R113): Computes learned-scale gradients and the straight-through input gradient. -/
  | scaleGrad (t : Thread)
  /-- SCALE_CLEAR (R118): Clears amax and the formed, null and late bits of a range of scale entries. -/
  | scaleClear (t : Thread)
  /-- AMAX_SCAN (R118): Scans a complete tensor block and replaces each channel's amax, optionally folded. -/
  | amaxScan (t : Thread)
  /-- SCALE_FORM (R119): Forms scale, recip, fmt and null of each entry from its amax for a target integer format. -/
  | scaleForm (t : Thread)
  /-- TMATMUL (R214): Tare-mode BF16 matrix product computed on the vector engine by the loop of R61. -/
  | tmatmul (t : Thread)
  /-- VREDSUM (R59): Reduces each row to its sum in the fixed lane-and-tree order. -/
  | vredsum (t : Thread)
  /-- VREDMAX (R59): Reduces each row to its NaN-propagating maximum. -/
  | vredmax (t : Thread)
  /-- VREDMIN (R59): Reduces each row to its NaN-propagating minimum. -/
  | vredmin (t : Thread)
  /-- MATMUL (R209): A matrix command issues once its operands are resident, after shape, format and issue-time scale checks. -/
  | matmul (t : Thread)
  /-- MCOMBINE (R209): A matrix command that sums 1-8 raw preloads and drains them without any pass. -/
  | mcombine (t : Thread)
  /-- PRELOAD_READ (R529): The drain reads a preload row into the accumulators once the earlier tile's drain-out has read that row. -/
  | preloadRead (core : CoreId) (ecc : Bool)
  /-- STATIONARY_LOAD (R76): A stationary tile is loaded into the cell registers over 144 ACLK cycles. -/
  | stationaryLoad (core : CoreId) (upset : ArrayUpset)
  /-- TILE_FIRST_PASS_ISSUE (R83): A tile's first pass issues in an open gating slot once load, preload and drain-buffer reuse conditions hold. -/
  | tileFirstPassIssue (core : CoreId) (cycle : Nat) (upset : ArrayUpset)
  /-- PASS_ISSUE (R79): A further pass of a tile streams its fed A-rows and accumulates into the drain buffer. -/
  | passIssue (core : CoreId) (upset : ArrayUpset)
  /-- TILE_COMMIT_POINT (R80): At the commit point the drain checks scale tags and decides whether the tile is written. -/
  | tileCommitPoint (core : CoreId)
  /-- DRAIN_OUT_ROW_READ (R81): The drain reads one accumulator row, converts and dequantises it and writes it to scratch. -/
  | drainOutRowRead (core : CoreId) (badColumns : List Nat)
  /-- TILE_VISIBLE (R81): A tile's last drained row is in scratch; the tile becomes visible and its completion counts. -/
  | tileVisible (core : CoreId)
  /-- PREEMPTION_TAKES_EFFECT (R99): A pending pre-emption takes effect at a tile boundary and the command ends PREEMPTED. -/
  | preemptionTakesEffect (core : CoreId)
  /-- MLOAD_A (R239): Builds stream tiles with headers from in-bounds elements, zero-filling the rest. -/
  | mloadA (t : Thread)
  /-- MLOAD_B (R242): Builds stationary tiles, optionally by transposed read. -/
  | mloadB (t : Thread)
  /-- MLOAD_S (R126): Loads a scale tile with its header into a scale slot. -/
  | mloadS (t : Thread)
  /-- MLOAD (R239): Copies a block from memory into scratch unchanged. -/
  | mload (t : Thread)
  /-- MSTORE (R239): Copies a scratch block to memory, writing in-bounds elements only. -/
  | mstore (t : Thread)
  /-- MCOPY (R239): Copies memory to memory over the part in bounds on both sides. -/
  | mcopy (t : Thread)
  /-- MHALO (R245): Writes a scratch block into a mesh neighbour's scratch over the direct link. -/
  | mhalo (t : Thread)
  /-- MMASK (R215): Copies a 36-byte row mask into scratch. -/
  | mmask (t : Thread)
  /-- PM_LOAD (R220): Copies 64-byte blocks into program memory, dropping blocks aimed at a bank in use. -/
  | pmLoad (t : Thread)
  /-- STATS_PARTIAL_MERGE (R140): Gauger applies one tile's statistics partial atomically to a record, or queues it if the record is held. -/
  | statsPartialMerge (d : Die)
  /-- STEP_END (R141): A STEP_END packet is interpreted and waits for every earlier command of the partition. -/
  | stepEnd (ring : Ring)
  /-- STEP_END_SNAPSHOT (R141): The step counter advances, watched records are snapshotted, records cleared and the statistics round readied. -/
  | stepEndSnapshot (p : Part)
  /-- STATS_SUMMARY_ARRIVAL (R151): The reduced summary arrives; Assize applies the width and silent rules and Gauger releases held records. -/
  | statsSummaryArrival (p : Part)
  /-- ASSIZE_DECISION_COMPLETE (R154): Assize has written the final width words and descriptor flags and clears provisional. -/
  | assizeDecisionComplete (p : Part)
  /-- ASZ_RESTORE (R159): Setting ASZ_CTRL restore loads the saved Assize state and publishes cold words until a header arrives. -/
  | aszRestore (p : Part)
  /-- ASZ_AGREE (R159): Setting ASZ_CTRL agree starts an agreement round that reduces the header alone. -/
  | aszAgree (p : Part)
  /-- ASZ_PROMOTE_CLR (R156): Writing a group number ends its first-pass promotion at the next snapshot. -/
  | aszPromoteClr (p : Part) (group : BitVec 12)
  /-- PREEMPT_HALT (R170): PREEMPT with action halt stops issue on the named contexts and halts them in place. -/
  | preemptHalt (ring : Ring)
  /-- PREEMPT_END (R170): PREEMPT with action end halts and then frees the named contexts. -/
  | preemptEnd (ring : Ring)
  /-- CONTEXT_HALTED (R170): A pre-empted context has no command in flight and is halted or freed; the PREEMPT reply is written when all are. -/
  | contextHalted (t : Thread)
  /-- RESUME (R170): RESUME restarts halted contexts at their program counters, reissuing pre-empted matrix commands. -/
  | resume (ring : Ring)
  /-- DBG_STOP_ARM (R222): Enabling a stop unit arms it on a thread and stream, halting at once if the count is already reached. -/
  | dbgStopArm (p : Part) (unit : Fin 16) (ctrl : BitVec 32)
  /-- THREAD_DUMP (R223): When nothing of a halted thread is in flight, its 768-byte dump is written and DEBUG_HALT logged. -/
  | threadDump (t : Thread)
  /-- DBG_STOP_RESUME (R223): A write to DBG_STOP_RESUMEu resumes the unit's halted thread. -/
  | dbgStopResume (p : Part) (unit : Fin 16)
  /-- TENSOR_ALLOC (R530): Surveyor checks, places and writes a new descriptor and returns its handle. -/
  | tensorAlloc (ring : Ring)
  /-- TENSOR_FREE (R225): A TENSOR_FREE packet is interpreted and waits for earlier commands. -/
  | tensorFree (ring : Ring)
  /-- TENSOR_FREE_TAKES_EFFECT (R225): The descriptor and its pages are released and later uses fail with HANDLE_INVALID. -/
  | tensorFreeTakesEffect (p : Part)
  /-- PLACE_HINT (R229): Writes a descriptor's hint word, taking effect at Surveyor's next decision. -/
  | placeHint (ring : Ring)
  /-- PAGE_MIGRATION_START (R237): Surveyor sets migrating on a page and starts copying its frame. -/
  | pageMigrationStart (p : Part)
  /-- PAGE_COPY_COMPLETE (R237): The frame copy ends; the entry is remapped, migrating cleared and translation caches invalidated. -/
  | pageCopyComplete (p : Part) (page : BitVec 21)
  /-- OLD_FRAME_FREE (R237): The old frame is freed once no access translated through the old entry remains in flight. -/
  | oldFrameFree (p : Part) (page : BitVec 21)
  /-- SET_PHASE (R259): Changes the partition's phase tag, at once or after a drain. -/
  | setPhase (ring : Ring)
  /-- SET_PHASE_TAKES_EFFECT (R260): A draining SET_PHASE takes effect once every earlier command has completed. -/
  | setPhaseTakesEffect (p : Part)
  /-- PHASE_PREFERENCE_UPDATE (R424): A die's preferred depth follows the new phase tag within 2 us. -/
  | phasePreferenceUpdate (d : Die)
  /-- OFFLOAD_TRIGGER (R264): An armed offloadable tensor's trigger is met and its pages start migrating to host frames. -/
  | offloadTrigger (p : Part) (h : Handle)
  /-- SLOT_OPEN (R270): Opens the lowest free sequence slot, sharing parent blocks and mapping ahead blocks. -/
  | slotOpen (ring : Ring)
  /-- SLOT_CLOSE (R273): A SLOT_CLOSE packet is interpreted and waits for earlier commands. -/
  | slotClose (ring : Ring)
  /-- SLOT_CLOSE_TAKES_EFFECT (R273): The slot's entries are invalidated, page counts decremented and the slot freed. -/
  | slotCloseTakesEffect (p : Part)
  /-- KV_GROW_SIGNAL (R271): A signal of the growth object makes Surveyor map further key/value blocks for open slots. -/
  | kvGrowSignal (p : Part)
  /-- REQUANT_COPY (R274): A REQUANT_COPY packet is interpreted and waits for earlier commands and earlier copies to its destination. -/
  | requantCopy (ring : Ring)
  /-- REQUANT_COPY_START (R275): The copy forms destination scale entries and requantises every element. -/
  | requantCopyStart (p : Part)
  /-- HANDOVER_DONE (R276): Every copied element is visible; the destination object is signalled and HANDOVER_DONE logged. -/
  | handoverDone (p : Part)
  /-- UPDATE_STEP (R288): An UPDATE_STEP binds to the last STEP_END and copies its parameter entries into SRAM. -/
  | updateStep (ring : Ring)
  /-- UPDATE_STEP_REWRITE (R296): An UPDATE_STEP in rewrite mode writes only working weights and scales from the masters. -/
  | updateStepRewrite (ring : Ring)
  /-- UPDATE_PASS_ONE_ENTRY (R289): Once an entry's bucket is complete, pass one forms its gradient norm partial. -/
  | updatePassOneEntry (p : Part) (entry : Nat)
  /-- UPDATE_PASS_TWO_START (R292): With the norm returned and widths final, pass two applies the optimiser rule and writes state. -/
  | updatePassTwoStart (p : Part)
  /-- ENTRY_RELEASE (R295): An entry's writes are visible and its release object is signalled. -/
  | entryRelease (p : Part)
  /-- CHECKPOINT (R305): A CHECKPOINT packet is interpreted and waits for earlier commands. -/
  | checkpoint (ring : Ring)
  /-- CHECKPOINT_START (R305): The Update Die saves the Assize record and parameter table and puts the slot header in state writing. -/
  | checkpointStart (p : Part)
  /-- MIRROR_ACK (R305): An acknowledgement of a header or granule arrives; the next granules or the final header are sent. -/
  | mirrorAck (port : FPort)
  /-- CHECKPOINT_ACK_TIMEOUT (R307): An acknowledgement missing for 100 ms ends the checkpoint ABANDONED. -/
  | checkpointAckTimeout (p : Part)
  /-- RESTORE (R308): A RESTORE packet is interpreted and waits for earlier update and checkpoint work. -/
  | restore (ring : Ring)
  /-- RESTORE_START (R308): The Update Die reads both slot headers from the neighbour. -/
  | restoreStart (p : Part)
  /-- MIRROR_DATA (R308): Read data of a mirror slot arrives and is copied into the state region. -/
  | mirrorData (port : FPort)
  /-- MIRROR_WRITE (R302): A received checkpoint write is checked against port, rank and region and written to the mirror. -/
  | mirrorWrite (port : FPort)
  /-- MIRROR_READ (R302): A received mirror read is served from the mirror region. -/
  | mirrorRead (port : FPort)
  /-- PEER_SIGNAL_DETECTED (R313): A fabric port in DETECT or DARK sees the peer's signal and enters BOOT. -/
  | peerSignalDetected (port : FPort)
  /-- DETECT_RETRY_TIMER (R313): The random backoff after a failed attempt expires and DETECT retries. -/
  | detectRetryTimer (port : FPort)
  /-- DETECT_TIMEOUT (R313): 30 s in DETECT without HELLO puts the fabric port DARK. -/
  | detectTimeout (port : FPort)
  /-- DARK_BEACON_TIMER (R313): A DARK fabric port sends its bootstrap pattern on lane 0 for 1 ms each 100 ms. -/
  | darkBeaconTimer (port : FPort)
  /-- BOOT_LANE_TIMEOUT (R314): The 5 ms bound for one BOOT lane expires and the next lane is tried. -/
  | bootLaneTimeout (port : FPort)
  /-- PARAM (R314): A PARAM cell arrives and both sides choose the mode. -/
  | param (port : FPort) (lanes : BitVec 4) (rate : Fin 3) (version : BitVec 8)
  /-- LANE_TEST_COMPLETE (R315): The 1 ms lane test ends; failed lanes are excluded and the port retries or proceeds to HELLO. -/
  | laneTestComplete (port : FPort) (ratios : List Word)
  /-- HELLO (R326): A HELLO cell arrives; the neighbour entry is recorded and the port enters UP or LIMITED. -/
  | hello (port : FPort) (h : Hello)
  /-- HELLO_RESEND_TIMER (R325): A HELLO is resent every 100 us until a seen HELLO arrives. -/
  | helloResendTimer (port : FPort)
  /-- LANE_LOCK_LOSS (R316): A lane loses block lock and the port enters RETRAIN. -/
  | laneLockLoss (port : FPort) (lane : Fin 4)
  /-- SER_WINDOW_END (R316): A 10 ms symbol-error window ends; a lane above 10^-4 is failed and the port retrains. -/
  | serWindowEnd (port : FPort) (ratios : List Word)
  /-- RETRAIN_LIMIT_EXPIRY (R318): A port not back up within FAB_RETRAIN_LIMIT discards replay state and ends its messages. -/
  | retrainLimitExpiry (port : FPort)
  /-- LINK_CTRL (R322): A LINK_CTRL cell delivers cumulative credits and ack_seq or nak. -/
  | linkCtrl (port : FPort) (credits : List (BitVec 16)) (ack : BitVec 12) (nak : Bool)
  /-- LINK_CTRL_TIMER (R322): A LINK_CTRL is sent at least every 10 us. -/
  | linkCtrlTimer (port : FPort)
  /-- SEQUENCED_CELL_RECEIVED (R323): A VC0-VC6 cell arrives and is accepted in sequence or dropped as a link error. -/
  | sequencedCellReceived (port : FPort) (c : Cell) (crc : BitVec 32) (fecOk : Bool)
  /-- REPLAY_TIMER (R323): 20 us without ack progress resends every unacknowledged cell. -/
  | replayTimer (port : FPort)
  /-- ISOLATE_NOTICE (R333): An ISOLATE_NOTICE from the peer arrives and PEER_ISOLATED is logged. -/
  | isolateNotice (port : FPort) (cause : BitVec 8)
  /-- ISOLATE_NOTICE_TIMER (R313): An isolated port sends ISOLATE_NOTICE every 1 ms. -/
  | isolateNoticeTimer (port : FPort)
  /-- PUT_OPEN (R329): A put is checked against its window before anything is written. -/
  | putOpen (port : FPort)
  /-- PUT_DATA (R329): A put data cell's bytes are written at the window offset. -/
  | putData (port : FPort)
  /-- PUT_COMPLETE (R329): Every byte of a put is visible; the window object is signalled and PUT_ACK sent. -/
  | putComplete (port : FPort)
  /-- PUT_ACK (R329): The initiator receives a put acknowledgement and the PUT completes. -/
  | putAck (port : FPort)
  /-- GET_REQ (R330): A get request is checked and answered with GET_RESP cells. -/
  | getReq (port : FPort)
  /-- GET_RESP (R330): Get response data lands in the initiator's tensor. -/
  | getResp (port : FPort)
  /-- MGMT (R320): A management cell is handled by I/O-die firmware. -/
  | mgmt (port : FPort)
  /-- FAB_RANK_WRITE (R327): A write to FAB_RANK or FAB_DOMAIN sends fresh HELLOs on every up port. -/
  | fabRankWrite (r : Requester) (domain : Bool) (value : BitVec 32)
  /-- FAB_PORT_RETRAIN (R316): FAB_PORT_CTRL retrain puts the port into RETRAIN. -/
  | fabPortRetrain (r : Requester) (port : FPort)
  /-- FAB_PORT_RELANE (R315): FAB_PORT_CTRL relane re-admits failed lanes and retrains. -/
  | fabPortRelane (r : Requester) (port : FPort)
  /-- FAB_PORT_WAKE (R506): FAB_PORT_CTRL wake moves a DARK port to DETECT. -/
  | fabPortWake (r : Requester) (port : FPort)
  /-- PUT (R331): A PUT packet sends a local tensor range to a peer window. -/
  | put (ring : Ring)
  /-- GET (R330): A GET packet requests a peer window range into a local tensor. -/
  | get (ring : Ring)
  /-- WINDOW_REGISTER (R328): Registers a window over the partition's memory for puts and gets. -/
  | windowRegister (ring : Ring)
  /-- WINDOW_DEREGISTER (R328): Removes a window after every message in progress on it has completed. -/
  | windowDeregister (ring : Ring)
  /-- BUCKET_DECLARE (R337): Validates a bucket entry, computes its tree and writes its device fields. -/
  | bucketDeclare (ring : Ring)
  /-- BUCKET_UNDECLARE (R337): A BUCKET_DECLARE of an entry with valid 0 removes the bucket from the round order. -/
  | bucketUndeclare (ring : Ring)
  /-- ROUND_ACTIVATE (R343): A round is activated in order, reserving buffers and sending CREDIT to children. -/
  | roundActivate (p : Part) (iod : Iod)
  /-- ROUND_READY (R341): A round becomes ready locally and starts combining its chunks. -/
  | roundReady (p : Part) (bucket : BitVec 12)
  /-- CREDIT (R344): A CREDIT control message allows more chunks of a round to be sent up. -/
  | credit (port : FPort)
  /-- COLL_DATA (R346): A collective chunk arrives and is combined, forwarded or written as a result. -/
  | collData (port : FPort)
  /-- RESULT_END (R354): RESULT_END delivers the round's flags; the round is done and done_obj signalled. -/
  | resultEnd (port : FPort)
  /-- ABORT (R357): An ABORT for a round's key fails it and is passed on. -/
  | abort (port : FPort)
  /-- ROUND_TIMEOUT (R357): A ready round idle for COL_ROUND_TIMEOUT fails with ABORT. -/
  | roundTimeout (p : Part) (bucket : BitVec 12)
  /-- MIRROR_COMPARE_TIMEOUT (R355): The mirror result has not arrived in time and the comparison is skipped. -/
  | mirrorCompareTimeout (p : Part) (bucket : BitVec 12)
  /-- RCL_PEER_SIGNAL_DETECTED (R363): An RCL port in DETECT or DARK sees the peer's signal and enters PARAM. -/
  | rclPeerSignalDetected (port : RPort)
  /-- RCL_DETECT_RETRY_TIMER (R363): The RCL backoff expires and DETECT retries. -/
  | rclDetectRetryTimer (port : RPort)
  /-- RCL_DETECT_TIMEOUT (R363): 30 s without ACTIVE puts the RCL port DARK. -/
  | rclDetectTimeout (port : RPort)
  /-- RCL_DARK_BEACON_TIMER (R363): A DARK RCL port sends its pattern for 1 ms in every 100 ms. -/
  | rclDarkBeaconTimer (port : RPort)
  /-- RCL_PARAM_FLIT (R364): A parameter flit arrives and the mode and feature set are chosen. -/
  | rclParamFlit (port : RPort) (lanes : BitVec 16) (rate : Fin 3) (version : BitVec 8) (peer : DWord) (features : BitVec 4)
  /-- RCL_LANE_TEST_COMPLETE (R365): The RCL lane test ends; failed lanes are excluded and the port becomes ACTIVE or retries. -/
  | rclLaneTestComplete (port : RPort) (ratios : List Word)
  /-- RCL_FLIT_RECEIVED (R367): A flit arrives, is corrected and CRC-checked, and is accepted in sequence or dropped. `head` is its 16-byte header and `body` the 240 bytes after it (Table 13.3); `marks` says of each message it completes whether the host marked the line poisoned (R373). -/
  | rclFlitReceived (port : RPort) (head : List Byte) (body : List Byte) (marks : List Bool)
  /-- RCL_REPLAY_TIMER (R367): 2 us without ack progress resends every unacknowledged flit. -/
  | rclReplayTimer (port : RPort)
  /-- RCL_RETRAIN_LIMIT_EXPIRY (R389): An RCL port not back to ACTIVE in time loses filter entries, reads and unacknowledged writes. -/
  | rclRetrainLimitExpiry (port : RPort)
  /-- RCL_ISOLATE_TIMER (R363): An isolated RCL port sends an ISOLATE control flit every 1 ms. -/
  | rclIsolateTimer (port : RPort)
  /-- RD_UNC (R372): An uncached read request is checked and answered with DATA. -/
  | rdUnc (port : RPort)
  /-- RD_SHARED (R378): A host cached read of a coherent line is answered and recorded Shared in the snoop filter. -/
  | rdShared (port : RPort)
  /-- RD_OWN (R378): A host read for ownership is answered and recorded Owned. -/
  | rdOwn (port : RPort)
  /-- WR_LINE (R372): A posted full-line write is performed. -/
  | wrLine (port : RPort)
  /-- WR_PARTIAL (R372): A posted masked write changes only the masked bytes atomically. -/
  | wrPartial (port : RPort)
  /-- WB (R381): A host write-back of an Owned line is performed and answered with CMP. -/
  | wb (port : RPort)
  /-- EVICT_CLEAN (R378): The host announces dropping a Shared line. -/
  | evictClean (port : RPort)
  /-- MMIO_RD (R372): A host register read answered with DATA_MMIO. -/
  | mmioRd (port : RPort)
  /-- MMIO_WR (R372): A posted host register write. -/
  | mmioWr (port : RPort)
  /-- DOORBELL (R384): A doorbell delivers a new submission tail to the partition's command interpreter. -/
  | doorbell (port : RPort)
  /-- CMP (R370): A completion response arrives and is matched by tag. -/
  | cmp (port : RPort)
  /-- DATA (R373): Data answering a device read arrives and is written, poisoned if flagged. -/
  | data (port : RPort)
  /-- SNP_RSP (R381): A snoop answer without data arrives and the waiting device access proceeds. -/
  | snpRsp (port : RPort)
  /-- SNP_RSP_DATA (R380): A snoop answer with data arrives, the data becomes the line's value, and the access proceeds. -/
  | snpRspData (port : RPort)
  /-- SNOOP_TIMEOUT (R382): An unanswered snoop times out; the entry is removed, an Owned line poisoned. -/
  | snoopTimeout (port : RPort)
  /-- EVENT_HOLDOFF_EXPIRY (R385): A source's holdoff interval ends and one EVENT covering its new entries is sent. -/
  | eventHoldoffExpiry (source : BitVec 16)
  /-- COH_REGION_ENABLE (R377): Writing a region's enable request to 1 enables it or logs COH_REGION_REFUSED. -/
  | cohRegionEnable (p : Part) (port : RPort) (region : Fin 8)
  /-- COH_REGION_DISABLE (R383): Clearing a region's enable request recalls every filter entry of the region. -/
  | cohRegionDisable (p : Part) (port : RPort) (region : Fin 8)
  /-- RCL_PORT_RETRAIN (R508): RCL_PORT_CTRL retrain puts the port into RETRAIN. -/
  | rclPortRetrain (r : Requester) (port : RPort)
  /-- RCL_PORT_RELANE (R365): RCL_PORT_CTRL relane re-admits failed lanes and retrains. -/
  | rclPortRelane (r : Requester) (port : RPort)
  /-- RCL_PORT_WAKE (R363): RCL_PORT_CTRL wake moves a DARK port to DETECT. -/
  | rclPortWake (r : Requester) (port : RPort)
  /-- NOP_PACKET (R400): The NOP packet completes with value 0. -/
  | nopPacket (ring : Ring)
  /-- MALFORMED_PACKET (R401): A packet with an unknown opcode, wrong length or reserved bits ends MALFORMED. -/
  | malformedPacket (ring : Ring)
  /-- LAUNCH (R403): Loads code and parameters and starts a grid of threads on chosen dies and contexts. -/
  | launch (ring : Ring)
  /-- LAUNCH_COMPLETE (R404): Every context of the grid is done; the LAUNCH reply is written and any chained put sent. -/
  | launchComplete (p : Part)
  /-- COPY (R400): Copies one tensor to another of the same format. -/
  | copy (ring : Ring)
  /-- QUERY_STATS (R402): Writes count statistics records to the result buffer. -/
  | queryStats (ring : Ring)
  /-- PACKET_COMPLETE (R405): A packet's work ends and its final reply and result generation are written. -/
  | packetComplete (p : Part)
  /-- ADMISSION_UNIT_FREED (R413): A freed admission unit goes to its owner's or the rotation's next queued request, which starts. -/
  | admissionUnitFreed (res : Resource)
  /-- HIF_SQ_TAIL_WRITE (R397): A write to the submission tail advances it or is dropped as BAD_DOORBELL. -/
  | hifSqTailWrite (r : Requester) (ring : Ring) (value : BitVec 32)
  /-- HIF_RQ_HEAD_WRITE (R499): A write to the reply head frees reply entries so reading can resume. -/
  | hifRqHeadWrite (r : Requester) (ring : Ring) (value : BitVec 32)
  /-- SURV_LOG_TAIL_WRITE (R501): The host advances the placement log tail. -/
  | survLogTailWrite (p : Part) (value : BitVec 32)
  /-- PART_START (R394): PART_CTRLp start resets ring indices and makes a STOPPED partition RUNNING. -/
  | partStart (r : Requester) (p : Part)
  /-- PART_RESET (R395): PART_CTRLp reset makes a running partition RESETTING and stops its work. -/
  | partReset (r : Requester) (p : Part)
  /-- PARTITION_STOPPED (R395): A resetting partition has written its final replies and enters STOPPED. -/
  | partitionStopped (p : Part)
  /-- RAIL_WINDOW_END (R426): A 1 us rail window ends and the governor raises or lowers L_d. -/
  | railWindowEnd (d : Die) (loopMilliamps : List Nat) (estMilliamps : List Nat) (estWatts : Word) (measWatts : Word) (monitored : List (Fin 27 × Nat))
  /-- RAIL_HARD_LIMIT_TRIP (R416): A rail beyond 125 % for 10 us is switched off and PWR_GOOD falls. -/
  | railHardLimitTrip (rail : Fin 27)
  /-- PLL_CHANGE_COMPLETE (R421): The die PLL reaches its new frequency; a downward change then starts the rail slew. -/
  | pllChangeComplete (d : Die)
  /-- RAIL_SLEW_COMPLETE (R421): The core rails settle at the new voltage; an upward change then moves the PLL. -/
  | railSlewComplete (d : Die)
  /-- CAP_WINDOW_END (R430): A 100 us power window ends and the cap loop deepens or relaxes one partition. -/
  | capWindowEnd (samples : List Nat)
  /-- GOV_CAP_WATTS_WRITE (R429): A write to GOV_CAP_WATTS sets the cap, clamped into 600-2,100 W. -/
  | govCapWattsWrite (r : Requester) (value : BitVec 32)
  /-- GOV_BOARD_CAP_WRITE (R429): A management write to GOV_BOARD_CAP sets the board cap, clamped. -/
  | govBoardCapWrite (r : Requester) (value : BitVec 32)
  /-- THERMAL_SENSOR_READ (R436): Junction sensors are read every 10 us; a bad or stale sensor is failed. -/
  | thermalSensorRead (d : Die) (readings : List (Option Int))
  /-- THERMAL_WINDOW_END (R435): A 100 us thermal window ends and T_d rises or falls. -/
  | thermalWindowEnd (d : Die)
  /-- THERMAL_TRIP (R437): A reading reaches 115 C and THERM_TRIP_n is asserted until power is removed. -/
  | thermalTrip (unit : TripUnit) (centidegrees : Int)
  /-- PWR_EN_RISE (R442): PWR_EN rises and the input ramp and rail sequence begin. -/
  | pwrEnRise
  /-- RAIL_GOOD (R442): A rail reaches 5 % of nominal; the next starts, or PWR_GOOD is asserted after the last. -/
  | railGood
  /-- POWER_UP_TIMEOUT (R443): Rails not good by 30 ms are switched off and PWR_GOOD is never asserted. -/
  | powerUpTimeout
  /-- REGULATOR_FAULT (R443): A regulator reports a fault and the rails are switched off. -/
  | regulatorFault (rail : Fin 27)
  /-- PWR_EN_FALL (R444): PWR_EN falls; PWR_GOOD falls and every rail goes off. -/
  | pwrEnFall
  /-- INPUT_OUT_OF_RANGE (R444): The 48 V input leaves its range beyond ride-through and the module powers off. -/
  | inputOutOfRange (millivolts : Nat) (microseconds : Nat)
  /-- BRD_REFCLK_LOSS (R521): BRD_REFCLK absent for 10 us makes PWR_GOOD fall. -/
  | brdRefclkLoss
  /-- FAB_REFCLK_LOSS (R521): Loss of FAB_REFCLKi sends every fabric port of IODi into RETRAIN. -/
  | fabRefclkLoss (iod : Iod)
  /-- RCL_REFCLK_LOSS (R521): Loss of RCL_REFCLKi takes every RCL port of IODi out of ACTIVE. -/
  | rclRefclkLoss (iod : Iod)
  /-- RESET_N_LOW (R445): RESET_n held low for 10 us starts a warm reset. -/
  | resetNLow
  /-- RESET_N_RISE (R445): RESET_n rises and the boot ROM may start. -/
  | resetNRise
  /-- BOOT_ROM_START (R456): The boot ROM samples BOOT_SEL and verifies and loads a first-stage image or enters recovery. -/
  | bootRomStart (bootSel : BitVec 2)
  /-- IDENTITY_KEYS_READY (R463): The key engine has derived both identity key pairs from the UDS. -/
  | identityKeysReady
  /-- BOOT_CODE_START (R456): The boot code verifies the firmware manifest, applies the configuration, sets the lock and starts firmware. -/
  | bootCodeStart
  /-- BOOT_WATCHDOG_EXPIRY (R457): The 5 s boot watchdog expires, cause 11 is recorded and a warm reset follows. -/
  | bootWatchdogExpiry
  /-- SEC_RECOVERY_GO (R458): A go to SEC_RECOVERY_CTRL has the ROM check the image written over port A. -/
  | secRecoveryGo (r : Requester)
  /-- SEC_LOCK_SET (R462): Writing lock makes every RWL field read-only until device reset. -/
  | secLockSet
  /-- DEVICE_FIRMWARE_START (R465): Device firmware starts training HBM, the Reserve and the Update Die links. -/
  | deviceFirmwareStart
  /-- MEMORY_TRAINING_COMPLETE (R465): A part finishes training or is marked failed; once all are, ready is reported. -/
  | memoryTrainingComplete (part : TrainPart) (ok : Bool)
  /-- SEC_KEY_REVOKE (R454): A revocation request blows a slot's revoke bit or is refused. -/
  | secKeyRevoke (r : Requester) (slot : BitVec 2)
  /-- SEC_SVN_COMMIT (R455): A commit raises the anti-rollback counter to v or is refused. -/
  | secSvnCommit (r : Requester) (v : BitVec 7)
  /-- FLASH_READ (R512): SEC_FLASH_CTRL op 1 reads flash into the buffer. -/
  | flashRead (r : Requester) (offset : BitVec 32) (length : BitVec 13)
  /-- FLASH_PROGRAM (R447): SEC_FLASH_CTRL op 2 programs flash from the buffer unless the region is protected. -/
  | flashProgram (r : Requester) (offset : BitVec 32) (length : BitVec 13)
  /-- FLASH_ERASE (R447): SEC_FLASH_CTRL op 3 erases 64 KiB unless the region is protected. -/
  | flashErase (r : Requester) (offset : BitVec 32)
  /-- FLASH_REQUEST_COMPLETE (R512): A flash request ends, setting result and clearing busy. -/
  | flashRequestComplete (error : Bool)
  /-- SEC_ATTEST_GO (R467): A go copies the nonce and address and queues an attestation report. -/
  | secAttestGo (r : Requester)
  /-- ATTEST_REPORT_WRITTEN (R467): The signed report is written and done_count incremented. -/
  | attestReportWritten
  /-- EVENT_RECORD (R473): A source writes an event's entries to its ring, or counts it lost. -/
  | eventRecord (source : BitVec 16) (number : BitVec 8) (fields : List Byte)
  /-- EVT_ENABLE (R471): Enabling a ring checks its placement, syncs head to tail and flushes held entries. -/
  | evtEnable (r : Requester) (source : BitVec 16)
  /-- EVT_HEAD_WRITE (R510): The owner advances an event ring head. -/
  | evtHeadWrite (r : Requester) (source : BitVec 16) (value : BitVec 32)
  /-- PATROL_SCRUB (R481): Memory controllers read every line once per 24 hours and correct single-bit errors. -/
  | patrolScrub (ctl : Fin 9) (line : Nat) (found : ScrubResult)
  /-- FATAL_ERROR (R484): An uncorrectable error in control state stops every partition until warm reset. -/
  | fatalError (iod : Iod) (store : BitVec 8) (address : DWord)
  /-- GET_STATUS (R485): Management command returning status registers and the failing rail. -/
  | getStatus
  /-- READ_TELEMETRY (R488): Management command returning telemetry readings. -/
  | readTelemetry (first : BitVec 8) (count : BitVec 8)
  /-- READ_REG (R486): Management command reading any register without side effect. -/
  | readReg (addr : VA)
  /-- WRITE_REG (R486): Management command writing the MGT block or GOV_BOARD_CAP. -/
  | writeReg (addr : VA) (value : DWord)
  /-- READ_EVENTS (R485): Management command returning event entries from memory or a holding buffer. -/
  | readEvents (source : BitVec 16) (index : BitVec 32) (count : BitVec 8)
  /-- ALERT_CLEAR (R487): Management command clearing alert status bits. -/
  | alertClear (mask : BitVec 32)
  /-- ATTEST (R467): Management command requesting an attestation report on set 4. -/
  | attest (req : AttestReq)
  /-- WARM_RESET (R445): Management command starting a warm reset. -/
  | warmReset (key : Byte)
  /-- GET_ID (R485): Management command returning device_id, part number and ROM version. -/
  | getId
  /-- BYPASS (R490): JTAG BYPASS instruction. -/
  | bypass
  /-- IDCODE (R490): JTAG IDCODE instruction returning DBG_IDCODE. -/
  | idcode
  /-- SAMPLE_PRELOAD (R490): JTAG SAMPLE/PRELOAD instruction. -/
  | samplePreload
  /-- EXTEST (R490): JTAG EXTEST, effective only while RESET_n is low. -/
  | extest
  /-- EXTEST_PULSE (R490): IEEE 1149.6 EXTEST_PULSE on AC-coupled lanes while RESET_n is low. -/
  | extestPulse
  /-- EXTEST_TRAIN (R490): IEEE 1149.6 EXTEST_TRAIN on AC-coupled lanes while RESET_n is low. -/
  | extestTrain
  /-- RCL_PEER_SIGNAL_LOSS (R363): An RCL port loses the peer's signal and, from ISOLATED, leaves for RETRAIN. -/
  | rclPeerSignalLoss (port : RPort)
  /-- RCL_PARAM_TIMEOUT (R363): The 5 ms PARAM bound expires without agreement and the attempt counts as failed, so DETECT backs off and retries. -/
  | rclParamTimeout (port : RPort)
  /-- FAB_REFCLK_RETURN (R521): FAB_REFCLKi returns and the fabric ports of IODi train again. -/
  | fabRefclkReturn (iod : Iod)
  /-- ALERT_RESPONSE_ADDRESS (R487): In SMBus mode, a read of the Alert Response Address while ALERT_n is low is answered by the module. -/
  | alertResponseAddress
  /-- MGT_REQUEST_MALFORMED (R485): A management request with an unknown command, a bad length or a bad PEC is answered with status MALFORMED. -/
  | mgtRequestMalformed (flaw : MgtFlaw)
deriving DecidableEq, Repr

end Sys2Proof
end

