-- ==== Sys2Proof/Config.lean ====
section
/-! DEFINITION. What an implementation fixes and the values the spec leaves open. Every constant here has
no body: nothing in Lean can evaluate it, so a claim is true whatever it is. -/

namespace Sys2Proof.Config

/-- A fresh free value, by the model's own counter (log 2). -/
opaque freeValue : Nat → Nat

/-- A byte that a vector command leaves in the padding of a row at a scratch offset, by the model's counter (log 28). -/
opaque padding (n offset : Nat) : BitVec 8

/-- Which of the results within its bound a native floating operation returns: a function of the
operation, the destination format, the operands' bits and the numeric control word (R58, R60). -/
opaque nativeChoice (op fmt a b ncw : Nat) : Nat

/-- SHA-512 of a message, as 64 bytes (R449, R464). -/
opaque sha512 : List Byte → List Byte
/-- HMAC-SHA-512 of a message under a key (R463). -/
opaque hmacSha512 : List Byte → List Byte → List Byte
/-- Ed25519: the public key of a seed, a signature, and its check (R449, R467). -/
opaque ed25519Public : List Byte → List Byte
opaque ed25519Sign : List Byte → List Byte → List Byte
opaque ed25519Verify : List Byte → List Byte → List Byte → Bool
/-- ML-DSA-65: the public key of a seed, a signature under a seed with the signer's fresh randomness, and its
check (R449, R467). -/
opaque mldsaPublic : List Byte → List Byte
opaque mldsaSign : List Byte → List Byte → Nat → List Byte
opaque mldsaVerify : List Byte → List Byte → List Byte → Bool

/-- The fuses of the part (R452, R454, R455, R463): the 68 bytes of key slot 0-3, the unique device
secret, and whether the debug fuse state is as shipped. -/
opaque fuseKey : Nat → List Byte
opaque fuseUds : List Byte

/-- The version of the boot ROM and the part number as GET_ID returns it (R467, Table 17.6). -/
opaque romVersion : BitVec 32
opaque partNumber : List Byte
/-- The strap pins MGT_ADDR[1:0] (R485). -/
opaque mgtAddr : BitVec 2
/-- Whether a read of the flash by the boot flow meets a flash error (cause 12), by the model's counter (log 73). -/
opaque flashFails : Nat → Bool
/-- Fields of the single partition of an image without a configuration that R460 does not give: 0 queue_bound,
1 power_weight, 2 mmio_grant (log 74). -/
opaque defaultEntry : Nat → Nat
/-- The set of the snoop filter that a line falls into (R379, log 10). -/
opaque filterSet : Nat → Nat

/-- The text of a progress line on the UART after its prefix, by the model's counter (log 121). -/
opaque uartText : Nat → List (BitVec 8)

/-- The number of a cause, a type or a code that the spec names in a list and does not number: the list and
the place in it (log 41). -/
opaque code (list item : Nat) : Nat

end Sys2Proof.Config
end

