-- ==== Sys2Proof/Machine/State.lean ====
section
/-! DEFINITION. The state of the block, as plain data: everything the spec gives the device, part by
part, and the queue of waiting commands. `State.reset` is the module before PWR_EN rises: every register
at its reset value, every store empty. -/

namespace Sys2Proof.Machine

/-- A finite map from numbers, in one canonical form: keys strictly rising, no entry equal to what an
unlisted key reads as. The operations stand in Machine/Sparse.lean. -/
abbrev Sparse (α : Type) := List (Nat × α)

/-- Byte-addressed memory. An address with no entry reads as 0. -/
abbrev Memory := List (Nat × BitVec 8)

/-! ## Cores (R163-R223) -/

/-- What is wrong with a fetched command apart from its words: nothing, an uncorrectable program memory
error (Table 17.5), or a program counter beyond 8,191 (R219). -/
inductive FetchFlaw where
  | sound | poisoned | pastEnd
deriving DecidableEq, Repr

/-- A command in a stream's queue (R171). -/
structure QEntry where
  cmd  : Cmd
  pc   : BitVec 13
  flaw : FetchFlaw
deriving DecidableEq, Repr

/-- One level of a stream's loops (R205): the body's first command index and length, the latched count,
the iteration index and exit_on_fault. -/
structure LoopLevel where
  first : Nat
  len   : Nat
  count : Word
  iter  : Word
  exitOnFault : Bool
deriving DecidableEq, Repr

/-- A command that has issued and has not completed (R165, R173). `ended` says its work is done and
`status`, `tile` and `flags` are final; `parts` counts its statistics partials not yet taken by Gauger
(R142); `ncw` is the numeric control word in force when it issued (R49). -/
structure Running where
  cmd    : Cmd
  pc     : BitVec 13
  seq    : Word
  ended  : Bool
  status : BitVec 8
  tile   : Word
  flags  : BitVec 5
  parts  : Nat
  ncw    : BitVec 16
deriving DecidableEq, Repr

/-- One stream of a context (R164, R169, R171, R217, R221). -/
structure StreamState where
  /-- next command index to fetch; 8,192 once it would pass the bank's end -/
  pc       : Nat
  queue    : List QEntry
  /-- innermost first -/
  loops    : List LoopLevel
  /-- commands retired since the context started -/
  count    : Word
  ended    : Bool
  switchTo : Option (BitVec 13)
  cur      : Option Running
  /-- a pre-empted matrix command to reissue, its start tile already moved (R100, R170) -/
  reissue  : Option Running
deriving DecidableEq, Repr

/-- Free, running, or halted (R169). -/
inductive RunState where
  | free | running | halted
deriving DecidableEq, Repr

/-- Why and how a context is halted: reason 0 stop-after-N, 1 illegal command (Table 7.16), 2
pre-emption; `unit` is the stop unit; `dumped` whether the dump has been written (R223). -/
structure HaltInfo where
  reason : Nat
  unit   : Option (Fin 16)
  stream : Stream
  n      : Word
  dumped : Bool
deriving DecidableEq, Repr

/-- A hardware thread context (R164). -/
structure Context where
  run     : RunState
  halt    : Option HaltInfo
  /-- a pre-emption in progress: the packet's id and whether its action is end (R170) -/
  preempt : Option (Nat × Bool)
  bank    : Bool
  preds   : BitVec 16
  ncw     : BitVec 16
  sregs   : Sparse DWord
  params  : Sparse DWord
  scalar  : StreamState
  vector  : StreamState
  matrix  : StreamState
  move    : StreamState
  /-- the LAUNCH that started it -/
  grid    : Option Nat
deriving DecidableEq, Repr

/-- The scale a drained row or column takes: its FP32 bits and whether its entry was poisoned. -/
structure ScaleRead where
  bits   : Word
  poison : Bool
deriving DecidableEq, Repr

/-- The tile in progress on the array (R72-R84): which preload row comes next, which chunk the cells
hold, how many passes have issued, the accumulators, the fed rows, the scales read at the final pass's
issue (R91), and the cycle of the last pass's first issue and of the last preload write. -/
structure TileRun where
  index     : Nat
  preloadAt : Nat
  loaded    : Option Nat
  loadDone  : Nat
  passes    : Nat
  acc       : Sparse Int
  rows      : List Nat
  rowScales : Sparse ScaleRead
  colScales : Sparse ScaleRead
  scaled    : Bool
  issueAt   : Nat
  preloadAtCycle : Nat
  /-- the status of the fault detected first, and the cycle of its detection (R103) -/
  fault     : Option (BitVec 8)
  faultAt   : Nat
  /-- the commit point, once its last pass has issued -/
  commitAt  : Nat
deriving DecidableEq, Repr

/-- A committed tile whose rows are being drained (R81). -/
structure DrainRun where
  index     : Nat
  start     : Nat
  interval  : Nat
  rows      : List Nat
  done      : List Nat
  acc       : Sparse Int
  rowScales : Sparse ScaleRead
  colScales : Sparse ScaleRead
  /-- elements whose accumulator had an uncorrectable error: row times 144 plus column, and the bits written
  (R104) -/
  odd       : Sparse Nat
deriving DecidableEq, Repr

/-- A first-exception record (Table 7.14), before it is written. -/
structure FirstExc where
  seq   : Word
  tile  : Word
  index : Nat
  lane  : Nat
  cause : Nat
deriving DecidableEq, Repr

/-- The matrix command on the array (R71-R74, R209, R210). -/
structure ArrayCmd where
  thread   : Thread
  cmd      : Cmd
  combine  : Bool
  serving  : Bool
  seq      : Word
  e0       : Nat
  outHandle : Handle
  /-- the output tensor's descriptor as read at issue: its innermost maximum extent, its bytes (R230) -/
  outBytes : List Byte
  /-- the first-pass flag of each tensor its scaled tiles name, and the base of the output's scale tensor, as read at issue
  (R230) -/
  firstPass : Sparse Bool
  scales   : Nat
  first    : Nat
  stop     : Nat
  next     : Nat
  cur      : Option TileRun
  /-- tiles whose last pass has issued and whose commit point is to come, oldest first -/
  waiting  : List TileRun
  drains   : List DrainRun
  visible  : Nat
  fault    : Option (BitVec 8 × Nat)
  flags    : BitVec 5
  exc      : Option FirstExc
deriving DecidableEq, Repr

/-- The array of a core: the command on it, the stationary registers' operand values by
row times 144 plus column, and the ACLK cycles that R77, R81 and R83 refer to. -/
structure ArrayState where
  cmd          : Option ArrayCmd
  stationary   : Sparse Int
  /-- the cycle after the last A-row issue of the last pass -/
  freeAt       : Nat
  /-- the last drain-out read so far -/
  lastRead     : Nat
  /-- for each row, the cycle at which an earlier tile's drain-out reads it -/
  rowReadAt    : Sparse Nat
  /-- the column tile and chunk the stationary registers hold, within the command -/
  held         : Option (Nat × Nat)
deriving DecidableEq, Repr

/-- A core (R163, R168, R175, R219). -/
structure Core where
  allotment    : Nat
  contexts     : Sparse Context
  /-- the stream number (context times 4 plus stream) the control core served last (R171) -/
  fetched      : Nat
  /-- the context each engine issued last, scalar, vector, matrix, move (R173) -/
  issuedScalar : Nat
  issuedVector : Nat
  issuedMatrix : Nat
  issuedMove   : Nat
  scratch      : Memory
  scratchPoison : Sparse Bool
  program      : Sparse Cmd
  /-- commands written from a poisoned line (R482, Table 17.5) -/
  programPoison : Sparse Bool
  array        : ArrayState
deriving DecidableEq, Repr

/-! ## Sync objects (R183-R192) -/

/-- A sync operation that has reached its home unit and waits its turn (R187). -/
inductive SyncKind where
  | signal (d : DWord)
  | fetchAdd (d : DWord)
  | reset (x : DWord)
  | wait (t : DWord)
deriving DecidableEq, Repr

/-- Who issued it: a stream, which the operation then completes, or another agent; and the source in
whose ring a saturation is logged (R185). -/
structure SyncOp where
  obj    : SyncObj
  kind   : SyncKind
  thread : Option (Thread × Stream)
  source : BitVec 16
deriving DecidableEq, Repr

/-- A registered WAIT (R188); `logged` once SYNC_WAIT_LONG was (R191). -/
structure SyncWait where
  obj       : SyncObj
  thread    : Thread
  stream    : Stream
  threshold : DWord
  logged    : Bool
deriving DecidableEq, Repr

/-! ## Memory (R232-R238, R482) -/

/-- A page's target (Table 8.5). -/
inductive PageTarget where
  | hbm | reserve | host
deriving DecidableEq, Repr

/-- A page table entry (Table 8.5); `frame` is the physical address or host address divided by 2 MiB. -/
structure PageEntry where
  valid     : Bool
  writable  : Bool
  target    : PageTarget
  port      : RPort
  foreign   : Bool
  migrating : Bool
  frame     : Nat
deriving DecidableEq, Repr

/-- A request that waits for its turn at a line. With `line` some, its physical HBM line: the requests of one line
wait in the order they reached the snoop filter (R380, R381). With `line` none: a write that waits for its page's
migration to end (R237). `cells` gives offsets within the line and their bytes; of a byte named in `mask` only the mask's
bits are written (R239). `owner` is the command whose write it is, `port` the port whose posted message it is (R375).
A cached read of a host waits as `claim`, its port and tag and whether it is RD_OWN, and writes nothing. -/
structure HeldWrite where
  part   : Part
  va     : Nat
  cells  : List (Nat × Byte)
  mask   : List (Nat × Byte)
  poison : Bool
  line   : Option Nat
  owner  : Option (Thread × Stream)
  port   : Option RPort
  claim  : Option (RPort × BitVec 12 × Bool)
deriving DecidableEq, Repr

/-- A snoop filter entry's state for one port (R378, R379). -/
inductive CacheState where
  | invalid | shared | owned
deriving DecidableEq, Repr

/-- A snoop filter entry (R379): the line's states on the die's two ports, its device virtual address
as each port named it, and the entry's age. -/
structure FilterEntry where
  low  : CacheState
  high : CacheState
  lowVa  : Nat
  highVa : Nat
  age  : Nat
deriving DecidableEq, Repr

/-- An unanswered snoop (R381, R382): the port, the physical line, its address on that port, the tag,
whether it is SNP_INV, whether a WB has already brought the data (R381), whether it has been sent or still waits for one
of the port's 4,096 tags (R371). -/
structure Snoop where
  port : RPort
  line : Nat
  va   : Nat
  tag  : BitVec 12
  inv  : Bool
  wbTaken : Bool
  sent : Bool
deriving DecidableEq, Repr

/-! ## Ratil Coherent Link ports (R361-R390) -/

/-- Port states, in the order of RCL_PORT_STATUS (Table 18.14). -/
inductive RclState where
  | detect | param | train | active | retrain | isolated | dark
deriving DecidableEq, Repr

/-- Where the data of a device read of host memory lands. -/
inductive ReadLanding where
  | buffer
  | page (p : Part) (page : Nat) (line : Nat)
deriving DecidableEq, Repr

/-- An outstanding device read (R371). -/
structure HostRead where
  tag     : BitVec 12
  addr    : Nat
  landing : ReadLanding
deriving DecidableEq, Repr

/-- A line received from host memory and not yet consumed. -/
structure HostLine where
  addr   : Nat
  bytes  : List Byte
  poison : Bool
deriving DecidableEq, Repr

/-- A flit that the device sent in ACTIVE (Tables 13.3 and 13.4): its header and its valid units, of 16 bytes each. -/
structure Flit where
  head  : FlitHeader
  units : List (List Byte)
deriving DecidableEq, Repr

/-- What a port transmits outside payload and idle flits (Table 13.2, R364): the training pattern on some lanes, its
parameters, an ISOLATE control flit. -/
inductive RclControl where
  | pattern (lanes : BitVec 16)
  | params (good : BitVec 16) (rate : Fin 3) (version : BitVec 8) (peer : DWord) (features : BitVec 4)
  | isolate
deriving DecidableEq, Repr

/-- A message waiting on a link port, and whether it is migration traffic (R411). -/
structure RclOut where
  msg : RclMsg
  mig : Bool
deriving DecidableEq, Repr

/-- A Ratil Coherent Link port. -/
structure RclPort where
  state      : RclState
  mode       : Option (Fin 9)
  lanesUsed  : BitVec 16
  features   : BitVec 4
  laneFailed : BitVec 16
  peer       : DWord
  peerMask   : BitVec 16
  peerRate   : Fin 3
  /-- received requests in arrival order, and received responses -/
  reqs       : List RclMsg
  rsps       : List RclMsg
  /-- messages to be sent that wait for credit, and those sent -/
  waiting    : List RclOut
  /-- the cell of a frame of sixteen that goes next (R411) -/
  shareCell  : Nat
  /-- unacknowledged payload flits: sequence number and message -/
  replay     : List (BitVec 12 × RclMsg)
  /-- flits sent in ACTIVE, newest last -/
  sent       : List Flit
  /-- units of a received message that is not whole yet (R368) -/
  rxUnits    : List (List Byte)
  /-- control traffic sent since, newest last: ISOLATE, parameter and pattern transmissions -/
  control    : List RclControl
  resends    : Nat
  nextSeq    : BitVec 12
  expectSeq  : BitVec 12
  sendNak    : Bool
  /-- credits held, in units, for REQ, RSP, SNP and EVT, and the last cumulative counts seen -/
  avail      : List Nat
  seen       : List Nat
  /-- cumulative units returned to the peer for REQ and RSP -/
  freed      : List Nat
  /-- host requests whose answer is owed, by tag -/
  hostTags   : List (BitVec 12)
  reads      : List HostRead
  hostBuf    : List HostLine
  nextTag    : BitVec 12
  drops      : List Nat
  violations : List Nat
  /-- leaving ACTIVE and not yet back -/
  away       : Bool
  /-- a parameter flit of the peer has been taken -/
  known      : Bool
  /-- a failed attempt waits in DETECT -/
  backoff    : Bool
  /-- when DETECT was entered -/
  detectAt   : Nat
  /-- event sources whose holdoff interval runs, and those with an EVENT owed -/
  holdoff    : List Nat
  owed       : List Nat
deriving DecidableEq, Repr

/-! ## Fabric ports (R310-R335) -/

/-- Port states, in the order of FAB_PORT_STATUS (Table 18.12). -/
inductive FabState where
  | detect | boot | train | hello | up | limited | retrain | isolated | dark
deriving DecidableEq, Repr

/-- A cell waiting on a fabric port: the partition it belongs to, 4 for none, and for a cell of a collective chunk its
round's place in the order of R340. -/
structure OutCell where
  cell  : Cell
  owner : Nat
  order : Nat
deriving DecidableEq, Repr

/-- A put being received (R329). -/
structure RxPut where
  tag     : BitVec 16
  window  : Nat
  offset  : Nat
  length  : Nat
  written : Nat
  status  : Nat
  done    : Bool
deriving DecidableEq, Repr

/-- A put or get this module initiated (R331). -/
structure TxMessage where
  tag     : BitVec 16
  isGet   : Bool
  packet  : Nat
  part    : Part
  va      : Nat
  length  : Nat
  landed  : Nat
deriving DecidableEq, Repr

/-- A fabric port. -/
structure FabPort where
  state      : FabState
  mode       : Option (Fin 9)
  lanesUsed  : BitVec 4
  laneFailed : BitVec 4
  bootLane   : Nat
  peerMask   : BitVec 4
  peerRate   : Fin 3
  nbrId      : DWord
  nbrRank    : Word
  nbrPort    : BitVec 8
  nbrDomain  : Word
  seenPeer   : Bool
  known      : Bool
  /-- credits held for VC0-VC6 as cumulative counts granted and used -/
  granted    : List Nat
  used       : List Nat
  /-- cumulative credits returned to the peer for VC0-VC6, modulo 2^16 as the two above -/
  returned   : List Nat
  /-- cells waiting for credit or replay room, in order -/
  waiting    : List OutCell
  replay     : List Cell
  nextSeq    : BitVec 12
  expectSeq  : BitVec 12
  sendNak    : Bool
  gap        : Bool
  resends    : Nat
  /-- accepted cells not yet consumed, in arrival order -/
  rx         : List Cell
  /-- link-maintenance cells sent (types), newest last -/
  link       : List Cell
  rxPuts     : List RxPut
  txMessages : List TxMessage
  /-- times of the violations and of the uncorrectable codewords of the last millisecond -/
  violations : List Nat
  uncorr     : List Nat
  nextTag    : BitVec 16
  /-- leaving UP or LIMITED and not yet back -/
  away       : Bool
  /-- a failed attempt waits in DETECT -/
  backoff    : Bool
  /-- when DETECT was entered -/
  detectAt   : Nat
  /-- the channels served last: of VC1, VC5, VC6; of the weighted ones, with the turns it has left -/
  turnHigh   : Nat
  turnLow    : Nat
  turnLeft   : Nat
  /-- for each channel the partition whose cell went last, and the turns it has left (R411) -/
  shareTurn  : List Nat
  shareLeft  : List Nat
  /-- mirror messages being received, by tag, and whether each has had no violation (R332) -/
  rxMirror   : List (BitVec 16 × Bool)
  /-- the bootstrap patterns sent, as the lanes of each, oldest first (Table 11.2) -/
  patterns   : List (BitVec 4)
deriving DecidableEq, Repr

/-- A registered window (R328). -/
structure Window where
  part  : Part
  base  : Nat
  size  : Nat
  read  : Bool
  write : Bool
  rank  : Word
  ports : BitVec 32
  obj   : Option SyncObj
  /-- the WINDOW_REGISTER packet that waits to remove it -/
  leaving : Option Nat
deriving DecidableEq, Repr

/-! ## Statistics and steering (R133-R162) -/

/-- A statistics partial on its way to Gauger (R140): the record, the counts it adds, the sampled bins,
the amax merges for scale entries (R118), the thread whose command waits for it. -/
structure Partial where
  part    : Part
  record  : Nat
  handle  : Handle
  count   : Nat
  zeros   : Nat
  sats    : Nat
  nonfin  : Nat
  nulls   : Nat
  amax    : Word
  /-- squares of the finite values, as numerator and power of two, one per element -/
  squares : List (Nat × Int)
  /-- element index and floor(log2) of each finite nonzero value -/
  samples : List (Nat × Int)
  chans   : List (Nat × Word)
  /-- base of the scale tensor, and whether the descriptor carried first_pass when it was read -/
  scales  : Nat
  firstPass : Bool
  owner   : Option (Thread × Stream)
deriving DecidableEq, Repr

/-- A role's steering state in a group (Table 5.11): its width code and its runs. -/
structure RoleState where
  code  : Nat
  up    : Nat
  down  : Nat
  atMax : Bool
deriving DecidableEq, Repr

/-- A group's steering state. -/
structure GroupState where
  a        : RoleState
  w        : RoleState
  g        : RoleState
  promoted : Bool
deriving DecidableEq, Repr

/-- A reduced summary on its way to Assize: its bytes (Tables 5.3 and 5.4), whether it is suspect, whether an
agreement round brought it. -/
structure Summary where
  bytes     : List Byte
  suspect   : Bool
  agreement : Bool
  /-- the key step of its round -/
  step      : Nat
deriving DecidableEq, Repr

/-- A watch table entry as read at the snapshot (R149): whether it could be read, and its record's address, 0
for none. -/
structure WatchEntry where
  readable : Bool
  handle   : Nat
  group    : Nat
  role     : Nat
  record   : Nat
deriving DecidableEq, Repr

/-- Assize and the step-end state of one partition (R141-R161). -/
structure Assize where
  groups      : Sparse GroupState
  /-- groups configured at the last snapshot -/
  groupCount  : Nat
  /-- each group's configuration entry as last read, and the entries the last snapshot could not read -/
  config      : Sparse Nat
  unread      : List Nat
  watch       : List WatchEntry
  /-- ASZ_THRESH, ASZ_UFLOW and ASZ_RUN for A, W, G, then ASZ_SILENT and ASZ_COLD_STEPS, as last read -/
  params      : List Nat
  /-- silent runs by 65,536 times the group plus handle -/
  silentRuns  : Sparse Nat
  /-- width words by slot times 4,096 plus group -/
  words       : Sparse (BitVec 16)
  cold        : Bool
  coldLeft    : Nat
  /-- the record that the restore bit has read, the runs kept beside it after it -/
  restored    : Option (List Byte)
  /-- the record and the runs as they were at the last snapshot (R157) -/
  saved       : Option (List Byte × List Byte)
  everRestored : Bool
  /-- publishing cold words until the first reduced header (R159) -/
  awaiting    : Bool
  invalid     : Bool
  /-- groups whose promotion ends at the next snapshot (R156) -/
  clears      : List Nat
  /-- the step whose summary is not yet applied (R143) -/
  openStep    : Option Nat
  /-- reduced summaries not yet acted on, oldest first; that of a step whose STEP_END is still to come stays -/
  arrived     : List Summary
  /-- the slot whose final words are still to be written, and the handles whose first-pass flag is to be set or
  cleared before -/
  deciding    : Option Nat
  promote     : List Nat
  demote      : List Nat
  /-- WORD_COPY_DROPPED is not logged again before ASZ_WORD_BASE is written (R154) -/
  copyLogged  : Bool
  /-- addresses of the held records (R142) -/
  held        : Sparse Bool
deriving DecidableEq, Repr

/-! ## Host packets (R396-R414) -/

/-- A die-cache tile of an explicitly tiled grid (R249): its die, its ranges over M, N and K, and the scratch tiles of
it not yet complete, in order, each with its core and ranges. -/
structure NestTile where
  die   : Nat
  box   : List (Nat × Nat)
  steps : List (Nat × List (Nat × Nat))
deriving DecidableEq, Repr

/-- An interpreted packet whose final reply is not written. -/
structure Packet where
  id       : Nat
  ring     : Ring
  bytes    : List Byte
  /-- its work has started -/
  started  : Bool
  /-- its work has ended -/
  ended    : Bool
  /-- its final status, once known, with the reply's fields -/
  status   : Option (BitVec 8)
  detail   : Nat
  detail2  : Nat
  value    : Nat
  resource : Nat
  bucket   : Nat
  borrowed : Bool
  /-- queued for an admission unit, since this tick -/
  queuedAt : Option Nat
  delayed  : Bool
  bound    : Nat
  body     : Option (List Byte)
  /-- which 64-byte units of the body are poisoned -/
  bodyPoison : List Bool
  /-- LAUNCH: threads started, threads started and not yet done, the grid's dies in order, the cores whose
  program is loaded, the image and parameter block as read -/
  placed   : Nat
  alive    : Nat
  dies     : List Nat
  loaded   : List Nat
  code     : List (Byte × Bool)
  pblock   : List Byte
  /-- PREEMPT: threads still to halt -/
  pending  : List Nat
  /-- the body of its result has been written (R409) -/
  bodyOut  : Bool
  /-- LAUNCH: Surveyor has recorded it and acted on its layer and operands (R257) -/
  seen     : Bool
  /-- LAUNCH with explicit tiling: the die-cache tiles still to finish, in order (R249) -/
  nest     : List NestTile
  /-- its place in the order in which the device queued requests (R277) -/
  stamp    : Nat
deriving DecidableEq, Repr

/-- An admission unit held (R412): the packet it serves, the resource's key, whether it is a pool unit, and
the bytes in flight on it. -/
structure AdmUnit where
  packet : Nat
  key    : Nat
  pool   : Bool
  bytes  : Nat
deriving DecidableEq, Repr

/-- Offload states (Table 9.3). -/
inductive OffState where
  | resident | offloading | host | prefetching
deriving DecidableEq, Repr

/-- What Surveyor keeps for an allocated tensor. -/
structure Tensor where
  firstPage : Nat
  pages     : Nat
  bytes     : Nat
  base      : Nat
  record    : Nat
  tier      : Nat
  stripe    : List Nat
  offset    : Nat
  off       : OffState
  armed     : Bool
  /-- freed while migrating (R267) -/
  leaving   : Bool
deriving DecidableEq, Repr

/-- A page on its way between HBM and a host arena (R237, R266). -/
structure Migration where
  handle   : Nat
  page     : Nat
  toHost   : Bool
  started  : Bool
  newFrame : Nat
  newPort  : RPort
  newTarget : PageTarget
  oldFrame : Nat
  oldTarget : PageTarget
  oldPort  : RPort
  /-- lines still to read from the host, and lines read but not landed -/
  toRead   : Nat
  inFlight : Nat
deriving DecidableEq, Repr

/-- An offload or a prefetch decided (R252, R253): the tensor, which of the two, the packet's sequence
number, and whether its last page has moved; then what its completion's log entry says of the pages. -/
structure Decision where
  handle   : Nat
  prefetch : Bool
  seq      : Nat
  done     : Bool
  place    : Nat
  pages    : Nat
  base     : Nat
deriving DecidableEq, Repr

/-- A sequence slot as Surveyor keeps it (R268). -/
structure Slot where
  pool      : Nat
  layers    : Nat
  perPage   : Nat
  ahead     : Nat
  obj       : SyncObj
  /-- blocks mapped, and blocks wanted -/
  blocks    : Nat
  wanted    : Nat
  /-- page table address -/
  table     : Nat
  fullLogged : Bool
deriving DecidableEq, Repr

/-- A LAUNCH as the offload triggers see it (R257, R264); `past` says that FORWARD has been entered anew since. -/
structure LaunchSeen where
  id    : Nat
  seq   : Nat
  layer : Nat
  tag   : Nat
  past  : Bool
deriving DecidableEq, Repr

/-! ## The Update Die (R278-R309) -/

/-- A parameter table entry copied into SRAM (Table 10.3) as its 64 bytes, with its norm partial and the frozen
granules of its snapshot once pass one has read it (R289, R297). -/
structure UpdEntry where
  index    : Nat
  raw      : List Byte
  norm     : Option Word
  frozen   : List Nat
deriving DecidableEq, Repr

/-- An UPDATE_STEP under way or waiting its turn (R286-R301). -/
structure UpdJob where
  packet   : Nat
  rewrite  : Bool
  /-- the step for stochastic rounding, and the step of the STEP_END it is bound to (R288) -/
  step     : Nat
  boundStep : Nat
  entries  : List UpdEntry
  /-- S, once it is the reduced one; the norm round's marks -/
  norm     : Option Word
  normSuspect : Bool
  normPoison  : Bool
  /-- why the rule is skipped: cause and bucket (R291) -/
  skip     : Option (Nat × Nat)
  passTwo  : Bool
  /-- entries whose outputs are written, and those released (R295) -/
  written  : Nat
  released : Nat
  saturated : Bool
  /-- the entry and granule whose state was poisoned (R300) -/
  poison   : Option (Nat × Nat)
deriving DecidableEq, Repr

/-- The CHECKPOINT in progress (R305): stage 0 awaits the first header's acknowledgement, 1 sends granules, 2
awaits the last header's. `todo` lists granules and pieces of the saved record still to send, `flying` those
sent and not acknowledged with the region offset their acknowledgement will carry. -/
structure CkptJob where
  packet   : Nat
  port     : FPort
  number   : Nat
  stage    : Nat
  todo     : List Nat
  flying   : List (Nat × Nat)
  sent     : Nat
  acked    : Nat
deriving DecidableEq, Repr

/-- The RESTORE in progress (R308): the slot headers as they come, then the chosen header and the bytes of its
slot received. -/
structure RestoreJob where
  packet : Nat
  port   : FPort
  head0  : Option (List Byte)
  head1  : Option (List Byte)
  chosen : Option (List Byte)
  got    : Nat
deriving DecidableEq, Repr

/-- The Update Die's state for one partition. -/
structure Update where
  jobs     : List UpdJob
  ckpt     : Option CkptJob
  restore  : Option RestoreJob
  /-- granules that are clean for slot 0 and slot 1 (R304), by entry times 2^36 plus granule -/
  clean0   : Sparse Bool
  clean1   : Sparse Bool
  /-- the step of the last STEP_END interpreted and not yet bound (R288) -/
  stepEnd  : Option Nat
deriving DecidableEq, Repr

/-! ## Collectives (R336-R360) -/

/-- A declared bucket (Tables 12.1 and 12.2), as validated, with what its last round left. -/
structure Bucket where
  /-- 0 gradient, 1 statistics, 2 norm -/
  kind     : Nat
  wireBf16 : Bool
  srcBf16  : Bool
  size     : Nat
  src      : Handle
  dst      : Handle
  ranks    : List Nat
  position : Nat
  readyCount : Nat
  readyObj : SyncObj
  doneObj  : SyncObj
  groupTag : BitVec 16
  engine   : Iod
  credits  : Nat
  s0       : Nat
  rounds   : Nat
  lastStep : Option Nat
  flags    : Nat
  /-- chunk of the last REDUCE_MISMATCH, 0xFFFF for none -/
  mismatch : Nat
deriving DecidableEq, Repr

/-- Round states (Table 12.4). -/
inductive RoundState where
  | pending | active | reducing | draining
deriving DecidableEq, Repr

/-- What a round combines: one FP32 element (4 bytes) or one 64-byte unit of the statistics bucket, with its
poison. -/
abbrev Item := List Byte × Bool

/-- A chunk as its cells arrive: the bytes, the poison of each cell, and whether the last cell has come. -/
structure Chunk where
  bytes  : List Byte
  marks  : List Bool
  whole  : Bool
deriving DecidableEq, Repr

/-- A round on this member, on its primary and its mirror engine. -/
structure Round where
  bucket   : Nat
  /-- 0 agreement, 1 gradient, 2 statistics, 3 norm: its place within the step (R340) -/
  cls      : Nat
  step     : Nat
  state    : RoundState
  /-- ready locally: a statistics, agreement or norm round whose source has been formed -/
  ready    : Bool
  size     : Nat
  engine   : Iod
  position : Nat
  /-- parent, left, right, mirror parent, mirror left, mirror right, as resolved at activation -/
  ports    : List (Option FPort)
  stride   : Nat
  source   : List Item
  /-- chunks received: from the left and right child, primary then mirror, and from the parent -/
  upLeft   : Sparse Chunk
  upRight  : Sparse Chunk
  mupLeft  : Sparse Chunk
  mupRight : Sparse Chunk
  down     : Sparse Chunk
  /-- chunks combined and sent up (or formed), checked chunks done by the mirror engine, result chunks
  written -/
  nextUp   : Nat
  nextMirror : Nat
  gotDown  : Nat
  /-- cumulative credits from the parent, primary and mirror -/
  creditUp : Nat
  mcreditUp : Nat
  /-- at the root: accumulators kept for comparison, primary and mirror, and the chunks compared or
  skipped -/
  kept     : Sparse (List Item)
  mkept    : Sparse (List Item)
  compared : List Nat
  /-- result chunks in wire format, for a round whose result goes to no tensor -/
  result   : Sparse Chunk
  /-- RESULT_END has come -/
  ended    : Bool
  flags    : Nat
  mismatch : Nat
deriving DecidableEq, Repr

/-- The last round done of a bucket no longer declared as it was (R359): its id, its group tag and the key step. -/
structure DoneKey where
  bucket : Nat
  tag    : BitVec 16
  step   : Nat
deriving DecidableEq, Repr

/-- A CREDIT for a round not yet activated (R345): bucket, group tag, step, whether the mirror engine's, the count, the
sender's position. -/
structure EarlyCredit where
  bucket : Nat
  tag    : BitVec 16
  step   : Nat
  mirror : Bool
  count  : Nat
  sender : Nat
deriving DecidableEq, Repr

/-- A partition (R391-R395) with its tables and engines. -/
structure Partition where
  /-- 0 STOPPED, 1 RUNNING, 2 RESETTING, 3 not valid -/
  state     : Nat
  phase     : Nat
  drainPhase : Option (Nat × Nat)
  packets   : List Packet
  nextId    : Nat
  lastRing  : Nat
  /-- ids of packets that have ended, in completion order, whose reply is owed -/
  finished  : List Nat
  pageTable : Sparse PageEntry
  tensors   : Sparse Tensor
  /-- pages that hold small allocations, with their stack (8 for the Reserve), and those allocations by
  address and length -/
  smallPages : List (Nat × Nat)
  chunks    : List (Nat × Nat)
  migrations : List Migration
  retired   : List (Nat × PageTarget × Nat × Nat)
  launches  : List LaunchSeen
  slots     : Sparse Slot
  poolRefs  : Sparse Nat
  growSignals : Nat
  /-- the key/value pools whose growth found no free page, logged once each (R272) -/
  poolDry   : List Nat
  logSeq    : Nat
  /-- offloads and prefetches whose completion is still to be logged, in the order of their starts -/
  decided   : List Decision
  resultGens : Sparse Nat
  assize    : Assize
  update    : Update
  buckets   : Sparse Bucket
  rounds    : List Round
  /-- the last rounds done of buckets since undeclared or declared anew (R359) -/
  doneKeys  : List DoneKey
  capDepth  : Nat
  /-- admission queue: packet ids waiting on a resource, by resource code -/
  queues    : List (Nat × Nat)
  units     : List AdmUnit
deriving DecidableEq, Repr

/-! ## Dies: Gauger, governor, clocks (R415-R441) -/

/-- A compute die's Gauger and governor. -/
structure DieState where
  /-- partials that have reached Gauger and are not applied, in arrival order -/
  arrivals  : List Partial
  /-- held queue (R142) -/
  held      : List Partial
  prefDepth : Nat
  railDepth : Nat
  thermDepth : Nat
  /-- operating point of the PLL and of the settled voltage; the point the rails slew to -/
  op        : Nat
  volts     : Nat
  slewTo    : Option Nat
  pllTo     : Option Nat
  /-- 1 µs windows since the last rise of L_d and consecutive windows below the hysteresis level -/
  sinceRise : Nat
  quiet     : Nat
  sinceLog  : Nat
  mismatch  : Bool
  differ    : Nat
  agree     : Nat
  sensorFailed : BitVec 8
  /-- the highest reading, whether one of the window was at or above 95 °C, and the windows below it (R435) -/
  reading   : Int
  hot       : Bool
  cool      : Nat
deriving DecidableEq, Repr

/-! ## Power and boot (R442-R469) -/

/-- Power and reset: pins, the rail sequence, the input. -/
structure Power where
  pwrEn     : Bool
  /-- rails up, in the order of Table 16.1 -/
  railsUp   : Nat
  vaux      : Bool
  pwrGood   : Bool
  resetLow  : Bool
  /-- a sequence has failed or power was lost; PWR_EN must fall first -/
  failed    : Bool
  trip      : Bool
  brdRefclk : Bool
  fabRefclk : List Bool
  /-- input power samples of the last millisecond, oldest first -/
  samples   : List Nat
  quietCaps : Nat
  unreachable : Bool
  railOverLogged : Sparse Nat
  /-- ticks of the board reference from PWR_GOOD to the last warm reset -/
  before    : Nat
deriving DecidableEq, Repr

/-- Where the boot flow stands (R456). -/
inductive BootStage where
  | off | romReady | romWait | bootCode | configured | locked | firmware | recovery | recoveryFw
deriving DecidableEq, Repr

/-- A flash request in progress (R512). -/
structure FlashReq where
  op     : Nat
  offset : Nat
  length : Nat
  refused : Bool
deriving DecidableEq, Repr

/-- Boot and security. -/
structure Boot where
  stage    : BootStage
  keys     : Bool
  source   : Nat
  /-- BOOT_SEL as the ROM sampled it, 0 normal or 1 recovery -/
  bootSel  : Nat
  bootSelReserved : Bool
  recoveryForced  : Bool
  causeA   : Nat
  causeB   : Nat
  causeRec : Nat
  stageCode : Nat
  ready    : Bool
  locked   : Bool
  watchdog : Bool
  reserveFailed : Bool
  linkFailed : BitVec 2
  hbmFailed : BitVec 8
  training : List TrainPart
  bootSram : Memory
  flash    : Memory
  flashReq : Option FlashReq
  /-- manifests in use: first stage and firmware, and the image base -/
  manifest : List Byte
  fwManifest : List Byte
  imageBase : Nat
  /-- the components loaded, of the first stage and of the firmware: type, offset and bytes -/
  comps    : List (Nat × Nat × List Byte)
  fwComps  : List (Nat × Nat × List Byte)
  revoke   : BitVec 4
  svnFuses : BitVec 64
  attest   : List (Nat × List Byte × Nat)
  attestTurn : Nat
  attestReport : List Byte
  meas0    : List Byte
  meas1    : List Byte
  meas2    : List Byte
deriving DecidableEq, Repr

/-! ## Events and management (R470-R490) -/

/-- An event's entries waiting in a holding buffer (R474). -/
structure HeldEvent where
  seq   : Word
  stamp : DWord
  die   : Nat
  code  : BitVec 16
  data  : List Byte
deriving DecidableEq, Repr

/-- An event source beside its registers: the holding buffer, the corrected errors since its last ECC_CORRECTED with
the first one's address, and when that was logged (R481). -/
structure EvtSource where
  held : List HeldEvent
  eccCount : Nat
  eccFirst : Nat
  eccAt    : Option Nat
deriving DecidableEq, Repr

/-- The management port: the last response, the in-band interrupts raised, the failing rail. -/
structure Mgt where
  status    : BitVec 8
  response  : List Byte
  interrupts : Nat
  failingRail : Nat
  fatal     : Bool
  i3c       : Bool
  correctedEcc : Nat
  uncorrectedEcc : Nat
deriving DecidableEq, Repr

/-- The JTAG instruction in force (R490). -/
inductive JtagInstr where
  | bypass | idcode | samplePreload | extest | extestPulse | extestTrain
deriving DecidableEq, Repr

/-! ## The whole device -/

/-- The state of the device and the queue of waiting commands. -/
structure State where
  pending   : List Instr
  power     : Power
  boot      : Boot
  /-- MMIO registers that hold a written value, by byte offset in the MMIO range -/
  regs      : Sparse DWord
  parts     : Sparse Partition
  dies      : Sparse DieState
  cores     : Sparse Core
  sync      : Sparse DWord
  syncQueue : List SyncOp
  waits     : List SyncWait
  hbm       : Memory
  hbmPoison : Sparse Bool
  reserve   : Memory
  reservePoison : Sparse Bool
  usedHbm   : Sparse Bool
  usedReserve : Sparse Bool
  usedHost  : Sparse Bool
  filters   : Sparse FilterEntry
  filterClock : Nat
  snoops    : List Snoop
  heldWrites : List HeldWrite
  rcl       : Sparse RclPort
  fabric    : Sparse FabPort
  windows   : Sparse Window
  events    : Sparse EvtSource
  dieTime   : Sparse DWord
  mgt       : Mgt
  jtag      : JtagInstr
  windowReply : List Byte
  /-- CREDITs for rounds not yet activated, and for buckets not yet declared (R345) -/
  earlyCredits : List EarlyCredit
  /-- the partition last granted a pool unit, by resource key (R413) -/
  poolTurn  : Sparse Nat
  /-- the partition whose granules the Update Die served last, and the granules of its turn left (R411) -/
  updTurn   : Nat
  updLeft   : Nat
  /-- requests that the device has queued so far (R277) -/
  stamps    : Nat
  /-- lines printed on the UART, oldest first (R489) -/
  uart      : List (List Byte)
  /-- the model's own counter of free values, no state of the device -/
  freeCount : Nat
deriving DecidableEq, Repr

/-- Faults. -/
inductive Fault where
  /-- A step names a core number 80-127, which no die has (R22). Raised by the steps of a core. Safe. -/
  | noSuchCore
deriving DecidableEq, Repr

/-- Refusals. -/
inductive Refusal where
  /-- A command with no meaning yet; raised by the dispatch alone. Safe. -/
  | notModelled (mnemonic : String)
deriving DecidableEq, Repr

/-- The power state before PWR_EN rises: 48 V present, references running, nothing on. -/
def Power.off : Power where
  pwrEn := false
  railsUp := 0
  vaux := false
  pwrGood := false
  resetLow := false
  failed := false
  trip := false
  brdRefclk := true
  fabRefclk := [true, true]
  samples := []
  quietCaps := 0
  unreachable := false
  railOverLogged := []
  before := 0

/-- The boot state at a device reset: no image tried, nothing locked, nothing measured (Table 16.8). -/
def Boot.off : Boot where
  stage := .off
  keys := false
  source := 3
  bootSel := 0
  bootSelReserved := false
  recoveryForced := false
  causeA := 0
  causeB := 0
  causeRec := 0
  stageCode := 0
  ready := false
  locked := false
  watchdog := false
  reserveFailed := false
  linkFailed := 0
  hbmFailed := 0
  training := []
  bootSram := []
  flash := []
  flashReq := none
  manifest := []
  fwManifest := []
  imageBase := 0
  comps := []
  fwComps := []
  revoke := 0
  svnFuses := 0
  attest := []
  attestTurn := 4
  attestReport := []
  meas0 := List.replicate 64 0
  meas1 := List.replicate 64 0
  meas2 := List.replicate 64 0

/-- The management port at reset: no failing rail (Table 18.20), nothing answered yet. -/
def Mgt.off : Mgt where
  status := 0
  response := []
  interrupts := 0
  failingRail := 0x1F
  fatal := false
  i3c := true
  correctedEcc := 0
  uncorrectedEcc := 0

/-- The module right after device reset and before PWR_EN rises: every register at its reset value
(a register with no entry reads its reset value), every store empty, no command waiting. -/
def State.reset : State where
  pending := []
  power := Power.off
  boot := Boot.off
  regs := []
  parts := []
  dies := []
  cores := []
  sync := []
  syncQueue := []
  waits := []
  hbm := []
  hbmPoison := []
  reserve := []
  reservePoison := []
  usedHbm := []
  usedReserve := []
  usedHost := []
  filters := []
  filterClock := 0
  snoops := []
  heldWrites := []
  rcl := []
  fabric := []
  windows := []
  events := []
  dieTime := []
  mgt := Mgt.off
  jtag := .idcode
  windowReply := []
  poolTurn := []
  earlyCredits := []
  updTurn := 3
  updLeft := 0
  stamps := 0
  uart := []
  freeCount := 0

end Sys2Proof.Machine
end

