-- ==== Sys2Proof/Machine/Sparse.lean ====
section
/-! DEFINITION. Finite maps in canonical form (keys strictly rising, no entry equal to the default), and
the byte-order and list helpers the rest of the machine uses (R2, R3). -/

namespace Sys2Proof.Machine

/-- What key `k` reads as, in a map whose unlisted keys read `d`. -/
def Sparse.get {α : Type} (d : α) : Sparse α → Nat → α
  | [], _ => d
  | (j, v) :: r, k => if j = k then v else Sparse.get d r k

/-- Remove key `k`. -/
def Sparse.erase {α : Type} : Sparse α → Nat → Sparse α
  | [], _ => []
  | (j, v) :: r, k => if j = k then Sparse.erase r k else (j, v) :: Sparse.erase r k

/-- Put `(k, v)` in its place, over an entry of the same key. -/
def Sparse.put {α : Type} : Sparse α → Nat → α → Sparse α
  | [], k, v => [(k, v)]
  | (j, w) :: r, k, v =>
    if k < j then (k, v) :: (j, w) :: r
    else if j = k then (k, v) :: r
    else (j, w) :: Sparse.put r k v

/-- Set key `k` to `v`, in a map whose unlisted keys read `d`: setting the default removes the entry. -/
def Sparse.set {α : Type} [DecidableEq α] (d : α) (m : Sparse α) (k : Nat) (v : α) : Sparse α :=
  if v = d then Sparse.erase m k else Sparse.put m k v

/-- The entry at `k`, if one is listed. -/
def Sparse.find? {α : Type} : Sparse α → Nat → Option α
  | [], _ => none
  | (j, v) :: r, k => if j = k then some v else Sparse.find? r k

/-- Keys rise strictly, and each is at least `lo`. -/
def Sparse.rising {α : Type} : Sparse α → Nat → Bool
  | [], _ => true
  | (j, _) :: r, lo => decide (lo ≤ j) && Sparse.rising r (j + 1)

/-- The canonical form: keys strictly rising, no entry equal to the default `d k` of its key. -/
def Sparse.canonical {α : Type} [DecidableEq α] (d : Nat → α) (m : Sparse α) : Bool :=
  Sparse.rising m 0 && m.all (fun e => decide (e.2 ≠ d e.1))

/-- The keys listed. -/
def Sparse.keys {α : Type} (m : Sparse α) : List Nat := m.map Prod.fst

/-- The canonical form of a byte memory whose unlisted bytes read 0. -/
abbrev Memory.wf (m : Memory) : Bool := Sparse.canonical (fun _ => 0#8) m

/-- Read one byte. -/
abbrev Memory.read (m : Memory) (a : Nat) : Byte := Sparse.get 0 m a
/-- Write one byte. -/
abbrev Memory.write (m : Memory) (a : Nat) (b : Byte) : Memory := Sparse.set 0 m a b

/-- Read `n` bytes, lowest address first. -/
def Memory.readBytes (m : Memory) (a : Nat) : Nat → List Byte
  | 0 => []
  | n + 1 => Memory.read m a :: Memory.readBytes m (a + 1) n

/-- Write bytes, lowest address first. -/
def Memory.writeBytes (m : Memory) (a : Nat) : List Byte → Memory
  | [] => m
  | b :: bs => Memory.writeBytes (Memory.write m a b) (a + 1) bs

/-- The value of bytes in little-endian order (R3). -/
def leNat : List Byte → Nat
  | [] => 0
  | b :: bs => b.toNat + 256 * leNat bs

/-- The `n` low bytes of a value in little-endian order (R3). -/
def leBytes : Nat → Nat → List Byte
  | 0, _ => []
  | n + 1, v => BitVec.ofNat 8 v :: leBytes n (v / 256)

/-- Bits `hi:lo` of a value (R2). -/
def bitsOf (v hi lo : Nat) : Nat := v / 2 ^ lo % 2 ^ (hi + 1 - lo)

/-- Bit `i` of a value. -/
def bitOf (v i : Nat) : Bool := v / 2 ^ i % 2 = 1

/-- 1 for true, 0 for false. -/
def b2n (b : Bool) : Nat := if b then 1 else 0

/-- Bytes `lo ..< lo + n` of a list as a value; bytes beyond its end read 0. -/
def field (bs : List Byte) (lo n : Nat) : Nat := leNat ((bs.drop lo).take n)

/-- Replace the element at index `i`, if there is one. -/
def listSet {α : Type} (l : List α) (i : Nat) (v : α) : List α := l.set i v

/-- Overwrite `new` into `l` from index `lo` on; bytes beyond `l`'s end are dropped. -/
def splice (l : List Byte) (lo : Nat) (new : List Byte) : List Byte :=
  (l.take lo ++ new ++ l.drop (lo + new.length)).take l.length

/-- Quotient rounded up. -/
def ceilDiv (a b : Nat) : Nat := (a + b - 1) / b

/-- The numbers `0 ..< n`. -/
def upTo (n : Nat) : List Nat := List.range n

/-- A two's complement number of `w` bits read from a value. -/
def signed (w v : Nat) : Int := if v % 2 ^ w ≥ 2 ^ (w - 1) then (v % 2 ^ w : Int) - 2 ^ w else (v % 2 ^ w : Int)

/-- The `w`-bit two's complement code of an integer. -/
def unsigned (w : Nat) (v : Int) : Nat := (v % (2 ^ w : Int)).toNat

/-- The signed value of a counter difference: how far `b` lies ahead of `a`, modulo 2^32. -/
def ahead32 (a b : Nat) : Nat := (b + 2 ^ 32 - a % 2 ^ 32) % 2 ^ 32

/-- Do `f` for each item in order. -/
def forEach {α σ : Type} (l : List α) (s : σ) (f : σ → α → σ) : σ := l.foldl f s

/-- The first item that `p` accepts, and the list without it. -/
def takeFirst {α : Type} (p : α → Bool) : List α → Option (α × List α)
  | [] => none
  | x :: r =>
    if p x then some (x, r)
    else (takeFirst p r).map (fun y => (y.1, x :: y.2))

/-- Change the first item that `p` accepts. -/
def updateFirst {α : Type} (p : α → Bool) (f : α → α) : List α → List α
  | [] => []
  | x :: r => if p x then f x :: r else x :: updateFirst p f r

end Sys2Proof.Machine
end

