-- ==== Sys2Proof/Machine/Num.lean ====
section
/-! DEFINITION. Element formats, exact values, rounding and conversion (R31-R56): numbers are exact dyadic
values, every result is rounded once. -/

namespace Sys2Proof.Machine

/-- The size of a format's element in bits (Table 2.1); 0 for the reserved code. -/
def fmtBits (f : Nat) : Nat :=
  match f with
  | 0 | 1 => 4
  | 2 | 3 | 8 | 9 => 8
  | 4 | 5 => 12
  | 6 | 7 | 10 | 11 => 16
  | 12 | 14 => 32
  | 13 => 48
  | _ => 0

/-- FP32's code. -/
def fp32 : Nat := 12
/-- BF16's code. -/
def bf16 : Nat := 10
/-- F48's code. -/
def f48 : Nat := 13
/-- INT32's code. -/
def int32 : Nat := 14

/-- An integer format. -/
def fmtInt (f : Nat) : Bool := f < 8 || f = 14
/-- A floating format. -/
def fmtFloat (f : Nat) : Bool := 8 ≤ f && f < 14
/-- A signed integer format. -/
def fmtSigned (f : Nat) : Bool := f % 2 = 0
/-- An F8 format. -/
def fmtF8 (f : Nat) : Bool := f = 8 || f = 9

/-- Exponent bits, fraction bits (Table 2.4). -/
def fmtExp (f : Nat) : Nat := match f with | 8 => 4 | 9 => 5 | 11 => 5 | _ => 8
def fmtFrac (f : Nat) : Nat := match f with | 8 => 3 | 9 => 2 | 10 => 7 | 11 => 10 | 12 => 23 | _ => 39
/-- Exponent bias (Table 2.4). -/
def fmtBias (f : Nat) : Nat := 2 ^ (fmtExp f - 1) - 1
/-- The exponent of the smallest subnormal. -/
def fmtMin (f : Nat) : Int := 1 - (fmtBias f : Int) - (fmtFrac f : Int)
/-- The code of infinity, sign 0. -/
def fmtInf (f : Nat) : Nat := (2 ^ fmtExp f - 1) * 2 ^ fmtFrac f
/-- The canonical NaN (Table 2.4). -/
def fmtNan (f : Nat) : Nat := fmtInf f + 2 ^ (fmtFrac f - 1)
/-- The sign bit. -/
def fmtSign (f : Nat) : Nat := 2 ^ (fmtExp f + fmtFrac f)

/-- qmax or umax of an integer format (Table 2.3). -/
def fmtQmax (f : Nat) : Nat := if fmtSigned f then 2 ^ (fmtBits f - 1) - 1 else 2 ^ fmtBits f - 1
/-- The lower end of the quantiser range. -/
def fmtQmin (f : Nat) : Int := if fmtSigned f then -(fmtQmax f : Int) else 0
/-- The smallest stored value. -/
def fmtStoredMin (f : Nat) : Int := if fmtSigned f then -((2 : Int) ^ (fmtBits f - 1)) else 0

/-- A value: a NaN (signalling or quiet), an infinity, or ± m × 2^e. -/
inductive Val where
  | nan (signalling : Bool)
  | inf (neg : Bool)
  | fin (neg : Bool) (m : Nat) (e : Int)
deriving DecidableEq, Repr

/-- An integer as a value. -/
def Val.ofInt (v : Int) : Val := .fin (decide (v < 0)) v.natAbs 0
/-- Finite. -/
def Val.finite : Val → Bool
  | .fin _ _ _ => true
  | _ => false
/-- A zero of either sign. -/
def Val.isZero : Val → Bool
  | .fin _ m _ => decide (m = 0)
  | _ => false
/-- A signalling NaN. -/
def Val.sig : Val → Bool
  | .nan b => b
  | _ => false
/-- A value whose NaN, if it is one, is quiet. -/
def Val.quiet : Val → Val
  | .nan _ => .nan false
  | v => v
/-- A NaN. -/
def Val.isNan : Val → Bool
  | .nan _ => true
  | _ => false
/-- The sign. -/
def Val.neg : Val → Bool
  | .nan _ => false
  | .inf n => n
  | .fin n _ _ => n

/-- The value an element's bits stand for (R31, R38, R39). -/
def decodeVal (f bits : Nat) : Val :=
  if fmtInt f then
    if fmtSigned f then .ofInt (signed (fmtBits f) bits) else .ofInt (bits : Int)
  else
    let fr := fmtFrac f
    let frac := bits % 2 ^ fr
    let ex := bits / 2 ^ fr % 2 ^ fmtExp f
    let neg := decide (bits / fmtSign f % 2 = 1)
    if ex = 2 ^ fmtExp f - 1 then
      if frac = 0 then .inf neg else .nan (decide (frac / 2 ^ (fr - 1) = 0))
    else if ex = 0 then .fin neg frac (fmtMin f)
    else .fin neg (2 ^ fr + frac) (fmtMin f + ex - 1)

/-- Rounding: nearest with ties to even, nearest with ties away, toward zero, or stochastic with a 24-bit
random value (Table 2.8, R56). -/
inductive Rnd where
  | even | away | zero | stoch (r : Nat)
deriving DecidableEq, Repr

/-- Whether `lo + rem / 2^d` rounds up to `lo + 1`. -/
def Rnd.up (mode : Rnd) (lo rem d : Nat) : Bool :=
  match mode with
  | .even => decide (2 * rem > 2 ^ d ∨ (2 * rem = 2 ^ d ∧ lo % 2 = 1))
  | .away => decide (2 * rem ≥ 2 ^ d ∧ rem > 0)
  | .zero => false
  | .stoch r => decide (r < 2 ^ 24 * rem / 2 ^ d)

/-- Round `m × 2^e` to a multiple of `2^q`, as the number of multiples; whether it was exact. -/
def roundTo (mode : Rnd) (m : Nat) (e q : Int) : Nat × Bool :=
  if q ≤ e then (m * 2 ^ (e - q).toNat, true)
  else
    let d := (q - e).toNat
    let lo := m / 2 ^ d
    let rem := m % 2 ^ d
    (if mode.up lo rem d then lo + 1 else lo, decide (rem = 0))

/-- floor(log2 (m × 2^e)) for m > 0. -/
def exponentOf (m : Nat) (e : Int) : Int := (Nat.log2 m : Int) + e

/-- Exception flags in the order of the status word's bits 12 down to 8 (Table 7.13). -/
def flInvalid : BitVec 5 := 0x10
def flDivzero : BitVec 5 := 0x08
def flOverflow : BitVec 5 := 0x04
def flUnderflow : BitVec 5 := 0x02
def flInexact : BitVec 5 := 0x01

/-- A result element: its bits, its flags, whether it saturated, whether it counts as non-finite where
the conversion says so, and the first-exception cause of an INVALID (Table 7.14). -/
structure Elem where
  bits   : Nat
  flags  : BitVec 5 := 0
  sat    : Bool := false
  cause  : Option Nat := none
deriving DecidableEq, Repr

/-- Add flags to a result. -/
def Elem.plus (x : Elem) (fl : BitVec 5) : Elem := { x with flags := x.flags ||| fl }

/-- An invalid result: the destination's canonical NaN and the cause. -/
def invalid (f cause : Nat) : Elem := { bits := fmtNan f, flags := flInvalid, cause := some cause }

/-- Round a finite value once to a floating format (R41, R52, Tables 2.6, 2.8, 2.10): overflow gives
infinity, or the largest finite F8 value with a saturation. -/
def roundFloat (f : Nat) (mode : Rnd) (neg : Bool) (m : Nat) (e : Int) : Elem :=
  let s := if neg then fmtSign f else 0
  if m = 0 then { bits := s }
  else
    let fr := fmtFrac f
    let ex := exponentOf m e
    let q0 := ex - (fr : Int)
    let q := max q0 (fmtMin f)
    let (n, exact) := roundTo mode m e q
    let code := (q - fmtMin f).toNat * 2 ^ fr + n
    if code ≥ fmtInf f then
      let fl := flOverflow ||| flInexact
      if fmtF8 f then { bits := s + fmtInf f - 1, flags := fl, sat := true }
      else if mode = .zero then { bits := s + fmtInf f - 1, flags := fl }
      else { bits := s + fmtInf f, flags := fl }
    else
      let tiny := decide ((roundTo mode m e q0).1 < 2 ^ (fr + 1)) && decide (q0 < fmtMin f)
        || (decide (q0 < fmtMin f - 1))
      { bits := s + code,
        flags := if exact then 0 else if tiny then flUnderflow ||| flInexact else flInexact }

/-- Convert a value to a floating format (Table 2.10, R42): a NaN becomes the canonical one, a signalling
one raises INVALID. -/
def toFloat (f : Nat) (mode : Rnd) (v : Val) : Elem :=
  match v with
  | .nan sg => if sg then invalid f 0 else { bits := fmtNan f }
  | .inf neg => { bits := (if neg then fmtSign f else 0) + fmtInf f }
  | .fin neg m e => roundFloat f mode neg m e

/-- Convert a value to an integer format: round once, clamp to the quantiser range; NaN gives 0, an
infinity the end of the range and a saturation (Table 2.10, R45). `rounds` says whether the conversion is
a rounded one, whose changed result is INEXACT. -/
def toInteger (f : Nat) (mode : Rnd) (rounds : Bool) (v : Val) : Elem :=
  let w := fmtBits f
  match v with
  | .nan _ => { bits := 0 }
  | .inf neg => { bits := unsigned w (if neg then fmtQmin f else fmtQmax f), sat := true }
  | .fin neg m e =>
    let (n, exact) := roundTo mode m e 0
    let x : Int := if neg then -(n : Int) else n
    let c := if x > fmtQmax f then (fmtQmax f : Int) else if x < fmtQmin f then fmtQmin f else x
    { bits := unsigned w c, sat := decide (c ≠ x),
      flags := if rounds && (!exact || decide (c ≠ x)) then flInexact else 0 }

/-- Convert a value to a format. -/
def toFormat (f : Nat) (mode : Rnd) (rounds : Bool) (v : Val) : Elem :=
  if fmtInt f then toInteger f mode rounds v else toFloat f mode v

/-! ## Exact arithmetic on values -/

/-- A signed integer with an exponent, as a finite value; a zero takes the sign given. -/
def Val.ofScaled (x : Int) (e : Int) (zeroNeg : Bool) : Val :=
  if x = 0 then .fin zeroNeg 0 0 else .fin (decide (x < 0)) x.natAbs e

/-- The signed significand of a finite value at exponent `q ≤ e`. -/
def scaledTo (neg : Bool) (m : Nat) (e q : Int) : Int :=
  let x : Int := (m : Int) * (2 : Int) ^ (e - q).toNat
  if neg then -x else x

/-- The exact sum of two finite values (zeros of opposite sign give +0, R41). -/
def addFin (n1 : Bool) (m1 : Nat) (e1 : Int) (n2 : Bool) (m2 : Nat) (e2 : Int) : Val :=
  let q := min e1 e2
  Val.ofScaled (scaledTo n1 m1 e1 q + scaledTo n2 m2 e2 q) q (n1 && n2 && m1 = 0 && m2 = 0)

/-- An exact operation's outcome: a value, or an invalid operation with its first-exception cause. -/
inductive Exact where
  | val (v : Val)
  | bad (cause : Nat)
deriving DecidableEq, Repr

/-- The exact sum (R41, Table 2.6). -/
def addVal (a b : Val) : Exact :=
  if a.sig || b.sig then .bad 0
  else match a, b with
    | .nan _, _ => .val (.nan false)
    | _, .nan _ => .val (.nan false)
    | .inf x, .inf y => if x = y then .val (.inf x) else .bad 2
    | .inf x, _ => .val (.inf x)
    | _, .inf y => .val (.inf y)
    | .fin n1 m1 e1, .fin n2 m2 e2 => .val (addFin n1 m1 e1 n2 m2 e2)

/-- A value with its sign reversed; a NaN stays. -/
def Val.negate : Val → Val
  | .nan s => .nan s
  | .inf n => .inf (!n)
  | .fin n m e => .fin (!n) m e

/-- The exact product. -/
def mulVal (a b : Val) : Exact :=
  if a.sig || b.sig then .bad 0
  else match a, b with
    | .nan _, _ => .val (.nan false)
    | _, .nan _ => .val (.nan false)
    | .inf x, .inf y => .val (.inf (x != y))
    | .inf x, .fin y m _ => if m = 0 then .bad 1 else .val (.inf (x != y))
    | .fin x m _, .inf y => if m = 0 then .bad 1 else .val (.inf (x != y))
    | .fin n1 m1 e1, .fin n2 m2 e2 => .val (.fin (n1 != n2) (m1 * m2) (e1 + e2))

/-- The exact fused multiply-add. -/
def fmaVal (a b c : Val) : Exact :=
  match mulVal a b with
  | .bad x => .bad x
  | .val p => if c.sig then .bad 0 else addVal p c

/-- An exact outcome delivered in a floating format with one rounding. -/
def Exact.to (f : Nat) (mode : Rnd) : Exact → Elem
  | .bad c => invalid f c
  | .val v => toFloat f mode v

/-- Numerical order of two values that are not NaN; −0 equals +0. -/
def cmpVal (a b : Val) : Ordering :=
  let key (v : Val) : Int := match v with
    | .inf true => -1
    | .inf false => 1
    | _ => 0
  if key a ≠ key b ∨ !a.finite ∨ !b.finite then compare (key a) (key b)
  else match a, b with
    | .fin n1 m1 e1, .fin n2 m2 e2 =>
      let q := min e1 e2
      compare (scaledTo n1 m1 e1 q) (scaledTo n2 m2 e2 q)
    | _, _ => .eq

/-- The smaller or larger of two values that are not NaN, with −0 below +0 (R43). -/
def pickVal (wantMax : Bool) (a b : Val) : Val :=
  match cmpVal a b with
  | .lt => if wantMax then b else a
  | .gt => if wantMax then a else b
  | .eq => if a.neg = wantMax then b else a

/-- Minimum or maximum: `number` picks the non-NaN operand (R43). A signalling NaN is invalid. -/
def minMaxVal (wantMax number : Bool) (a b : Val) : Elem × Val :=
  let fl : BitVec 5 := if a.sig || b.sig then flInvalid else 0
  let v := if a.isNan && b.isNan then .nan false
    else if a.isNan then (if number then b else .nan false)
    else if b.isNan then (if number then a else .nan false)
    else pickVal wantMax a b
  ({ bits := 0, flags := fl, cause := if a.sig || b.sig then some 0 else none }, v)

/-! ## Element packing (R35, R36) -/

/-- Bytes of a packed row of elements. -/
def rowBytes (f cols : Nat) : Nat :=
  if fmtBits f = 4 then ceilDiv cols 2 else if fmtBits f = 12 then ceilDiv cols 2 * 3 else cols * (fmtBits f / 8)

/-- A row padded to a 32-byte multiple (R211). -/
def rowPitch (f cols : Nat) : Nat := ceilDiv (rowBytes f cols) 32 * 32

/-- Element `j` of a packed row. -/
def getElem (f : Nat) (row : List Byte) (j : Nat) : Nat :=
  if fmtBits f = 4 then field row (j / 2) 1 / 16 ^ (j % 2) % 16
  else if fmtBits f = 12 then field row (3 * (j / 2)) 3 / 4096 ^ (j % 2) % 4096
  else field row (j * (fmtBits f / 8)) (fmtBits f / 8)

/-- A packed row of elements, padded to its bytes; the unused half of a last pair is 0. -/
def packRow (f : Nat) (xs : List Nat) : List Byte :=
  if fmtBits f = 4 then
    (upTo (ceilDiv xs.length 2)).flatMap (fun i => leBytes 1 (xs.getD (2 * i) 0 % 16 + 16 * (xs.getD (2 * i + 1) 0 % 16)))
  else if fmtBits f = 12 then
    (upTo (ceilDiv xs.length 2)).flatMap (fun i => leBytes 3 (xs.getD (2 * i) 0 % 4096 + 4096 * (xs.getD (2 * i + 1) 0 % 4096)))
  else xs.flatMap (fun x => leBytes (fmtBits f / 8) x)

/-! ## The generator of stochastic rounding (R54, R55) -/

/-- Philox-4×32 with ten rounds. -/
def philox : Nat → Nat × Nat × Nat × Nat → Nat × Nat → Nat × Nat × Nat × Nat
  | 0, c, _ => c
  | n + 1, (c0, c1, c2, c3), (k0, k1) =>
    let p0 := 0xD2511F53 * c0
    let p1 := 0xCD9E8D57 * c2
    let w := 2 ^ 32
    philox n (Nat.xor (Nat.xor (p1 / w) c1) k0, p1 % w, Nat.xor (Nat.xor (p0 / w) c3) k1, p0 % w)
      ((k0 + 0x9E3779B9) % w, (k1 + 0xBB67AE85) % w)

/-- The 24-bit random value of an element (R54): seed, handle, element index, step, purpose. -/
def srBits (seed handle index step purpose : Nat) : Nat :=
  let r := philox 10 (bitsOf index 33 2, handle % 65536 * 65536 + bitsOf index 47 34, step % 2 ^ 32, purpose)
    (seed % 2 ^ 32, seed / 2 ^ 32 % 2 ^ 32)
  let w := match index % 4 with
    | 0 => r.1
    | 1 => r.2.1
    | 2 => r.2.2.1
    | _ => r.2.2.2
  bitsOf w 31 8

/-! ## FP32 helpers -/

/-- FP32 bits of 1.0. -/
def fpOne : Nat := 0x3F800000
/-- The value of FP32 bits. -/
def v32 (bits : Nat) : Val := decodeVal fp32 bits
/-- Round a value to FP32, ties to even. -/
def r32 (v : Val) : Nat := (toFloat fp32 .even v).bits
/-- FP32 operations with one rounding to even. -/
def add32 (a b : Nat) : Nat := ((addVal (v32 a) (v32 b)).to fp32 .even).bits
def mul32 (a b : Nat) : Nat := ((mulVal (v32 a) (v32 b)).to fp32 .even).bits

/-- A magnitude truncated toward zero to FP32, capped at the largest finite value (R136). -/
def truncMag (v : Val) : Nat :=
  match v with
  | .fin _ m e => (roundFloat fp32 .zero false m e).bits
  | _ => 0

/-- The larger of two FP32 magnitudes. -/
def maxMag (a b : Nat) : Nat := if cmpVal (v32 a) (v32 b) = .lt then b else a

/-- round_even_fp32(a/b) of two positive values m1 × 2^e1 and m2 × 2^e2, exactly rounded (R115, R119):
a quotient of 70 more bits with a sticky bit rounds as the exact quotient does. -/
def divExact (f : Nat) (m1 : Nat) (e1 : Int) (m2 : Nat) (e2 : Int) : Nat :=
  let k := 140 + Nat.log2 (m2 + 1)
  let n := m1 * 2 ^ k
  let q := n / m2
  let sticky := if n % m2 = 0 then 0 else 1
  (roundFloat f .even false (2 * q + sticky) (e1 - e2 - k - 1)).bits

/-! ## CRC-32C (R226, R157) -/

/-- One byte of a reflected CRC-32C. -/
def crcByte : Nat → Nat → Nat
  | 0, c => c
  | n + 1, c => crcByte n (if c % 2 = 1 then Nat.xor (c / 2) 0x82F63B78 else c / 2)

/-- CRC-32C (Castagnoli) of bytes. -/
def crc32c (bs : List Byte) : Nat :=
  Nat.xor (bs.foldl (fun c b => crcByte 8 (Nat.xor c b.toNat)) m32') m32'
where
  /-- All ones. -/
  m32' : Nat := 0xFFFFFFFF

end Sys2Proof.Machine
end

