-- ==== Sys2Proof/Machine/Fun.lean ====
section
/-! DEFINITION. The bounded native operations (R58, Table 2.11): division, square root and the
transcendental functions. The exact result is enclosed in 512-bit fixed point; the result is one of the
codes within the bound, picked by a constant without a body (R60, log 2). Special values are exact. -/

namespace Sys2Proof.Machine

/-- Fixed point: a value times 2^512. -/
def fixP : Nat := 512
/-- The slack of every enclosure below, in fixed point: 2^-400. -/
def fixSlack : Int := 2 ^ 112

/-- The sum of a series whose next term is `f n t` of the term `t`. -/
def series (f : Nat → Int → Int) : Nat → Nat → Int → Int
  | 0, _, _ => 0
  | k + 1, n, t => t + series f k (n + 1) (f n t)

/-- exp of a fixed-point number of magnitude at most 1. -/
def fixExpSmall (x : Int) : Int := series (fun n t => t * x / 2 ^ fixP / (n + 1 : Nat)) 130 0 (2 ^ fixP)

/-- Twice the sum over odd k of z^k / k: the logarithm of (1 + z)/(1 - z). -/
def fixLogOdd (z : Int) : Int :=
  let z2 := z * z / 2 ^ fixP
  2 * ((upTo 170).foldl (fun (a : Int × Int) k => (a.1 + a.2 / (2 * k + 1 : Nat), a.2 * z2 / 2 ^ fixP)) (0, z)).1

/-- ln 2 in fixed point: ln((1 + 1/3)/(1 - 1/3)). -/
def fixLn2 : Int := fixLogOdd (2 ^ fixP / 3)

/-- exp of a fixed-point number: x = k ln 2 + r. -/
def fixExp (x : Int) : Int :=
  let k := x / fixLn2
  let r := x - k * fixLn2
  let y := fixExpSmall r
  if k ≥ 0 then y * 2 ^ k.toNat else y / 2 ^ (-k).toNat

/-- ln of m × 2^e for m > 0. -/
def fixLn (m : Nat) (e : Int) : Int :=
  let b := Nat.log2 m
  let one : Int := 2 ^ fixP
  let y : Int := (m : Int) * 2 ^ fixP / 2 ^ b
  fixLogOdd ((y - one) * one / (y + one)) + ((b : Int) + e) * fixLn2

/-- A signed value in fixed point. -/
def toFix (neg : Bool) (m : Nat) (e : Int) : Int :=
  let x : Int := if e + fixP ≥ 0 then (m : Int) * 2 ^ (e + fixP).toNat else (m : Int) / 2 ^ (-(e + fixP)).toNat
  if neg then -x else x

/-- arctan(1/n) times 2^800. -/
def fixAtanInv (n : Nat) : Int :=
  ((upTo 400).foldl (fun (a : Int × Int) k =>
    (if k % 2 = 0 then a.1 + a.2 / (2 * k + 1 : Nat) else a.1 - a.2 / (2 * k + 1 : Nat), a.2 / (n * n : Nat)))
    (0, 2 ^ 800 / (n : Int))).1

/-- π times 2^800, by Machin's formula. -/
def fixPi : Int := 4 * (4 * fixAtanInv 5 - fixAtanInv 239)

/-- sine and cosine of a finite value: the argument is reduced by 2π with 800 bits of π. -/
def fixSinCos (wantCos neg : Bool) (m : Nat) (e : Int) : Int :=
  let x : Int := if e + 800 ≥ 0 then (m : Int) * 2 ^ (e + 800).toNat else (m : Int) / 2 ^ (-(e + 800)).toNat
  let twoPi := 2 * fixPi
  let r := (x % twoPi) / 2 ^ 288
  let half := fixPi / 2 ^ 288
  -- bring the argument into -π .. π
  let a := if r > half then r - 2 * half else r
  let a2 := a * a / 2 ^ fixP
  let s := if wantCos then
      series (fun n t => -(t * a2 / 2 ^ fixP / ((2 * n + 1) * (2 * n + 2) : Nat))) 70 0 (2 ^ fixP)
    else series (fun n t => -(t * a2 / 2 ^ fixP / ((2 * n + 2) * (2 * n + 3) : Nat))) 70 0 a
  if neg && !wantCos then -s else s

/-- erf of a fixed-point number: the Maclaurin series below 8, 1 beyond. -/
def fixErf (x : Int) : Int :=
  let one : Int := 2 ^ fixP
  if x ≥ 8 * one then one else if x ≤ -8 * one then -one
  else
    let x2 := x * x / one
    let s := ((upTo 400).foldl (fun (a : Int × Int) n =>
      (a.1 + a.2 / (2 * n + 1 : Nat), -(a.2 * x2 / one / (n + 1 : Nat)))) (0, x)).1
    let sqrtPi : Int := ((Nat.sqrt (fixPi.toNat * 2 ^ 224) : Nat) : Int)
    2 * s * one / sqrtPi

/-- The magnitude of a code of a floating format in fixed point; infinity's code stands for 2^(emax+1). -/
def fixCode (f code : Nat) : Int :=
  let fr := fmtFrac f
  if code < 2 ^ fr then toFix false code (fmtMin f)
  else toFix false (2 ^ fr + code % 2 ^ fr) (fmtMin f + (code / 2 ^ fr : Nat) - 1)

/-- The codes of format `f` within `k` units in the last place of the magnitude `x` (fixed point). -/
def codesWithin (f k : Nat) (x : Int) : List Nat :=
  let m := x.toNat
  let base := (roundFloat f .zero false m (-(fixP : Int))).bits
  let top := (fixCode f (base + 1) - fixCode f base)
  let cand := (upTo (2 * k + 2)).map (fun i => base + i - k)
  let ok := (cand.filter (fun c => decide (c ≤ fmtInf f) &&
    decide ((fixCode f c - x).natAbs ≤ ((k : Int) * top + fixSlack).natAbs))).eraseDups
  if ok.isEmpty then [if fixCode f (fmtInf f) ≤ x then fmtInf f else base] else ok

/-- A bounded operation's finite result: the sign, the exact magnitude in fixed point, whether the
fixed-point value is the exact one, and the pick. -/
def nativeResult (f k op a b ncw : Nat) (neg : Bool) (x : Int) (exactFix : Bool) : Elem :=
  let cs := codesWithin f k x
  let c := cs.getD (Config.nativeChoice op f a b ncw % cs.length) 0
  let s := if neg then fmtSign f else 0
  let same := exactFix && decide (fixCode f c = x)
  let fl : BitVec 5 :=
    if c ≥ fmtInf f then flOverflow ||| flInexact
    else if same then 0
    else if c < 2 ^ fmtFrac f then flUnderflow ||| flInexact
    else flInexact
  if c ≥ fmtInf f && fmtF8 f then { bits := s + fmtInf f - 1, flags := fl, sat := true }
  else { bits := s + c, flags := fl }

/-- An infinite result that is exact (R52). -/
def exactInf (f : Nat) (neg : Bool) (fl : BitVec 5 := 0) : Elem := { bits := (if neg then fmtSign f else 0) + fmtInf f, flags := fl }

/-- Division (R41, R44, R58): within 1 ulp; x/0 is an exact infinity with DIVZERO. -/
def divElem (f a b ncw : Nat) (x y : Val) : Elem :=
  if x.sig || y.sig then invalid f 0
  else match x, y with
    | .nan _, _ => { bits := fmtNan f }
    | _, .nan _ => { bits := fmtNan f }
    | .inf _, .inf _ => invalid f 3
    | .inf n, .fin n2 _ _ => exactInf f (n != n2)
    | .fin n _ _, .inf n2 => { bits := if n != n2 then fmtSign f else 0 }
    | .fin n1 m1 e1, .fin n2 m2 e2 =>
      if m2 = 0 then (if m1 = 0 then invalid f 3 else exactInf f (n1 != n2) flDivzero)
      else if m1 = 0 then { bits := if n1 != n2 then fmtSign f else 0 }
      else
        let e := e1 - e2 + fixP
        let num := if e ≥ 0 then m1 * 2 ^ e.toNat else m1
        let den := if e ≥ 0 then m2 else m2 * 2 ^ (-e).toNat
        nativeResult f 1 0x44 a b ncw (n1 != n2) (num / den : Nat) (decide (num % den = 0))

/-- Square root, reciprocal and reciprocal square root within 1 ulp: `op` 0x45, 0x46, 0x47. -/
def rootElem (f op a ncw : Nat) (x : Val) : Elem :=
  if x.sig then invalid f 0
  else match x with
    | .nan _ => { bits := fmtNan f }
    | .inf n =>
      if op = 0x46 then { bits := if n then fmtSign f else 0 }
      else if n then invalid f 4
      else if op = 0x45 then exactInf f false else { bits := 0 }
    | .fin n m e =>
      let s := if n then fmtSign f else 0
      if m = 0 then (if op = 0x45 then { bits := s } else exactInf f n flDivzero)
      else if op = 0x46 then
        let e' := (fixP : Int) - e
        let num := if e' ≥ 0 then 2 ^ e'.toNat else 1
        let den := if e' ≥ 0 then m else m * 2 ^ (-e').toNat
        nativeResult f 1 op a 0 ncw n (num / den : Nat) (decide (num % den = 0))
      else if n then invalid f 4
      else
        -- the square of the fixed-point result: x × 2^1024, or 2^1024 / x
        let e' := if op = 0x45 then e + 2 * fixP else 2 * fixP - e
        let num := if op = 0x45 then (if e' ≥ 0 then m * 2 ^ e'.toNat else m) else (if e' ≥ 0 then 2 ^ e'.toNat else 1)
        let den := if op = 0x45 then (if e' ≥ 0 then 1 else 2 ^ (-e').toNat) else (if e' ≥ 0 then m else m * 2 ^ (-e').toNat)
        let sq := num / den
        let r := Nat.sqrt sq
        nativeResult f 1 op a 0 ncw false r (decide (num % den = 0 ∧ r * r = sq))

/-- The functions 0x50-0x58 on a finite nonzero argument: the sign, the enclosed magnitude. -/
def funFix (op : Nat) (neg : Bool) (m : Nat) (e : Int) : Bool × Int :=
  let x := toFix neg m e
  let one : Int := 2 ^ fixP
  let big := decide (exponentOf m e ≥ 9)
  match op with
  | 0x50 => (false, if big then (if neg then 0 else one * 2 ^ 300) else fixExp x)
  | 0x51 => (false, if big then (if neg then 0 else one * 2 ^ 300) else fixExp (x * fixLn2 / one))
  | 0x52 => let l := fixLn m e; (decide (l < 0), l.natAbs)
  | 0x53 => let l := fixLn m e * one / fixLn2; (decide (l < 0), l.natAbs)
  | 0x54 =>
    if big then (neg, one)
    else
      let y := fixExp (2 * (x.natAbs : Int))
      (neg, (y - one) * one / (y + one))
  | 0x55 =>
    if big then (false, if neg then 0 else one)
    else (false, one * one / (one + fixExp (-x)))
  | 0x56 => let l := fixErf x; (neg, l.natAbs)
  | 0x57 => let l := fixSinCos false neg m e; (decide (l < 0), l.natAbs)
  | _ => let l := fixSinCos true neg m e; (decide (l < 0), l.natAbs)

/-- A function 0x50-0x58 of a value (R44, R58): special values exact as IEEE 754-2019 recommends, others
within 2 ulp. The sine and cosine of an infinity are invalid operations (DEDUCED, log 97). -/
def funElem (f op a ncw : Nat) (x : Val) : Elem :=
  let one : Elem := toFloat f .even (.ofInt 1)
  let half : Elem := toFloat f .even (.fin false 1 (-1))
  let sz (n : Bool) : Elem := { bits := if n then fmtSign f else 0 }
  if x.sig then invalid f 0
  else match x with
    | .nan _ => { bits := fmtNan f }
    | .inf n =>
      match op with
      | 0x50 | 0x51 => if n then sz false else exactInf f false
      | 0x52 | 0x53 => if n then invalid f 4 else exactInf f false
      | 0x54 | 0x56 => { bits := (sz n).bits + one.bits }
      | 0x55 => if n then sz false else one
      | _ => invalid f 4
    | .fin n m e =>
      if m = 0 then
        match op with
        | 0x50 | 0x51 | 0x58 => one
        | 0x52 | 0x53 => exactInf f true flDivzero
        | 0x55 => half
        | _ => sz n
      else if (op = 0x52 || op = 0x53) && n then invalid f 4
      else
        let isOne := !n && decide (cmpVal x (.ofInt 1) = .eq)
        if (op = 0x52 || op = 0x53) && isOne then sz false
        else
          let (neg, v) := funFix op n m e
          nativeResult f 2 op a 0 ncw neg v false

end Sys2Proof.Machine
end

