-- ==== Sys2Proof/Machine/Flit.lean ====
section
/-! DEFINITION. The flits of the Ratil Coherent Link (R366): header, units, CRC and FEC, and the messages
that units carry (R368, R370). The CRC-64 runs most significant bit first with no final inversion, and the Reed-Solomon
codes are those of the field polynomial 0x11D with roots 1 and 2, the lowest byte the highest coefficient (PRESUMED,
log 102). -/

namespace Sys2Proof.Machine

/-! ## The field of the FEC -/

/-- Twice an element of GF(2^8). -/
def gfTwice (a : Nat) : Nat := if a < 128 then 2 * a else Nat.xor (2 * a) 0x11D

/-- A product in GF(2^8): the bits of `b` from the highest of `n`. -/
def gfMul (a b : Nat) : Nat → Nat
  | 0 => 0
  | n + 1 => Nat.xor (gfTwice (gfMul a (b / 2) n)) (if b % 2 = 1 then a else 0)

/-- The syndromes of a code word, its value at 1 and at 2, Horner's way from two values on. -/
def gfHorner : List Nat → Nat → Nat → Nat × Nat
  | [], s, t => (s, t)
  | b :: bs, s, t =>
    if t < 128 then gfHorner bs (Nat.xor s b) (Nat.xor (2 * t) b)
    else gfHorner bs (Nat.xor s b) (Nat.xor (Nat.xor (2 * t) 0x11D) b)

/-- The syndromes of a code word. -/
def gfSyndromes (bs : List Nat) : Nat × Nat := gfHorner bs 0 0

/-- The two parity bytes that end a code word; 0xF4 is the inverse of 3. -/
def gfParity (bs : List Nat) : List Nat :=
  let s := gfSyndromes (bs ++ [0, 0])
  let p := gfMul (Nat.xor s.1 s.2) 0xF4 8
  [p, Nat.xor p s.1]

/-- Correct one byte of a code word: the one whose error explains both syndromes. -/
def gfCorrect (bs : List Nat) : List Nat :=
  let s := gfSyndromes bs
  if s.1 = 0 then bs
  else match (upTo bs.length).find? (fun d => decide (Nat.repeat gfTwice d s.1 = s.2)) with
    | some d => bs.modify (bs.length - 1 - d) (fun b => Nat.xor b s.1)
    | none => bs

/-- Every third byte, from the first on. -/
def everyThird : List Nat → List Nat
  | a :: _ :: _ :: r => a :: everyThird r
  | bs => bs.take 1

/-- Interleave `i`: the bytes `j` with `j mod 3 = i`. -/
def interleave (i : Nat) (bs : List Nat) : List Nat := everyThird (bs.drop i)

/-- Put interleaves 0 to 2 together again. -/
def merge3 (n : Nat) (xs : List (List Nat)) : List Nat := (upTo n).map (fun j => (xs.getD (j % 3) []).getD (j / 3) 0)

/-- The FEC's work on a received flit. -/
def fecCorrect (bs : List Byte) : List Byte :=
  let ns := bs.map BitVec.toNat
  (merge3 bs.length [gfCorrect (interleave 0 ns), gfCorrect (interleave 1 ns), gfCorrect (interleave 2 ns)]).map (BitVec.ofNat 8)

/-- The six parity bytes of 250 bytes. -/
def fecParity (bs : List Byte) : List Byte :=
  let ns := bs.map BitVec.toNat
  (upTo 6).map (fun k => BitVec.ofNat 8 ((gfParity (interleave ((250 + k) % 3) ns)).getD (k / 3) 0))

/-! ## The CRC -/

/-- The bits of a byte, the most significant first. -/
def byteBits (b : Byte) : List Bool := (upTo 8).map (fun i => b.getLsbD (7 - i))

/-- CRC-64 with the polynomial of ECMA-182, one bit at a time from a register value on. -/
def crc64Bits : List Bool → Nat → Nat
  | [], c => c
  | b :: bs, c =>
    if decide (2 ^ 63 ≤ c) = b then crc64Bits bs (2 * c % 2 ^ 64)
    else crc64Bits bs (Nat.xor (2 * c % 2 ^ 64) 0x42F0E1EBA9EA3693)

/-- CRC-64 of bytes, from all ones. -/
def crc64 (bs : List Byte) : Nat := crc64Bits (bs.flatMap byteBits) (2 ^ 64 - 1)

/-! ## Headers and units (Tables 13.3 and 13.4) -/

/-- The 16 header bytes of a flit. -/
def flitHeader (h : FlitHeader) : List Byte :=
  leBytes 16 (h.kind.toNat + h.seq.toNat * 2 ^ 4 + h.ackSeq.toNat * 2 ^ 16 + b2n h.nak * 2 ^ 28 + h.credReq.toNat * 2 ^ 32
    + h.credRsp.toNat * 2 ^ 48 + h.credSnp.toNat * 2 ^ 64 + h.credEvt.toNat * 2 ^ 80 + h.valid.toNat * 2 ^ 96)

/-- Read the header of a flit. -/
def flitHead (bs : List Byte) : FlitHeader :=
  let v := field bs 0 16
  let w (n hi lo : Nat) : BitVec n := BitVec.ofNat n (bitsOf v hi lo)
  { kind := w 4 3 0, seq := w 12 15 4, ackSeq := w 12 27 16, nak := bitOf v 28, credReq := w 16 47 32, credRsp := w 16 63 48,
    credSnp := w 16 79 64, credEvt := w 16 95 80, valid := w 14 109 96 }

/-- The 256 bytes of a flit: header, units from the first on, CRC, FEC. -/
def flitBytes (f : Flit) : List Byte :=
  let body := flitHeader f.head ++ ((f.units.flatten ++ List.replicate 224 0).take 224) ++ [0, 0]
  let data := body ++ leBytes 8 (crc64 body)
  data ++ fecParity data

/-- A received flit's CRC holds (over bytes 241:0, after correction). -/
def flitCrcOk (bs : List Byte) : Bool := decide (crc64 (bs.take 242) = field bs 242 8)

/-- Unit u of a flit; none for padding. -/
def flitUnit (bs : List Byte) (u : Nat) : Option (List Byte) :=
  if (flitHead bs).valid.getLsbD u then some ((bs.drop (16 * u + 16)).take 16) else none

/-! ## Messages (Tables 13.6 and 13.7) -/

/-- The 16 bytes of a header unit. -/
def headerUnit (m : RclMsg) : List Byte :=
  leBytes 16 (m.opcode.toNat + m.tag.toNat * 2 ^ 8 + m.status.toNat * 2 ^ 20 + m.sub.toNat * 2 ^ 28 + m.addr.toNat * 2 ^ 32
    + m.aux.toNat * 2 ^ 96)

/-- The units of a message. -/
def msgUnits (m : RclMsg) : List (List Byte) :=
  headerUnit m :: (upTo (m.data.length / 16)).map (fun i => (m.data.drop (16 * i)).take 16)

/-- The message that units spell. -/
def unitsMsg (us : List (List Byte)) : RclMsg :=
  let v := leNat (us.headD [])
  { opcode := BitVec.ofNat 8 v, tag := BitVec.ofNat 12 (v / 2 ^ 8), status := BitVec.ofNat 8 (v / 2 ^ 20),
    sub := BitVec.ofNat 4 (v / 2 ^ 28), addr := BitVec.ofNat 52 (v / 2 ^ 32), aux := BitVec.ofNat 32 (v / 2 ^ 96),
    data := us.tail.flatten, poison := false }

/-- The flit of one message. -/
def msgFlit (h : FlitHeader) (m : RclMsg) : Flit :=
  let us := msgUnits m
  ⟨{ h with valid := BitVec.ofNat 14 (2 ^ us.length - 1) }, us⟩

end Sys2Proof.Machine
end

