-- ==== Sys2Proof/Machine/Identity.lean ====
section
/-! DEFINITION. The device's identity (R325, R463): its key pairs, from the unique device secret, and its identifier. -/

namespace Sys2Proof.Machine

/-- A list cut or filled with zeros to `n` bytes. -/
def fit (n : Nat) (l : List Byte) : List Byte := (l ++ List.replicate n 0).take n

/-- SHA-512, 64 bytes. -/
def sha512 (bs : List Byte) : List Byte := fit 64 (Config.sha512 bs)

/-- The label strings as bytes. -/
def labelEd : List Byte := "DQV ID ED25519".toList.map (fun c => BitVec.ofNat 8 c.toNat)
def labelMl : List Byte := "DQV ID MLDSA65".toList.map (fun c => BitVec.ofNat 8 c.toNat)

/-- The seeds of the two key pairs (R463). -/
def edSeed : List Byte := fit 32 (Config.hmacSha512 Config.fuseUds labelEd)
def mlSeed : List Byte := fit 32 (Config.hmacSha512 Config.fuseUds labelMl)
/-- The public keys. -/
def edPublic : List Byte := fit 32 (Config.ed25519Public edSeed)
def mlPublic : List Byte := fit 1952 (Config.mldsaPublic mlSeed)

/-- device_id: bytes 7:0 of SHA-512 over the Ed25519 identity public key (R325). -/
def deviceId : BitVec 64 := BitVec.ofNat 64 (field (sha512 edPublic) 0 8)

end Sys2Proof.Machine
end

