-- ==== Sys2Proof/Machine/Init.lean ====
section
/-! DEFINITION. What each part of the device reads as before anything has touched it (the defaults of
the state's maps), and the accessors of those maps. -/

namespace Sys2Proof.Machine

/-- A stream of a free context. -/
def StreamState.init : StreamState where
  pc := 0
  queue := []
  loops := []
  count := 0
  ended := false
  switchTo := none
  cur := none
  reissue := none

/-- A free context (R169); predicate 0 always reads true (R196). -/
def Context.init : Context where
  run := .free
  halt := none
  preempt := none
  bank := false
  preds := 1
  ncw := 0
  sregs := []
  params := []
  scalar := StreamState.init
  vector := StreamState.init
  matrix := StreamState.init
  move := StreamState.init
  grid := none

/-- An idle array whose cells hold nothing. -/
def ArrayState.init : ArrayState where
  cmd := none
  stationary := []
  freeAt := 0
  lastRead := 0
  rowReadAt := []
  held := none

/-- A core with no context running. The spec gives no reset value for the thread allotment; it is 1
here (DESIGN CHOICE, log 6). -/
def Core.init : Core where
  allotment := 1
  contexts := []
  fetched := 0
  issuedScalar := 0
  issuedVector := 0
  issuedMatrix := 0
  issuedMove := 0
  scratch := []
  scratchPoison := []
  program := []
  programPoison := []
  array := ArrayState.init

/-- An unmapped page table entry (Table 8.5). -/
def PageEntry.none : PageEntry where
  valid := false
  writable := false
  target := .hbm
  port := 0
  foreign := false
  migrating := false
  frame := 0

/-- A snoop filter entry of a line no host holds. -/
def FilterEntry.none : FilterEntry where
  low := .invalid
  high := .invalid
  lowVa := 0
  highVa := 0
  age := 0

/-- An RCL port before power: nothing negotiated (Table 18.14). -/
def RclPort.init : RclPort where
  state := .detect
  mode := none
  lanesUsed := 0
  features := 0
  laneFailed := 0
  peer := 0
  peerMask := 0
  peerRate := 0
  reqs := []
  rsps := []
  waiting := []
  shareCell := 0
  replay := []
  sent := []
  rxUnits := []
  control := []
  resends := 0
  nextSeq := 0
  expectSeq := 0
  sendNak := false
  avail := [8192, 8192, 1024, 256]
  seen := [0, 0, 0, 0]
  freed := [0, 0]
  hostTags := []
  reads := []
  hostBuf := []
  nextTag := 0
  drops := []
  violations := []
  away := false
  known := false
  backoff := false
  detectAt := 0
  holdoff := []
  owed := []

/-- A fabric port before power (Table 18.12). -/
def FabPort.init : FabPort where
  state := .detect
  mode := none
  lanesUsed := 0
  laneFailed := 0
  bootLane := 0
  peerMask := 0
  peerRate := 0
  nbrId := 0
  nbrRank := 0xFFFFFFFF
  nbrPort := 0
  nbrDomain := 0
  seenPeer := false
  known := false
  granted := List.replicate 7 0
  used := List.replicate 7 0
  returned := List.replicate 7 0
  waiting := []
  replay := []
  nextSeq := 0
  expectSeq := 0
  sendNak := false
  gap := false
  resends := 0
  rx := []
  link := []
  rxPuts := []
  txMessages := []
  violations := []
  uncorr := []
  nextTag := 0
  away := false
  backoff := false
  detectAt := 0
  turnHigh := 6
  turnLow := 4
  turnLeft := 0
  shareTurn := List.replicate 7 4
  shareLeft := List.replicate 7 0
  rxMirror := []
  patterns := []

/-- Assize before the first snapshot: invalid and cold (Table 18.8). -/
def Assize.init : Assize where
  groups := []
  groupCount := 0
  config := []
  unread := []
  watch := []
  params := []
  silentRuns := []
  words := []
  cold := true
  coldLeft := 0
  restored := none
  saved := none
  everRestored := false
  awaiting := true
  invalid := true
  clears := []
  openStep := none
  arrived := []
  deciding := none
  promote := []
  demote := []
  copyLogged := true
  held := []

/-- The Update Die with no work of the partition. -/
def Update.init : Update where
  jobs := []
  ckpt := none
  restore := none
  clean0 := []
  clean1 := []
  stepEnd := none

/-- A partition that is not valid (PART_STATE 3, R500). -/
def Partition.init : Partition where
  state := 3
  phase := 0
  drainPhase := none
  packets := []
  nextId := 0
  lastRing := 0
  finished := []
  pageTable := []
  tensors := []
  smallPages := []
  chunks := []
  migrations := []
  retired := []
  launches := []
  slots := []
  poolRefs := []
  growSignals := 0
  poolDry := []
  logSeq := 0
  decided := []
  resultGens := []
  assize := Assize.init
  update := Update.init
  buckets := []
  rounds := []
  doneKeys := []
  capDepth := 0
  queues := []
  units := []

/-- A compute die at reset: OP11 under the IDLE preference, at full duty (R504). -/
def DieState.init : DieState where
  arrivals := []
  held := []
  prefDepth := 11
  railDepth := 0
  thermDepth := 0
  op := 11
  volts := 11
  slewTo := none
  pllTo := none
  sinceRise := 2
  quiet := 0
  sinceLog := 100
  mismatch := false
  differ := 0
  agree := 0
  sensorFailed := 0
  reading := 0
  hot := false
  cool := 0

/-- An event source with nothing held. -/
def EvtSource.init : EvtSource where
  held := []
  eccCount := 0
  eccFirst := 0
  eccAt := none

/-! ## Accessors of the state's maps -/

/-- The core named. -/
def State.core (s : State) (c : CoreId) : Core := Sparse.get Core.init s.cores c.toNat
/-- Replace a core. -/
def State.setCore (s : State) (c : CoreId) (x : Core) : State :=
  { s with cores := Sparse.set Core.init s.cores c.toNat x }

/-- The core of a thread (R23). -/
def threadCore (t : Thread) : CoreId := BitVec.ofNat 9 (t.toNat / 64)
/-- The context of a thread (R23). -/
def threadCtx (t : Thread) : Nat := t.toNat % 64
/-- The thread of a context (R23). -/
def threadOf (c : CoreId) (ctx : Nat) : Thread := BitVec.ofNat 15 (c.toNat * 64 + ctx)
/-- The die of a core (R22). -/
def coreDie (c : CoreId) : Die := ⟨c.toNat / 128, by have := c.isLt; omega⟩
/-- The core's number within its die (R22). -/
def coreNumber (c : CoreId) : Nat := c.toNat % 128
/-- Core numbers 80-127 name no core (R22). -/
def coreExists (c : CoreId) : Bool := decide (coreNumber c < 80)
/-- The core of a die at a mesh place (R22). -/
def coreAt (d : Die) (n : Nat) : CoreId := BitVec.ofNat 9 (d.val * 128 + n)

/-- A context of a core. -/
def Core.context (c : Core) (i : Nat) : Context := Sparse.get Context.init c.contexts i
/-- Replace a context of a core. -/
def Core.setContext (c : Core) (i : Nat) (x : Context) : Core :=
  { c with contexts := Sparse.set Context.init c.contexts i x }

/-- The context of a thread. -/
def State.context (s : State) (t : Thread) : Context := (s.core (threadCore t)).context (threadCtx t)
/-- Replace the context of a thread. -/
def State.setContext (s : State) (t : Thread) (x : Context) : State :=
  s.setCore (threadCore t) ((s.core (threadCore t)).setContext (threadCtx t) x)

/-- A stream of a context. -/
def Context.stream (c : Context) : Stream → StreamState
  | .scalar => c.scalar
  | .vector => c.vector
  | .matrix => c.matrix
  | .move => c.move
/-- Replace a stream of a context. -/
def Context.setStream (c : Context) (st : Stream) (x : StreamState) : Context :=
  match st with
  | .scalar => { c with scalar := x }
  | .vector => { c with vector := x }
  | .matrix => { c with matrix := x }
  | .move => { c with move := x }

/-- A stream of a thread. -/
def State.stream (s : State) (t : Thread) (st : Stream) : StreamState := (s.context t).stream st
/-- Replace a stream of a thread. -/
def State.setStream (s : State) (t : Thread) (st : Stream) (x : StreamState) : State :=
  s.setContext t ((s.context t).setStream st x)

/-- A partition. -/
def State.part (s : State) (p : Part) : Partition := Sparse.get Partition.init s.parts p.val
/-- Replace a partition. -/
def State.setPart (s : State) (p : Part) (x : Partition) : State :=
  { s with parts := Sparse.set Partition.init s.parts p.val x }

/-- A compute die's Gauger and governor. -/
def State.die (s : State) (d : Die) : DieState := Sparse.get DieState.init s.dies d.val
/-- Replace it. -/
def State.setDie (s : State) (d : Die) (x : DieState) : State :=
  { s with dies := Sparse.set DieState.init s.dies d.val x }

/-- An RCL port. -/
def State.rclPort (s : State) (k : RPort) : RclPort := Sparse.get RclPort.init s.rcl k.val
/-- Replace it. -/
def State.setRcl (s : State) (k : RPort) (x : RclPort) : State :=
  { s with rcl := Sparse.set RclPort.init s.rcl k.val x }

/-- A fabric port. -/
def State.fab (s : State) (n : FPort) : FabPort := Sparse.get FabPort.init s.fabric n.val
/-- Replace it. -/
def State.setFab (s : State) (n : FPort) (x : FabPort) : State :=
  { s with fabric := Sparse.set FabPort.init s.fabric n.val x }

/-- An event source. -/
def State.source (s : State) (n : BitVec 16) : EvtSource := Sparse.get EvtSource.init s.events n.toNat
/-- Replace it. -/
def State.setSource (s : State) (n : BitVec 16) (x : EvtSource) : State :=
  { s with events := Sparse.set EvtSource.init s.events n.toNat x }

/-- The counter of die 0-6 (R479). -/
def State.time (s : State) (d : Nat) : DWord := Sparse.get 0 s.dieTime d

/-- The value of a sync object (R183). -/
def State.syncValue (s : State) (i : SyncObj) : DWord := Sparse.get 0 s.sync i.toNat
/-- Set it. -/
def State.setSync (s : State) (i : SyncObj) (v : DWord) : State :=
  { s with sync := Sparse.set 0 s.sync i.toNat v }

/-- A fresh free value's number: the model's own counter advances. -/
def State.bumpFree (s : State) : State := { s with freeCount := s.freeCount + 1 }

/-- The device is powered and out of reset: PWR_GOOD is asserted and RESET_n is high (R442, R445). -/
def State.live (s : State) : Bool := s.power.pwrGood && !s.power.resetLow

/-- The four partitions, in order. -/
def allParts : List Part := [0, 1, 2, 3]
/-- The four compute dies, in order. -/
def allDies : List Die := [0, 1, 2, 3]
/-- The four RCL ports, in order. -/
def allRPorts : List RPort := [0, 1, 2, 3]
/-- The fabric ports, in order. -/
def allFPorts : List FPort := List.finRange 32

/-- Change one partition. -/
def State.onPart (s : State) (p : Part) (f : Partition → Partition) : State := s.setPart p (f (s.part p))
/-- Change one fabric port. -/
def State.onFab (s : State) (n : FPort) (f : FabPort → FabPort) : State := s.setFab n (f (s.fab n))
/-- Change one RCL port. -/
def State.onRcl (s : State) (k : RPort) (f : RclPort → RclPort) : State := s.setRcl k (f (s.rclPort k))
/-- Change one die. -/
def State.onDie (s : State) (d : Die) (f : DieState → DieState) : State := s.setDie d (f (s.die d))
/-- Change a partition's Assize. -/
def State.onAssize (s : State) (p : Part) (f : Assize → Assize) : State :=
  s.onPart p (fun q => { q with assize := f q.assize })
/-- Change a partition's Update Die state. -/
def State.onUpdate (s : State) (p : Part) (f : Update → Update) : State :=
  s.onPart p (fun q => { q with update := f q.update })

end Sys2Proof.Machine
end

