-- ==== Sys2Proof/Machine/Regs.lean ====
section
/-! DEFINITION. The MMIO registers (R491-R514): one row for each register of the Register Reference with
its block, offset, copies, width, writable bits, access and reset value, and the reads and writes of the
stored values. -/

namespace Sys2Proof.Machine

/-- The registers of Tables 18.2 to 18.22 (arrays and set counts too). -/
inductive RegName where
  | hifSqBase | hifSqSize | hifRqBase | hifRqSize | hifSqTail | hifSqHead | hifRqTail | hifRqHead
  | partShape | partEntry | partState | partCtrl | partSeed | partStep
  | survDescBase | survSlotBase | survLogBase | survLogSize | survLogHead | survLogTail | survLogLost
  | survPrefetchLead | survKvGrowObj | survArenaBase | survArenaSize
  | gauHeldDepth | gauMerges | gauSrcBase
  | aszCtrl | aszStatus | aszGroupBase | aszGroupCount | aszWatchBase | aszWatchCount | aszWordBase
  | aszPromoteClr | aszThresh | aszUflow | aszRun | aszSilent | aszColdSteps
  | govCapWatts | govBoardCap | govMeasWatts | govStatus | govStatusCounts | govDieState | govPhaseOp
  | clkDie | clkIodRoot
  | fabRank | fabDomain | fabUncorrLimit | fabRetrainLimit | fabVcWeight | fabViolLimit
  | fabPortCtrl | fabPortStatus | fabLaneFailed | fabNbrId | fabNbrRank | fabNbrPort | fabLinkErrors
  | fabViolCount
  | colBucketBase | colWindow | colCheckStride | colRoundTimeout
  | rclRetrainLimit | rclCrcLimit | rclSnoopTimeout | rclViolLimit | rclEvtHoldoff
  | rclPortCtrl | rclPortStatus | rclLaneFailed | rclLinkErrors | rclViolCount | rclWritesLost
  | rclWritesLostAddr | rclPeerId | rclCohCtrl | rclCohBase | rclCohSize | rclEvtMap
  | updStateBase | updStateSize | updPtabBase | updPtabCount | updMirrorBase | updMirrorSize
  | updMirrorPort | updMirrorSrc | updCkptNumber | updAszSave
  | evtCtrl | evtBase | evtSize | evtHead | evtTail | evtSeq | evtLost | evtSharedOwner | evtTime
  | secBootStatus | secLock | secFuseState | secFuseKeys | secKeyRevoke | secSvnCommit | secRecoveryCtrl
  | secFlashCtrl | secFlashBuf | secFwrBase | secFwrSize | secIdEdPub | secIdMlPub | secMeas
  | secAttestNonce | secAttestAddr | secAttestStatus | secAttestCtrl
  | mgtStatus | mgtAlertStatus | mgtAlertCounts | mgtAlertMask
  | dbgStopCtrl | dbgStopCount | dbgStopResume | dbgIdcode | dbgWaitLimit | dbgDumpAddr
deriving DecidableEq, Repr

/-- How a register is written (Table 0.3, R495, R509, R510). `own` marks a register whose write has a
behaviour of its own. -/
inductive Access where
  | ro | rw | rwl | stopped | idle | wo | own
deriving DecidableEq, Repr

/-- A bounded field: bits `hi:lo` with the least and greatest value the reference gives; `pow2` for a
size that must be a power of two (R495). -/
structure Bounds where
  hi   : Nat
  lo   : Nat
  min  : Nat
  max  : Nat
  pow2 : Bool
deriving DecidableEq, Repr

/-- One row of the register reference: block, offset, copies (`count` at `stride`, each of `sub` at
`substride`), whether it is 64 bits wide, the bits a write may set, its reset value and its access. -/
structure RegRow where
  block     : Nat
  base      : Nat
  count     : Nat := 1
  stride    : Nat := 0x100000
  sub       : Nat := 1
  substride : Nat := 1
  wide      : Bool
  mask      : Nat
  reset     : Nat := 0
  access    : Access
  bounds    : List Bounds := []
deriving DecidableEq, Repr

/-- Bits 31:0, 47:0 and 63:0. -/
def m32 : Nat := 0xFFFFFFFF
def m48 : Nat := 0xFFFFFFFFFFFF
def m64 : Nat := 0xFFFFFFFFFFFFFFFF

/-- A ring size of 64 to 65,536 entries, a power of two. -/
def ringSize : List Bounds := [⟨31, 0, 64, 65536, true⟩]

/-- The rows of blocks HIF to SURV (Tables 18.2 to 18.4). -/
def RegName.row1 : RegName → Option RegRow
  | .hifSqBase => some { block := 0, base := 0x00, count := 64, stride := 0x40, wide := true, mask := m48, access := .stopped }
  | .hifSqSize => some { block := 0, base := 0x08, count := 64, stride := 0x40, wide := false, mask := m32, reset := 64, access := .stopped, bounds := ringSize }
  | .hifRqBase => some { block := 0, base := 0x10, count := 64, stride := 0x40, wide := true, mask := m48, access := .stopped }
  | .hifRqSize => some { block := 0, base := 0x18, count := 64, stride := 0x40, wide := false, mask := m32, reset := 64, access := .stopped, bounds := ringSize }
  | .hifSqTail => some { block := 0, base := 0x20, count := 64, stride := 0x40, wide := false, mask := m32, access := .own }
  | .hifSqHead => some { block := 0, base := 0x28, count := 64, stride := 0x40, wide := false, mask := 0, access := .ro }
  | .hifRqTail => some { block := 0, base := 0x30, count := 64, stride := 0x40, wide := false, mask := 0, access := .ro }
  | .hifRqHead => some { block := 0, base := 0x38, count := 64, stride := 0x40, wide := false, mask := m32, access := .own }
  | .partShape => some { block := 1, base := 0x0000, wide := false, mask := 3, access := .rwl }
  | .partEntry => some { block := 1, base := 0x0100, count := 4, stride := 0x80, sub := 16, substride := 8, wide := true, mask := m64, access := .rwl }
  | .partState => some { block := 1, base := 0x1000, count := 4, stride := 0x100, wide := false, mask := 0, reset := 3, access := .ro }
  | .partCtrl => some { block := 1, base := 0x1008, count := 4, stride := 0x100, wide := false, mask := 3, access := .own }
  | .partSeed => some { block := 1, base := 0x1010, count := 4, stride := 0x100, wide := true, mask := m64, access := .stopped }
  | .partStep => some { block := 1, base := 0x1018, count := 4, stride := 0x100, wide := true, mask := m64, access := .stopped }
  | .survDescBase => some { block := 2, base := 0x00, count := 4, stride := 0x40000, wide := true, mask := 0, access := .ro }
  | .survSlotBase => some { block := 2, base := 0x08, count := 4, stride := 0x40000, wide := true, mask := 0, access := .ro }
  | .survLogBase => some { block := 2, base := 0x10, count := 4, stride := 0x40000, wide := true, mask := m48, access := .stopped }
  | .survLogSize => some { block := 2, base := 0x18, count := 4, stride := 0x40000, wide := false, mask := m32, reset := 64, access := .stopped, bounds := ringSize }
  | .survLogHead => some { block := 2, base := 0x20, count := 4, stride := 0x40000, wide := false, mask := 0, access := .ro }
  | .survLogTail => some { block := 2, base := 0x28, count := 4, stride := 0x40000, wide := false, mask := m32, access := .own }
  | .survLogLost => some { block := 2, base := 0x30, count := 4, stride := 0x40000, wide := false, mask := 0, access := .ro }
  | .survPrefetchLead => some { block := 2, base := 0x38, count := 4, stride := 0x40000, wide := false, mask := 0xF, reset := 2, access := .rw, bounds := [⟨31, 0, 1, 15, false⟩] }
  | .survKvGrowObj => some { block := 2, base := 0x40, count := 4, stride := 0x40000, wide := false, mask := 0x7FFF, access := .rw }
  | .survArenaBase => some { block := 2, base := 0x80, count := 4, stride := 0x40000, sub := 4, substride := 0x10, wide := true, mask := m48, access := .stopped }
  | .survArenaSize => some { block := 2, base := 0x88, count := 4, stride := 0x40000, sub := 4, substride := 0x10, wide := true, mask := m48, access := .stopped }
  | _ => none

/-- The rows of blocks GAU to CLK (Tables 18.5, 18.6, 18.9, 18.11). -/
def RegName.row2 : RegName → Option RegRow
  | .gauHeldDepth => some { block := 3, base := 0x0000, count := 4, stride := 0x100, wide := false, mask := 0, access := .ro }
  | .gauMerges => some { block := 3, base := 0x0008, count := 4, stride := 0x100, wide := true, mask := 0, access := .ro }
  | .gauSrcBase => some { block := 3, base := 0x1000, count := 4, stride := 0x100, wide := true, mask := 0, access := .ro }
  | .aszCtrl => some { block := 4, base := 0x00, count := 4, stride := 0x40000, wide := false, mask := 3, access := .own }
  | .aszStatus => some { block := 4, base := 0x08, count := 4, stride := 0x40000, wide := false, mask := 0, reset := 0x00030000, access := .ro }
  | .aszGroupBase => some { block := 4, base := 0x10, count := 4, stride := 0x40000, wide := true, mask := m48, access := .rw }
  | .aszGroupCount => some { block := 4, base := 0x18, count := 4, stride := 0x40000, wide := false, mask := 0x1FFF, access := .rw, bounds := [⟨31, 0, 0, 4096, false⟩] }
  | .aszWatchBase => some { block := 4, base := 0x20, count := 4, stride := 0x40000, wide := true, mask := m48, access := .rw }
  | .aszWatchCount => some { block := 4, base := 0x28, count := 4, stride := 0x40000, wide := false, mask := 0x7FFF, access := .rw, bounds := [⟨31, 0, 0, 16384, false⟩] }
  | .aszWordBase => some { block := 4, base := 0x30, count := 4, stride := 0x40000, wide := true, mask := m48, access := .stopped }
  | .aszPromoteClr => some { block := 4, base := 0x38, count := 4, stride := 0x40000, wide := false, mask := 0xFFF, access := .own }
  | .aszThresh => some { block := 4, base := 0x40, count := 4, stride := 0x40000, sub := 3, substride := 8, wide := true, mask := 0x00FFFFFF00FFFFFF, reset := 0x0000400000000400, access := .rw, bounds := [⟨55, 32, 1, 16777215, false⟩] }
  | .aszUflow => some { block := 4, base := 0x58, count := 4, stride := 0x40000, sub := 3, substride := 8, wide := true, mask := 0x00FFFFFF00FFFFFF, reset := 0x0004000000008000, access := .rw, bounds := [⟨55, 32, 1, 16777215, false⟩] }
  | .aszRun => some { block := 4, base := 0x70, count := 4, stride := 0x40000, sub := 3, substride := 8, wide := true, mask := 0x000000FF0000FFFF, reset := 0x0000000200000020, access := .rw, bounds := [⟨39, 32, 1, 255, false⟩, ⟨15, 0, 1, 65535, false⟩] }
  | .aszSilent => some { block := 4, base := 0x88, count := 4, stride := 0x40000, wide := true, mask := 0x01FFFFFF0000FFFF, reset := 0x00FFBE7700000040, access := .rw, bounds := [⟨56, 32, 1, 16777216, false⟩, ⟨15, 0, 1, 65535, false⟩] }
  | .aszColdSteps => some { block := 4, base := 0x90, count := 4, stride := 0x40000, wide := false, mask := 0xFFFF, reset := 64, access := .rw }
  | .govCapWatts => some { block := 5, base := 0x000, wide := false, mask := 0xFFF, reset := 2100, access := .own, bounds := [⟨31, 0, 600, 2100, false⟩] }
  | .govBoardCap => some { block := 5, base := 0x008, wide := false, mask := 0xFFF, reset := 2100, access := .own, bounds := [⟨31, 0, 600, 2100, false⟩] }
  | .govMeasWatts => some { block := 5, base := 0x010, wide := false, mask := 0, access := .ro }
  | .govStatus => some { block := 5, base := 0x018, wide := false, mask := 7, access := .own }
  | .govStatusCounts => some { block := 5, base := 0x020, wide := true, mask := 0, access := .ro }
  | .govDieState => some { block := 5, base := 0x100, count := 4, stride := 8, wide := false, mask := 0, reset := 0x0000170B, access := .ro }
  | .govPhaseOp => some { block := 5, base := 0x200, count := 4, stride := 8, wide := false, mask := 0xFFFFFF, reset := 0x0000000B, access := .rw }
  | .clkDie => some { block := 6, base := 0x00, count := 4, stride := 8, wide := false, mask := 0, reset := 0x000B044C, access := .ro }
  | .clkIodRoot => some { block := 6, base := 0x20, wide := false, mask := 0, reset := 4000, access := .ro }
  | _ => none

/-- The rows of blocks FAB and COL (Tables 18.12, 18.13). -/
def RegName.row3 : RegName → Option RegRow
  | .fabRank => some { block := 7, base := 0x000, wide := false, mask := m32, reset := 0xFFFFFFFF, access := .own }
  | .fabDomain => some { block := 7, base := 0x008, wide := false, mask := m32, access := .own }
  | .fabUncorrLimit => some { block := 7, base := 0x010, wide := false, mask := 0xFFFF, reset := 16, access := .rw, bounds := [⟨31, 0, 1, 65535, false⟩] }
  | .fabRetrainLimit => some { block := 7, base := 0x018, wide := false, mask := 0x3FFF, reset := 100, access := .rw, bounds := [⟨31, 0, 1, 10000, false⟩] }
  | .fabVcWeight => some { block := 7, base := 0x020, wide := false, mask := m32, reset := 0x01020408, access := .rw, bounds := [⟨7, 0, 1, 255, false⟩, ⟨15, 8, 1, 255, false⟩, ⟨23, 16, 1, 255, false⟩, ⟨31, 24, 1, 255, false⟩] }
  | .fabViolLimit => some { block := 7, base := 0x028, wide := false, mask := 0xFFFF, reset := 64, access := .rw, bounds := [⟨31, 0, 1, 65535, false⟩] }
  | .fabPortCtrl => some { block := 7, base := 0x1000, count := 32, stride := 0x40, wide := false, mask := 7, access := .own }
  | .fabPortStatus => some { block := 7, base := 0x1008, count := 32, stride := 0x40, wide := false, mask := 0, reset := 0xF0, access := .ro }
  | .fabLaneFailed => some { block := 7, base := 0x1010, count := 32, stride := 0x40, wide := false, mask := 0, access := .ro }
  | .fabNbrId => some { block := 7, base := 0x1018, count := 32, stride := 0x40, wide := true, mask := 0, access := .ro }
  | .fabNbrRank => some { block := 7, base := 0x1020, count := 32, stride := 0x40, wide := false, mask := 0, reset := 0xFFFFFFFF, access := .ro }
  | .fabNbrPort => some { block := 7, base := 0x1028, count := 32, stride := 0x40, wide := true, mask := 0, access := .ro }
  | .fabLinkErrors => some { block := 7, base := 0x1030, count := 32, stride := 0x40, wide := true, mask := 0, access := .ro }
  | .fabViolCount => some { block := 7, base := 0x1038, count := 32, stride := 0x40, wide := true, mask := 0, access := .ro }
  | .colBucketBase => some { block := 8, base := 0x00, count := 4, stride := 0x40000, wide := true, mask := m48, access := .stopped }
  | .colWindow => some { block := 8, base := 0x08, count := 4, stride := 0x40000, wide := false, mask := 0x1F, reset := 8, access := .rw, bounds := [⟨31, 0, 1, 16, false⟩] }
  | .colCheckStride => some { block := 8, base := 0x10, count := 4, stride := 0x40000, wide := false, mask := 0xFFFF, reset := 256, access := .rw, bounds := [⟨31, 0, 1, 65535, false⟩] }
  | .colRoundTimeout => some { block := 8, base := 0x18, count := 4, stride := 0x40000, wide := false, mask := 0xFFFF, reset := 1000, access := .rw, bounds := [⟨31, 0, 1, 60000, false⟩] }
  | _ => none

/-- The rows of blocks RCL and UPD (Tables 18.14, 18.15). -/
def RegName.row4 : RegName → Option RegRow
  | .rclRetrainLimit => some { block := 9, base := 0x000, wide := false, mask := 0x3FFF, reset := 100, access := .rw, bounds := [⟨31, 0, 1, 10000, false⟩] }
  | .rclCrcLimit => some { block := 9, base := 0x008, wide := false, mask := 0xFFFF, reset := 64, access := .rw }
  | .rclSnoopTimeout => some { block := 9, base := 0x010, wide := false, mask := 0x1FFFF, reset := 1000, access := .rw, bounds := [⟨31, 0, 10, 100000, false⟩] }
  | .rclViolLimit => some { block := 9, base := 0x018, wide := false, mask := 0xFFFF, reset := 32, access := .rw }
  | .rclEvtHoldoff => some { block := 9, base := 0x020, wide := false, mask := 0xFF, reset := 2, access := .rw }
  | .rclPortCtrl => some { block := 9, base := 0x1000, count := 4, stride := 0x400, wide := false, mask := 7, access := .own }
  | .rclPortStatus => some { block := 9, base := 0x1008, count := 4, stride := 0x400, wide := false, mask := 0, reset := 0x70F0, access := .ro }
  | .rclLaneFailed => some { block := 9, base := 0x1010, count := 4, stride := 0x400, wide := false, mask := 0, access := .ro }
  | .rclLinkErrors => some { block := 9, base := 0x1018, count := 4, stride := 0x400, wide := true, mask := 0, access := .ro }
  | .rclViolCount => some { block := 9, base := 0x1020, count := 4, stride := 0x400, wide := true, mask := 0, access := .ro }
  | .rclWritesLost => some { block := 9, base := 0x1028, count := 4, stride := 0x400, wide := false, mask := 0, access := .ro }
  | .rclWritesLostAddr => some { block := 9, base := 0x1030, count := 4, stride := 0x400, wide := true, mask := 0, access := .ro }
  | .rclPeerId => some { block := 9, base := 0x1038, count := 4, stride := 0x400, wide := true, mask := 0, access := .ro }
  | .rclCohCtrl => some { block := 9, base := 0x1040, count := 4, stride := 0x400, wide := false, mask := 0xFF, access := .own }
  | .rclCohBase => some { block := 9, base := 0x1080, count := 4, stride := 0x400, sub := 8, substride := 0x10, wide := true, mask := m48, access := .own }
  | .rclCohSize => some { block := 9, base := 0x1088, count := 4, stride := 0x400, sub := 8, substride := 0x10, wide := true, mask := m48, access := .own }
  | .rclEvtMap => some { block := 9, base := 0x1100, count := 4, stride := 0x400, sub := 32, substride := 4, wide := false, mask := 0xFF, access := .rw }
  | .updStateBase => some { block := 10, base := 0x00, count := 4, stride := 0x40000, wide := true, mask := m48, access := .idle }
  | .updStateSize => some { block := 10, base := 0x08, count := 4, stride := 0x40000, wide := true, mask := m48, access := .idle }
  | .updPtabBase => some { block := 10, base := 0x10, count := 4, stride := 0x40000, wide := true, mask := m48, access := .idle }
  | .updPtabCount => some { block := 10, base := 0x18, count := 4, stride := 0x40000, wide := false, mask := 0x7FFF, access := .idle, bounds := [⟨31, 0, 0, 16384, false⟩] }
  | .updMirrorBase => some { block := 10, base := 0x20, count := 4, stride := 0x40000, wide := true, mask := m48, access := .idle }
  | .updMirrorSize => some { block := 10, base := 0x28, count := 4, stride := 0x40000, wide := true, mask := m48, access := .idle }
  | .updMirrorPort => some { block := 10, base := 0x30, count := 4, stride := 0x40000, wide := false, mask := 0xFF, reset := 0xFF, access := .idle }
  | .updMirrorSrc => some { block := 10, base := 0x38, count := 4, stride := 0x40000, wide := false, mask := m32, reset := 0xFFFFFFFF, access := .idle }
  | .updCkptNumber => some { block := 10, base := 0x40, count := 4, stride := 0x40000, wide := false, mask := 0, access := .ro }
  | .updAszSave => some { block := 10, base := 0x48, count := 4, stride := 0x40000, wide := true, mask := m48, access := .idle }
  | _ => none

/-- The rows of blocks EVT to DBG (Tables 18.16 to 18.22). The fused and derived registers read 0 until
the boot ROM starts (R498). The stepping is B0; the identity of the maker in DBG_IDCODE is 0 here
(DESIGN CHOICE, log 8: the spec gives no number). -/
def RegName.row5 : RegName → Option RegRow
  | .evtCtrl => some { block := 11, base := 0x00, count := 0x2000, stride := 0x40, wide := false, mask := 1, access := .own }
  | .evtBase => some { block := 11, base := 0x08, count := 0x2000, stride := 0x40, wide := true, mask := m48, access := .own }
  | .evtSize => some { block := 11, base := 0x10, count := 0x2000, stride := 0x40, wide := false, mask := m32, reset := 64, access := .own, bounds := ringSize }
  | .evtHead => some { block := 11, base := 0x18, count := 0x2000, stride := 0x40, wide := false, mask := m32, access := .own }
  | .evtTail => some { block := 11, base := 0x20, count := 0x2000, stride := 0x40, wide := false, mask := 0, access := .ro }
  | .evtSeq => some { block := 11, base := 0x28, count := 0x2000, stride := 0x40, wide := false, mask := 0, access := .ro }
  | .evtLost => some { block := 11, base := 0x30, count := 0x2000, stride := 0x40, wide := false, mask := 0, access := .ro }
  | .evtSharedOwner => some { block := 11, base := 0x80000, wide := false, mask := 3, access := .rwl }
  | .evtTime => some { block := 11, base := 0x80100, count := 7, stride := 8, wide := true, mask := 0, access := .ro }
  | .secBootStatus => some { block := 12, base := 0x0000, wide := false, mask := 0, reset := 0x30000000, access := .ro }
  | .secLock => some { block := 12, base := 0x0008, wide := false, mask := 1, access := .own }
  | .secFuseState => some { block := 12, base := 0x0010, wide := false, mask := 0, access := .ro }
  | .secFuseKeys => some { block := 12, base := 0x0100, count := 4, stride := 0x48, sub := 9, substride := 8, wide := true, mask := 0, access := .ro }
  | .secKeyRevoke => some { block := 12, base := 0x0300, wide := false, mask := 3, access := .own }
  | .secSvnCommit => some { block := 12, base := 0x0308, wide := false, mask := 0x7F, access := .own }
  | .secRecoveryCtrl => some { block := 12, base := 0x0310, wide := false, mask := 1, access := .own }
  | .secFlashCtrl => some { block := 12, base := 0x0400, wide := true, mask := 0xFFFFFFFF1FFF0000, access := .own }
  | .secFlashBuf => some { block := 12, base := 0x1000, sub := 512, substride := 8, wide := true, mask := m64, access := .own }
  | .secFwrBase => some { block := 12, base := 0x2000, count := 4, stride := 0x10, wide := true, mask := m48, access := .rwl }
  | .secFwrSize => some { block := 12, base := 0x2008, count := 4, stride := 0x10, wide := true, mask := m48, access := .rwl }
  | .secIdEdPub => some { block := 12, base := 0x3000, sub := 4, substride := 8, wide := true, mask := 0, access := .ro }
  | .secIdMlPub => some { block := 12, base := 0x3100, sub := 244, substride := 8, wide := true, mask := 0, access := .ro }
  | .secMeas => some { block := 12, base := 0x4000, count := 3, stride := 0x40, sub := 8, substride := 8, wide := true, mask := 0, access := .ro }
  | .secAttestNonce => some { block := 12, base := 0x5000, count := 5, stride := 0x100, sub := 8, substride := 8, wide := true, mask := m64, access := .rw }
  | .secAttestAddr => some { block := 12, base := 0x5040, count := 5, stride := 0x100, wide := true, mask := m48, access := .rw }
  | .secAttestStatus => some { block := 12, base := 0x5048, count := 5, stride := 0x100, wide := true, mask := 0, access := .ro }
  | .secAttestCtrl => some { block := 12, base := 0x5050, count := 5, stride := 0x100, wide := false, mask := 1, access := .own }
  | .mgtStatus => some { block := 13, base := 0x00, wide := false, mask := 0, reset := 0x00001F00, access := .ro }
  | .mgtAlertStatus => some { block := 13, base := 0x08, wide := false, mask := 0x3FF, access := .own }
  | .mgtAlertCounts => some { block := 13, base := 0x10, sub := 3, substride := 8, wide := true, mask := 0, access := .ro }
  | .mgtAlertMask => some { block := 13, base := 0x28, wide := false, mask := 0x3FF, reset := 0x3FF, access := .rw }
  | .dbgStopCtrl => some { block := 14, base := 0x00, count := 16, stride := 0x20, wide := false, mask := 0x80037FFF, access := .own }
  | .dbgStopCount => some { block := 14, base := 0x08, count := 16, stride := 0x20, wide := false, mask := m32, access := .own }
  | .dbgStopResume => some { block := 14, base := 0x10, count := 16, stride := 0x20, wide := false, mask := 1, access := .own }
  | .dbgIdcode => some { block := 14, base := 0x1000, wide := false, mask := 0, reset := 0x17240001, access := .ro }
  | .dbgWaitLimit => some { block := 14, base := 0x80000, count := 4, stride := 0x100, wide := false, mask := 0xFFFF, access := .rw }
  | .dbgDumpAddr => some { block := 14, base := 0x80008, count := 4, stride := 0x100, wide := true, mask := m48, access := .rw }
  | _ => none

/-- A register's row. Every register has one (the last default is never reached). -/
def RegName.row (r : RegName) : RegRow :=
  match r.row1, r.row2, r.row3, r.row4, r.row5 with
  | some x, _, _, _, _ => x
  | _, some x, _, _, _ => x
  | _, _, some x, _, _ => x
  | _, _, _, some x, _ => x
  | _, _, _, _, some x => x
  | _, _, _, _, _ => { block := 15, base := 0, wide := false, mask := 0, access := .ro }

/-- A register named: which copy, and which word of it. -/
structure RegAt where
  reg : RegName
  i   : Nat
  j   : Nat
deriving DecidableEq, Repr

/-- The offset of copy `i`, word `j` of a register in the MMIO range (R491, R493). -/
def RegName.offset (r : RegName) (i j : Nat) : Nat :=
  r.row.block * 0x100000 + r.row.base + i * r.row.stride + j * r.row.substride

/-- Which copy and word of a row a block offset falls on. -/
def RegRow.match? (w : RegRow) (block off : Nat) : Option (Nat × Nat) :=
  if w.block = block ∧ w.base ≤ off then
    let i := (off - w.base) / w.stride
    let rem := (off - w.base) % w.stride
    let j := rem / w.substride
    if i < w.count ∧ j < w.sub ∧ rem % w.substride = 0 then some (i, j) else none
  else none

/-- The registers of blocks HIF to GAU. -/
def regs1 : List RegName :=
  [.hifSqBase, .hifSqSize, .hifRqBase, .hifRqSize, .hifSqTail, .hifSqHead, .hifRqTail, .hifRqHead,
   .partShape, .partEntry, .partState, .partCtrl, .partSeed, .partStep,
   .survDescBase, .survSlotBase, .survLogBase, .survLogSize, .survLogHead, .survLogTail, .survLogLost,
   .survPrefetchLead, .survKvGrowObj, .survArenaBase, .survArenaSize, .gauHeldDepth, .gauMerges,
   .gauSrcBase]

/-- The registers of blocks ASZ to CLK. -/
def regs2 : List RegName :=
  [.aszCtrl, .aszStatus, .aszGroupBase, .aszGroupCount, .aszWatchBase, .aszWatchCount, .aszWordBase,
   .aszPromoteClr, .aszThresh, .aszUflow, .aszRun, .aszSilent, .aszColdSteps,
   .govCapWatts, .govBoardCap, .govMeasWatts, .govStatus, .govStatusCounts, .govDieState, .govPhaseOp,
   .clkDie, .clkIodRoot]

/-- The registers of blocks FAB and COL. -/
def regs3 : List RegName :=
  [.fabRank, .fabDomain, .fabUncorrLimit, .fabRetrainLimit, .fabVcWeight, .fabViolLimit,
   .fabPortCtrl, .fabPortStatus, .fabLaneFailed, .fabNbrId, .fabNbrRank, .fabNbrPort, .fabLinkErrors,
   .fabViolCount, .colBucketBase, .colWindow, .colCheckStride, .colRoundTimeout]

/-- The registers of blocks RCL and UPD. -/
def regs4 : List RegName :=
  [.rclRetrainLimit, .rclCrcLimit, .rclSnoopTimeout, .rclViolLimit, .rclEvtHoldoff,
   .rclPortCtrl, .rclPortStatus, .rclLaneFailed, .rclLinkErrors, .rclViolCount, .rclWritesLost,
   .rclWritesLostAddr, .rclPeerId, .rclCohCtrl, .rclCohBase, .rclCohSize, .rclEvtMap,
   .updStateBase, .updStateSize, .updPtabBase, .updPtabCount, .updMirrorBase, .updMirrorSize,
   .updMirrorPort, .updMirrorSrc, .updCkptNumber, .updAszSave]

/-- The registers of blocks EVT to DBG. -/
def regs5 : List RegName :=
  [.evtCtrl, .evtBase, .evtSize, .evtHead, .evtTail, .evtSeq, .evtLost, .evtSharedOwner, .evtTime,
   .secBootStatus, .secLock, .secFuseState, .secFuseKeys, .secKeyRevoke, .secSvnCommit, .secRecoveryCtrl,
   .secFlashCtrl, .secFlashBuf, .secFwrBase, .secFwrSize, .secIdEdPub, .secIdMlPub, .secMeas,
   .secAttestNonce, .secAttestAddr, .secAttestStatus, .secAttestCtrl,
   .mgtStatus, .mgtAlertStatus, .mgtAlertCounts, .mgtAlertMask,
   .dbgStopCtrl, .dbgStopCount, .dbgStopResume, .dbgIdcode, .dbgWaitLimit, .dbgDumpAddr]

/-- Every register, in the order of the reference. -/
def allRegs : List RegName := regs1 ++ regs2 ++ regs3 ++ regs4 ++ regs5

/-- The event sources that exist are those of Table 17.1; the registers of any other identifier are
unmapped (R470). -/
def sourceExists (n : Nat) : Bool :=
  (n < 0x1000 && n % 1024 / 8 < 80 && n % 8 < 5) || (0x1000 ≤ n && n < 0x1004) || (0x1010 ≤ n && n < 0x1014)
    || (0x1020 ≤ n && n < 0x1024) || (0x1030 ≤ n && n < 0x1050) || (0x1050 ≤ n && n < 0x1054)
    || (0x1060 ≤ n && n < 0x1062) || n = 0x1070 || n = 0x1080 || n = 0x1090
    || (0x10A0 ≤ n && n < 0x10A8) || n = 0x10B0 || (0x10C0 ≤ n && n < 0x10C2)

/-- The register at an offset of the MMIO range, if one starts there (R9, R491). -/
def regAt (off : Nat) : Option RegAt :=
  (allRegs.findSome? (fun r =>
    (r.row.match? (off / 0x100000) (off % 0x100000)).map (fun ij => RegAt.mk r ij.1 ij.2))).filter
    (fun a => !(decide (a.reg.row.block = 11 ∧ a.reg ≠ .evtSharedOwner ∧ a.reg ≠ .evtTime)) || sourceExists a.i)

/-- The stored value of a register. -/
def State.reg (s : State) (r : RegName) (i : Nat := 0) (j : Nat := 0) : DWord :=
  Sparse.get (BitVec.ofNat 64 r.row.reset) s.regs (r.offset i j)
/-- The stored value as a number. -/
def State.regN (s : State) (r : RegName) (i : Nat := 0) (j : Nat := 0) : Nat := (s.reg r i j).toNat
/-- Set the stored value. -/
def State.setReg (s : State) (r : RegName) (i j : Nat) (v : DWord) : State :=
  { s with regs := Sparse.set (BitVec.ofNat 64 r.row.reset) s.regs (r.offset i j) v }
/-- Set the stored value to a number. -/
def State.setRegN (s : State) (r : RegName) (i j : Nat) (v : Nat) : State := s.setReg r i j (BitVec.ofNat 64 v)

/-- The largest power of two at or below `n`, found from `2^k` down. -/
def pow2Below (n : Nat) : Nat → Nat
  | 0 => 1
  | k + 1 => if 2 ^ (k + 1) ≤ n then 2 ^ (k + 1) else pow2Below n k

/-- A field's value brought within its bounds (R495). -/
def Bounds.clamp (b : Bounds) (v : Nat) : Nat :=
  let x := Nat.min (Nat.max v b.min) b.max
  if b.pow2 then pow2Below x 31 else x

/-- A written value with every bounded field brought within its bounds (R495). -/
def clampAll (bs : List Bounds) (v : Nat) : Nat :=
  bs.foldl (fun a b =>
    let f := bitsOf a b.hi b.lo
    a - f * 2 ^ b.lo + b.clamp f * 2 ^ b.lo) v

/-- What a register holds after a plain write: reserved bits as before (they read 0, R7), each field
within its bounds (R495). -/
def RegRow.written (w : RegRow) (old new : Nat) : Nat :=
  clampAll w.bounds ((old - (old &&& w.mask)) + (new &&& w.mask))

/-- Set flag `bit` of a W1C register and advance its 16-bit set count (R6, R496). -/
def State.setFlag (s : State) (r counts : RegName) (bit : Nat) : State :=
  let v := s.regN r
  let s := s.setRegN r 0 0 (v ||| 2 ^ bit)
  let c := s.regN counts 0 (bit / 4)
  let sh := 16 * (bit % 4)
  let n := bitsOf c (sh + 15) sh
  s.setRegN counts 0 (bit / 4) (c - n * 2 ^ sh + (n + 1) % 0x10000 * 2 ^ sh)

/-- Clear the flags written 1 in a W1C register (Table 0.3). -/
def State.clearFlags (s : State) (r : RegName) (v : Nat) : State :=
  s.setReg r 0 0 (s.reg r &&& ~~~ (BitVec.ofNat 64 v))

end Sys2Proof.Machine
end

