-- ==== Sys2Proof/Machine/Part.lean ====
section
/-! DEFINITION. The partition table (R391-R393): the fields of a partition's entry, and which partition a
die, stack, ring, port, object or event source belongs to. -/

namespace Sys2Proof.Machine

/-- A partition table entry as one number, byte 0 lowest (Table 14.2, R497). -/
def State.entry (s : State) (p : Part) : Nat :=
  (upTo 16).foldr (fun j a => s.regN .partEntry p.val j + 2 ^ 64 * a) 0

/-- Bits `hi:lo` of byte field `b` of an entry. -/
def State.entryBits (s : State) (p : Part) (b hi lo : Nat) : Nat := bitsOf (s.entry p) (8 * b + hi) (8 * b + lo)

/-- valid. -/
def State.partValid (s : State) (p : Part) : Bool := s.entryBits p 0 0 0 = 1
/-- Die mask: bit d for CDd. -/
def State.dieMask (s : State) (p : Part) : Nat := s.entryBits p 0 7 4
/-- Stack mask: bit h for Hh. -/
def State.stackMask (s : State) (p : Part) : Nat := s.entryBits p 0 15 8
/-- RCL ports A-D. -/
def State.rclMask (s : State) (p : Part) : Nat := s.entryBits p 0 19 16
/-- First ring. -/
def State.ringFirst (s : State) (p : Part) : Nat := s.entryBits p 0 25 20
/-- Fabric ports usable by the partition. -/
def State.fabPorts (s : State) (p : Part) : Nat := s.entryBits p 4 31 0
/-- First sync object. -/
def State.syncFirst (s : State) (p : Part) : Nat := s.entryBits p 8 14 0
/-- Sync objects. -/
def State.syncCount (s : State) (p : Part) : Nat := s.entryBits p 10 15 0
/-- First sequence slot. -/
def State.slotFirst (s : State) (p : Part) : Nat := s.entryBits p 12 15 0
/-- Sequence slots. -/
def State.slotCount (s : State) (p : Part) : Nat := s.entryBits p 14 15 0
/-- First Reserve frame of the share. -/
def State.reserveFirst (s : State) (p : Part) : Nat := s.entryBits p 16 31 0
/-- Reserve frames of the share. -/
def State.reserveFrames (s : State) (p : Part) : Nat := s.entryBits p 20 31 0
/-- Chunk buffers on each collective engine. -/
def State.colBuffers (s : State) (p : Part) : Nat := s.entryBits p 24 15 0
/-- Sixteenths of each listed fabric port. -/
def State.fabShare (s : State) (p : Part) : Nat := s.entryBits p 26 7 0
/-- Sixteenths of each collective engine's combining bandwidth. -/
def State.colShare (s : State) (p : Part) : Nat := s.entryBits p 27 7 0
/-- Sixteenths of Update Die lanes and Reserve bandwidth. -/
def State.updShare (s : State) (p : Part) : Nat := s.entryBits p 28 7 0
/-- Sixteenths of each bound link port's cells kept for host traffic. -/
def State.migShare (s : State) (p : Part) : Nat := s.entryBits p 29 7 0
/-- Power weight. -/
def State.powerWeight (s : State) (p : Part) : Nat := s.entryBits p 30 7 0
/-- Ring pairs. -/
def State.ringCount (s : State) (p : Part) : Nat := s.entryBits p 31 7 0
/-- Requests that may wait on each resource. -/
def State.queueBound (s : State) (p : Part) : Nat := s.entryBits p 32 15 0
/-- Granted MMIO blocks. -/
def State.mmioGrant (s : State) (p : Part) : Nat := s.entryBits p 34 15 0
/-- Partitions that may be REQUANT_COPY destinations. -/
def State.handover (s : State) (p : Part) : Nat := s.entryBits p 36 3 0
/-- Partitions that may map the shared region. -/
def State.sharedReaders (s : State) (p : Part) : Nat := s.entryBits p 37 3 0
/-- Base of the shared region. -/
def State.sharedBase (s : State) (p : Part) : Nat := s.entryBits p 40 47 0
/-- Pages of the shared region. -/
def State.sharedPages (s : State) (p : Part) : Nat := s.entryBits p 48 31 0

/-- A partition holds a compute die. -/
def State.ownsDie (s : State) (p : Part) (d : Die) : Bool := s.partValid p && bitOf (s.dieMask p) d.val
/-- A partition's dies, ascending. -/
def State.diesOf (s : State) (p : Part) : List Die := allDies.filter (fun d => s.ownsDie p d)
/-- A partition's stacks, ascending. -/
def State.stacksOf (s : State) (p : Part) : List Nat := (upTo 8).filter (fun h => bitOf (s.stackMask p) h)
/-- The first partition that a test accepts. -/
def firstPart (f : Part → Bool) : Option Part := allParts.find? f
/-- The partition of a compute die. -/
def State.partOfDie (s : State) (d : Die) : Option Part := firstPart (fun p => s.ownsDie p d)
/-- The partition of a core. -/
def State.partOfCore (s : State) (c : CoreId) : Option Part := s.partOfDie (coreDie c)
/-- The partition of a stack. -/
def State.partOfStack (s : State) (h : Nat) : Option Part :=
  firstPart (fun p => s.partValid p && bitOf (s.stackMask p) h)
/-- A ring belongs to a partition (R396). -/
def State.ownsRing (s : State) (p : Part) (r : Nat) : Bool :=
  s.partValid p && decide (s.ringFirst p ≤ r ∧ r < s.ringFirst p + s.ringCount p)
/-- The partition of a ring. -/
def State.partOfRing (s : State) (r : Nat) : Option Part := firstPart (fun p => s.ownsRing p r)
/-- An RCL port is bound to a partition. -/
def State.ownsRcl (s : State) (p : Part) (k : RPort) : Bool := s.partValid p && bitOf (s.rclMask p) k.val
/-- The partition an RCL port is bound to (R362). -/
def State.partOfRcl (s : State) (k : RPort) : Option Part := firstPart (fun p => s.ownsRcl p k)
/-- A fabric port is usable by a partition. -/
def State.ownsFab (s : State) (p : Part) (n : Nat) : Bool := s.partValid p && bitOf (s.fabPorts p) n
/-- A sync object lies in a partition's subset (R183, R186). -/
def State.ownsSync (s : State) (p : Part) (i : SyncObj) : Bool :=
  s.partValid p && decide (s.syncFirst p ≤ i.toNat ∧ i.toNat < s.syncFirst p + s.syncCount p)
/-- A partition is RUNNING (R394). -/
def State.running (s : State) (p : Part) : Bool := decide ((s.part p).state = 1)

/-- The shared owner (R470). -/
def State.sharedOwner (s : State) : Part := ⟨s.regN .evtSharedOwner % 4, Nat.mod_lt _ (by decide)⟩

/-- The I/O die of an RCL port. -/
def rclIod (k : RPort) : Iod := ⟨k.val / 2, by have := k.isLt; omega⟩
/-- The I/O die of a fabric port. -/
def fabIod (n : FPort) : Iod := ⟨n.val / 16, by have := n.isLt; omega⟩

/-- The ring owner of an event source (Table 17.1). -/
def State.sourceOwner (s : State) (n : Nat) : Part :=
  let die (d : Nat) : Part := (s.partOfDie ⟨d % 4, Nat.mod_lt _ (by decide)⟩).getD s.sharedOwner
  let fin (x : Nat) : Part := ⟨x % 4, Nat.mod_lt _ (by decide)⟩
  if n < 0x1000 then die (n / 1024)
  else if n < 0x1004 then die (n - 0x1000)
  else if 0x1010 ≤ n ∧ n < 0x1014 then fin (n - 0x1010)
  else if 0x1020 ≤ n ∧ n < 0x1024 then fin (n - 0x1020)
  else if 0x1050 ≤ n ∧ n < 0x1054 then (s.partOfRcl (fin (n - 0x1050))).getD s.sharedOwner
  else if 0x10A0 ≤ n ∧ n < 0x10A8 then (s.partOfStack (n - 0x10A0)).getD s.sharedOwner
  else s.sharedOwner

/-- The event kind of a source (Table 17.1). -/
def sourceKind (n : Nat) : Nat :=
  if n < 0x1000 then n % 8 + 1
  else if n < 0x1010 then 0x10
  else if n < 0x1020 then 0x11
  else if n < 0x1030 then 0x12
  else if n < 0x1050 then 0x13
  else if n < 0x1060 then 0x14
  else if n < 0x1070 then 0x15
  else if n < 0x1080 then 0x16
  else if n < 0x1090 then 0x17
  else if n < 0x10A0 then 0x18
  else if n < 0x10B0 then 0x19
  else if n < 0x10C0 then 0x1A
  else 0x1B

/-- The stamping die of a source (Table 17.1); the governor's is given by the event. -/
def sourceDie (n : Nat) : Nat :=
  if n < 0x1000 then n / 1024
  else if n < 0x1004 then n - 0x1000
  else if n < 0x1030 then 4
  else if n < 0x1050 then 4 + (n - 0x1030) / 16
  else if n < 0x1060 then 4 + (n - 0x1050) / 2
  else if n < 0x1070 then 4 + (n - 0x1060)
  else if n < 0x1080 then 4
  else if n < 0x1090 then 6
  else if n < 0x10A0 then 4
  else if n < 0x10B0 then (n - 0x10A0) / 2
  else if n < 0x10C0 then 6
  else 4 + (n - 0x10C0)

/-- Event source of a core part: 0 the front end, 1-4 its scalar, vector, matrix and move engines. -/
def coreSource (c : CoreId) (part : Nat) : BitVec 16 := BitVec.ofNat 16 (c.toNat * 8 + part)
/-- Event source of a stream's engine. -/
def engineSource (c : CoreId) (st : Stream) : BitVec 16 := coreSource c (st.code + 1)
/-- Event source of Gauger of a die. -/
def gaugerSource (d : Die) : BitVec 16 := BitVec.ofNat 16 (0x1000 + d.val)
/-- Event source of Assize of a partition. -/
def assizeSource (p : Part) : BitVec 16 := BitVec.ofNat 16 (0x1010 + p.val)
/-- Event source of Surveyor of a partition. -/
def surveyorSource (p : Part) : BitVec 16 := BitVec.ofNat 16 (0x1020 + p.val)
/-- Event source of a fabric port. -/
def fabSource (n : FPort) : BitVec 16 := BitVec.ofNat 16 (0x1030 + n.val)
/-- Event source of an RCL port. -/
def rclSource (k : RPort) : BitVec 16 := BitVec.ofNat 16 (0x1050 + k.val)
/-- Event source of a collective engine. -/
def colSource (i : Iod) : BitVec 16 := BitVec.ofNat 16 (0x1060 + i.val)
/-- Event source of the governor. -/
def govSource : BitVec 16 := 0x1070
/-- Event source of the Update Die. -/
def updSource : BitVec 16 := 0x1080
/-- Event source of security. -/
def secSource : BitVec 16 := 0x1090
/-- Event source of the memory controller of a stack. -/
def stackSource (h : Nat) : BitVec 16 := BitVec.ofNat 16 (0x10A0 + h)
/-- Event source of the Reserve controller. -/
def reserveSource : BitVec 16 := 0x10B0
/-- Event source of the firmware of an I/O die. -/
def firmwareSource (i : Iod) : BitVec 16 := BitVec.ofNat 16 (0x10C0 + i.val)

/-- The partitions in rotation after the one served last (R411, R413). -/
def rotation (last : Nat) : List Part := (upTo 4).map (fun i => ⟨(last + 1 + i) % 4, Nat.mod_lt _ (by decide)⟩)

end Sys2Proof.Machine
end

