-- ==== Sys2Proof/Machine/RclSend.lean ====
section
/-! DEFINITION. Sending on a Ratil Coherent Link port: message classes, units and credits, flits, acknowledgements and the
replay buffer (R366-R370). Each sent message takes a payload flit of its own (DESIGN CHOICE, log 9). -/

namespace Sys2Proof.Machine

/-- The opcodes of Table 13.7. -/
def opRdUnc : BitVec 8 := 0x01
def opRdShared : BitVec 8 := 0x02
def opRdOwn : BitVec 8 := 0x03
def opWrLine : BitVec 8 := 0x04
def opWrPartial : BitVec 8 := 0x05
def opWb : BitVec 8 := 0x06
def opEvictClean : BitVec 8 := 0x07
def opMmioRd : BitVec 8 := 0x08
def opMmioWr : BitVec 8 := 0x09
def opDoorbell : BitVec 8 := 0x0A
def opCmp : BitVec 8 := 0x20
def opData : BitVec 8 := 0x21
def opDataMmio : BitVec 8 := 0x22
def opErr : BitVec 8 := 0x23
def opSnpRsp : BitVec 8 := 0x24
def opSnpRspData : BitVec 8 := 0x25
def opSnpInv : BitVec 8 := 0x30
def opSnpData : BitVec 8 := 0x31
def opEvent : BitVec 8 := 0x40

/-- The class of an opcode (Table 13.7): 0 REQ, 1 RSP, 2 SNP, 3 EVT. -/
def rclClass (op : BitVec 8) : Nat :=
  if op.toNat < 0x20 then 0 else if op.toNat < 0x30 then 1 else if op.toNat < 0x40 then 2 else 3

/-- The units of a message (Table 13.7); none for a reserved opcode. -/
def rclUnits (op : BitVec 8) : Option Nat :=
  if op = opRdUnc ∨ op = opRdShared ∨ op = opRdOwn ∨ op = opEvictClean ∨ op = opMmioRd ∨ op = opDoorbell
      ∨ op = opCmp ∨ op = opErr ∨ op = opSnpRsp ∨ op = opSnpInv ∨ op = opSnpData ∨ op = opEvent then some 1
  else if op = opWrLine ∨ op = opWb ∨ op = opData ∨ op = opSnpRspData then some 5
  else if op = opWrPartial then some 6
  else if op = opMmioWr ∨ op = opDataMmio then some 2
  else none

/-- A message of one header unit. -/
def rclHeader (op : BitVec 8) (tag : BitVec 12) (addr : Nat) : RclMsg where
  opcode := op
  tag := tag
  status := 0
  sub := 0
  addr := BitVec.ofNat 52 addr
  aux := 0
  data := []
  poison := false

/-- The port carries messages: ACTIVE, or away from ACTIVE and still within its retrain limit (R388). -/
def RclPort.carries (q : RclPort) : Bool := decide (q.state = .active) || q.away

/-- The message of host traffic, or of migration traffic, that may be sent next, with those that go on waiting: each
class goes in order as its credits allow; an EVENT does not pass a write that waits, nor a snoop a response (R368, R375).
`blocked` lists the classes that a message further ahead holds up. -/
def pickSend (mig : Bool) (avail : List Nat) : List RclOut → List Nat → Option (RclMsg × List RclOut)
  | [], _ => none
  | x :: r, blocked =>
    let c := rclClass x.msg.opcode
    if x.mig != mig || blocked.contains c || decide ((rclUnits x.msg.opcode).getD 0 > avail.getD c 0) then
      (pickSend mig avail r
        (c :: (if x.msg.opcode = opWrLine ∨ x.msg.opcode = opWrPartial then 3 else if c = 1 then 2 else c) :: blocked)).map
        (fun y => (y.1, x :: y.2))
    else some (x.msg, r)

/-- The message that is sent next (R411): the first `share` cells of every sixteen are host traffic's, the rest
migration's, and a cell that one leaves idle the other takes. -/
def RclPort.nextSend (q : RclPort) (share : Nat) : Option (RclMsg × List RclOut) :=
  let mig := decide (share ≤ q.shareCell)
  (pickSend mig q.avail q.waiting []).or (pickSend (!mig) q.avail q.waiting [])

/-- The header of a flit sent now: the last payload flit received in order, whether a gap has been seen since the last
acknowledgement, and the credits returned (Table 13.4). The device's SNP and EVT buffers receive nothing. -/
def RclPort.head (q : RclPort) (kind : BitVec 4) (seq : BitVec 12) : FlitHeader where
  kind := kind
  seq := seq
  ackSeq := q.expectSeq - 1
  nak := q.sendNak
  credReq := BitVec.ofNat 16 (q.freed.getD 0 0)
  credRsp := BitVec.ofNat 16 (q.freed.getD 1 0)
  credSnp := 0
  credEvt := 0
  valid := 0

/-- Send an idle flit: acknowledgement, nak and credits (R367). A nak is sent once for each gap. -/
def RclPort.idle (q : RclPort) : RclPort :=
  if q.state = .active then { q with sent := q.sent ++ [⟨q.head 0 0, []⟩], sendNak := false } else q

/-- Send every unacknowledged flit again, in order (R367). -/
def RclPort.resend (q : RclPort) : RclPort :=
  { q with
    resends := q.resends + 1
    sent := q.sent ++ q.replay.map (fun x => msgFlit (q.head 1 x.1) x.2) }

/-- Send what credits and the replay buffer allow (R367, R368), with the host traffic's share of the cells (R411). `fuel`
bounds the number sent. -/
def RclPort.pump (share : Nat) (q : RclPort) : Nat → RclPort
  | 0 => q
  | fuel + 1 =>
    if q.state = .active ∧ q.replay.length < 2048 then
      match q.nextSend share with
      | none => q
      | some (m, rest) =>
        let c := rclClass m.opcode
        RclPort.pump share { q with
          waiting := rest
          shareCell := (q.shareCell + 1) % 16
          replay := q.replay ++ [(q.nextSeq, m)]
          sent := q.sent ++ [msgFlit (q.head 1 q.nextSeq) m]
          nextSeq := q.nextSeq + 1
          avail := q.avail.set c (q.avail.getD c 0 - (rclUnits m.opcode).getD 0) } fuel
    else q

/-- Queue a message and send what may go. -/
def RclPort.send (q : RclPort) (share : Nat) (m : RclMsg) (mig : Bool := false) : RclPort :=
  RclPort.pump share { q with waiting := q.waiting ++ [⟨m, mig⟩] } (q.waiting.length + 1)

/-- The sixteenths of a port's cells kept for host traffic: its partition's mig_share (R411). -/
def State.hostShare (s : State) (k : RPort) : Nat :=
  match s.partOfRcl k with
  | some p => s.migShare p
  | none => 16

/-- Send what may go now on a port. -/
def State.rclPump (s : State) (k : RPort) : State :=
  s.onRcl k (fun q => q.pump (s.hostShare k) q.waiting.length)

/-- A device write to host memory that the port cannot carry is lost; RCL_WRITES_LOST counts it and the
first lost address stays (R389, Table 18.14). -/
def State.writesLost (s : State) (k : RPort) (addr : Nat) (n : Nat) : State :=
  let c := s.regN .rclWritesLost k.val
  let s := if c = 0 then s.setRegN .rclWritesLostAddr k.val 0 (addr % 2 ^ 42) else s
  s.setRegN .rclWritesLost k.val 0 (Nat.min (c + n) m32)

/-- Send a message on a port. -/
def State.rclSend (s : State) (k : RPort) (m : RclMsg) : State := s.onRcl k (fun q => q.send (s.hostShare k) m)

/-- Post a write of a host line: a whole line by WR_LINE, else by WR_PARTIAL with the byte mask in the
first data unit (Table 13.7). A port that carries nothing loses it (R389). -/
def State.postHost (s : State) (k : RPort) (addr : Nat) (cells : List (Nat × Byte)) (poison : Bool) (mig : Bool := false) :
    State :=
  if (s.rclPort k).carries then
    let q := s.rclPort k
    let bytes := cells.foldl (fun l c => l.set c.1 c.2) (List.replicate 64 (0 : Byte))
    let mask := cells.foldl (fun a c => a ||| 2 ^ c.1) 0
    let m : RclMsg :=
      if (upTo 64).all (fun i => cells.any (fun c => decide (c.1 = i))) then
        { rclHeader opWrLine q.nextTag addr with data := bytes, poison := poison }
      else
        { rclHeader opWrPartial q.nextTag addr with
          data := leBytes 8 mask ++ List.replicate 8 0 ++ bytes, poison := poison }
    s.setRcl k { q.send (s.hostShare k) m mig with nextTag := q.nextTag + 1 }
  else s.writesLost k addr 1

/-- A tag that no outstanding device read and no snoop in `tags` uses, from `n` tries at the next ones (R371). -/
def RclPort.freeTag (q : RclPort) (tags : List (BitVec 12)) : Nat → BitVec 12 → BitVec 12
  | 0, t => t
  | n + 1, t => if q.reads.any (fun r => decide (r.tag = t)) || tags.contains t then RclPort.freeTag q tags n (t + 1) else t

/-- The tags of a port's unanswered snoops. -/
def State.snoopTags (s : State) (k : RPort) : List (BitVec 12) :=
  (s.snoops.filter (fun n => n.sent && decide (n.port = k))).map (fun n => n.tag)

/-- The port may have one more non-posted request outstanding (R371). -/
def State.tagRoom (s : State) (k : RPort) : Bool := decide ((s.rclPort k).reads.length + (s.snoopTags k).length < 4096)

/-- Post a read of a host line. A port that carries nothing completes it with a poisoned line at once
(R389); a port with 4,096 requests outstanding posts none (R371). -/
def State.postRead (s : State) (k : RPort) (addr : Nat) (landing : ReadLanding) : State :=
  let q := s.rclPort k
  if q.carries then
    if s.tagRoom k then
      let t := q.freeTag (s.snoopTags k) 4096 q.nextTag
      let mig := match landing with
        | .buffer => false
        | .page _ _ _ => true
      s.setRcl k { q.send (s.hostShare k) (rclHeader opRdUnc t addr) mig with
        reads := q.reads ++ [⟨t, addr, landing⟩], nextTag := t + 1 }
    else s
  else match landing with
    | .buffer => s.setRcl k { q with hostBuf := q.hostBuf ++ [⟨addr, List.replicate 64 0, true⟩] }
    | .page _ _ _ => s

/-- Send the first snoop of a port that waits for a tag, when there is one (R371). -/
def State.sendWaiting (s : State) (k : RPort) : State :=
  if s.tagRoom k then
    match s.snoops.find? (fun n => !n.sent && decide (n.port = k)) with
    | none => s
    | some n =>
      let q := s.rclPort k
      let t := q.freeTag (s.snoopTags k) 4096 q.nextTag
      { s.setRcl k { q.send (s.hostShare k) (rclHeader (if n.inv then opSnpInv else opSnpData) t n.va) with nextTag := t + 1 } with
        snoops := updateFirst (fun x => decide (x = n)) (fun x => { x with tag := t, sent := true }) s.snoops }
  else s

end Sys2Proof.Machine
end

