-- ==== Sys2Proof/Machine/Mem.lean ====
section
/-! DEFINITION. Device virtual addresses, pages, and reads and writes of memory line by line: where an
address lies (R232-R236), the snoop filter's part in a device access (R380, R381), pages in migration
(R237), poison (R482), host windows. -/

namespace Sys2Proof.Machine

/-- HBM range end: 576 GiB. -/
def hbmEnd : Nat := 0x9000000000
/-- Reserve window. -/
def reserveVa : Nat := 0x010000000000
/-- Reserve window end. -/
def reserveVaEnd : Nat := 0x028000000000
/-- 2 MiB. -/
def pageSize : Nat := 0x200000
/-- HBM pages. -/
def hbmPages : Nat := 294912

/-- The page table index of an address of the HBM and Reserve ranges (R234). -/
def pageIndex (va : Nat) : Option Nat :=
  if va < hbmEnd then some (va / pageSize)
  else if reserveVa ≤ va ∧ va < reserveVaEnd then some (hbmPages + (va - reserveVa) / pageSize)
  else none

/-- The first address of a page table index. -/
def pageVa (i : Nat) : Nat := if i < hbmPages then i * pageSize else reserveVa + (i - hbmPages) * pageSize

/-- A partition's page table entry. -/
def Partition.page (p : Partition) (i : Nat) : PageEntry := Sparse.get PageEntry.none p.pageTable i
/-- Set a page table entry. -/
def Partition.setPage (p : Partition) (i : Nat) (e : PageEntry) : Partition :=
  { p with pageTable := Sparse.set PageEntry.none p.pageTable i e }

/-- Where an address lies (Table 8.4). -/
inductive Place where
  | hbm (a : Nat)
  | reserve (a : Nat)
  | host (k : RPort) (a : Nat)
  | scratch (c : CoreId) (o : Nat)
  | sync (i : SyncObj) (o : Nat)
  | mmio (o : Nat)
  | unmapped
deriving DecidableEq, Repr

/-- The place of an address for a partition (R232, R233): what it reaches, `unmapped` for the rest. The
scratch offset runs over the whole 4 MiB stride, its upper half included (R180). -/
def State.place (s : State) (p : Part) (va : Nat) : Place :=
  match pageIndex va with
  | some i =>
    let e := (s.part p).page i
    if e.valid then
      let a := e.frame * pageSize + va % pageSize
      match e.target with
      | .hbm => .hbm a
      | .reserve => .reserve a
      | .host => .host e.port a
    else .unmapped
  | none =>
    if 0x100000000000 ≤ va ∧ va < 0x200000000000 then
      let k : RPort := ⟨(va - 0x100000000000) / 0x040000000000 % 4, Nat.mod_lt _ (by decide)⟩
      if s.ownsRcl p k then .host k ((va - 0x100000000000) % 0x040000000000) else .unmapped
    else if 0x200000000000 ≤ va ∧ va < 0x200080000000 then
      let c : CoreId := BitVec.ofNat 9 ((va - 0x200000000000) / 0x400000)
      if coreExists c && decide (s.partOfCore c = some p) then .scratch c ((va - 0x200000000000) % 0x400000)
      else .unmapped
    else if 0x210000000000 ≤ va ∧ va < 0x210000200000 then
      let i : SyncObj := BitVec.ofNat 15 ((va - 0x210000000000) / 64)
      if s.ownsSync p i then .sync i (va % 64) else .unmapped
    else if 0x220000000000 ≤ va ∧ va < 0x220004000000 then .mmio (va - 0x220000000000)
    else .unmapped

/-- The page of an address may be written (R234); addresses outside the paged ranges may. -/
def State.writable (s : State) (p : Part) (va : Nat) : Bool :=
  match pageIndex va with
  | some i => ((s.part p).page i).writable
  | none => true

/-- A page of a footprint is mapped in the partition: a valid page table entry, a bound host window, or a
scratch window of the partition (R180, R231). -/
def State.pageMapped (s : State) (p : Part) (va : Nat) : Bool :=
  match s.place p va with
  | .hbm _ | .reserve _ | .host _ _ | .scratch _ _ => true
  | _ => false

/-- The pages under a range are mapped in the partition. -/
def State.mapped (s : State) (p : Part) (va n : Nat) : Bool :=
  (upTo ((va % pageSize + n + pageSize - 1) / pageSize)).all (fun j =>
    s.pageMapped p (va / pageSize * pageSize + j * pageSize))

/-- The pages under a range are mapped and writable. -/
def State.mappedRw (s : State) (p : Part) (va n : Nat) : Bool :=
  s.mapped p va n &&
  (upTo ((va % pageSize + n + pageSize - 1) / pageSize)).all (fun j =>
    s.writable p (va / pageSize * pageSize + j * pageSize))

/-! ## The snoop filter -/

/-- A line's filter entry on an I/O die: the line is a physical HBM address divided by 64. -/
def State.filterAt (s : State) (i : Iod) (line : Nat) : FilterEntry :=
  Sparse.get FilterEntry.none s.filters (line * 2 + i.val)
/-- Set it. -/
def State.setFilter (s : State) (i : Iod) (line : Nat) (e : FilterEntry) : State :=
  { s with filters := Sparse.set FilterEntry.none s.filters (line * 2 + i.val) e }

/-- The state in which a port's host holds a line. -/
def State.holds (s : State) (k : RPort) (line : Nat) : CacheState :=
  if k.val % 2 = 0 then (s.filterAt (rclIod k) line).low else (s.filterAt (rclIod k) line).high

/-- The device virtual address by which a port's host named a line. -/
def State.heldVa (s : State) (k : RPort) (line : Nat) : Nat :=
  if k.val % 2 = 0 then (s.filterAt (rclIod k) line).lowVa else (s.filterAt (rclIod k) line).highVa

/-- Record the state in which a port's host holds a line; an entry that no port holds is removed. -/
def State.setHolds (s : State) (k : RPort) (line : Nat) (c : CacheState) (va : Nat) : State :=
  let e := s.filterAt (rclIod k) line
  let e := if k.val % 2 = 0 then { e with low := c, lowVa := if c = .invalid then 0 else va }
           else { e with high := c, highVa := if c = .invalid then 0 else va }
  if e.low = .invalid ∧ e.high = .invalid then s.setFilter (rclIod k) line FilterEntry.none
  else if e.age = 0 then
    { s.setFilter (rclIod k) line { e with age := s.filterClock + 1 } with filterClock := s.filterClock + 1 }
  else s.setFilter (rclIod k) line e

/-- The ports whose hosts hold a line. -/
def State.holders (s : State) (line : Nat) : List RPort := allRPorts.filter (fun k => decide (s.holds k line ≠ .invalid))
/-- The ports whose hosts hold a line Owned. -/
def State.owners (s : State) (line : Nat) : List RPort := allRPorts.filter (fun k => decide (s.holds k line = .owned))

/-- Snoop a line at a port, unless one for the line is unanswered there (R380, R381); it goes out when the port has a tag
for it (R371). -/
def State.sendSnoop (s : State) (k : RPort) (line : Nat) (inv : Bool) : State :=
  if s.snoops.any (fun n => decide (n.port = k ∧ n.line = line)) then s
  else ({ s with snoops := s.snoops ++ [⟨k, line, s.heldVa k line, 0, inv, false, false⟩] } : State).sendWaiting k

/-- A line with an unanswered snoop. -/
def State.snooped (s : State) (line : Nat) : Bool := s.snoops.any (fun n => decide (n.line = line))

/-- A line with an unanswered snoop or a waiting request: later requests for it wait (R381). -/
def State.lineBusy (s : State) (line : Nat) : Bool :=
  s.snooped line || s.heldWrites.any (fun h => decide (h.line = some line))

/-- The ports to snoop before a port may have a line: the owners for RD_SHARED; every other holder, and the port itself
if it owns the line, for RD_OWN. -/
def State.inTheWay (s : State) (k : RPort) (line : Nat) (own : Bool) : List RPort :=
  if own then allRPorts.filter (fun j => decide (s.holds j line = .owned) || (decide (j ≠ k) && decide (s.holds j line = .shared)))
  else s.owners line

/-! ## Coherent regions (R376, R377) -/

/-- Region n of a port: base and size. -/
def State.cohRegion (s : State) (k : RPort) (n : Nat) : Nat × Nat := (s.regN .rclCohBase k.val n, s.regN .rclCohSize k.val n)
/-- Its enabled flag (Table 18.14). -/
def State.cohEnabled (s : State) (k : RPort) (n : Nat) : Bool := bitOf (s.regN .rclCohCtrl k.val) (8 + n)
/-- Its enable request. -/
def State.cohRequest (s : State) (k : RPort) (n : Nat) : Bool := bitOf (s.regN .rclCohCtrl k.val) n

/-- An address lies in a region. -/
def State.inRegion (s : State) (k : RPort) (n va : Nat) : Bool :=
  let r := s.cohRegion k n
  decide (r.1 ≤ va ∧ va < r.1 + r.2)

/-- The enabled regions of a partition's ports: base and size. -/
def State.enabledRegions (s : State) (p : Part) : List (Nat × Nat) :=
  allRPorts.flatMap (fun k => if s.ownsRcl p k then
    (upTo 8).filterMap (fun n => if s.cohEnabled k n then some (s.cohRegion k n) else none) else [])

/-- A page of a partition lies in an enabled region: Surveyor never moves it (R377). -/
def State.pageEnabled (s : State) (p : Part) (page : Nat) : Bool :=
  (s.enabledRegions p).any (fun r => decide (r.1 ≤ pageVa page ∧ pageVa page < r.1 + r.2))

/-! ## Physical lines -/

/-- Write bytes at offsets of a physical line and settle its poison: a poisoned source poisons it, a full
clean write clears it, a partial one leaves it (R482, R483). -/
def storeCells (m : Memory) (base : Nat) (cells : List (Nat × Byte)) : Memory :=
  cells.foldl (fun m c => Memory.write m (base + c.1) c.2) m

/-- Cells whose masked bytes keep the other bits of the bytes of `m` (R239). -/
def mergeCells (m : Memory) (base : Nat) (cells mask : List (Nat × Byte)) : List (Nat × Byte) :=
  if mask.isEmpty then cells
  else cells.map (fun c => match mask.find? (fun k => decide (k.1 = c.1)) with
    | some k => (c.1, (Memory.read m (base + c.1) &&& ~~~k.2) ||| (c.2 &&& k.2))
    | none => c)

/-- The cells that are written whole. -/
def wholeCells (cells mask : List (Nat × Byte)) : List (Nat × Byte) :=
  if mask.isEmpty then cells else cells.filter (fun c => !mask.any (fun k => decide (k.1 = c.1)))

/-- The poison of a unit of `n` bytes after a write of `cells`. -/
def poisonAfter (n : Nat) (old poison : Bool) (cells : List (Nat × Byte)) : Bool :=
  if poison then true
  else if (upTo n).all (fun i => cells.any (fun c => decide (c.1 = i))) then false
  else old

/-- Write an HBM line at its physical address. -/
def State.storeHbm (s : State) (a : Nat) (cells : List (Nat × Byte)) (poison : Bool) (mask : List (Nat × Byte) := []) : State :=
  { s with
    hbm := storeCells s.hbm a (mergeCells s.hbm a cells mask)
    hbmPoison := Sparse.set false s.hbmPoison (a / 64)
      (poisonAfter 64 (Sparse.get false s.hbmPoison (a / 64)) poison (wholeCells cells mask)) }

/-- Write a Reserve line at its physical address. -/
def State.storeReserve (s : State) (a : Nat) (cells : List (Nat × Byte)) (poison : Bool) (mask : List (Nat × Byte) := []) : State :=
  { s with
    reserve := storeCells s.reserve a (mergeCells s.reserve a cells mask)
    reservePoison := Sparse.set false s.reservePoison (a / 64)
      (poisonAfter 64 (Sparse.get false s.reservePoison (a / 64)) poison (wholeCells cells mask)) }

/-- The bytes and poison of an HBM line. -/
def State.loadHbm (s : State) (a : Nat) : List Byte × Bool :=
  (Memory.readBytes s.hbm a 64, Sparse.get false s.hbmPoison (a / 64))
/-- The package that a Reserve address lies in, and its offset there (R279). -/
def reservePackage (x : Nat) : Nat := x / 256 % 12
def reserveOffset (x : Nat) : Nat := x / 256 / 12 * 256 + x % 256
/-- The Reserve address of an offset in a package. -/
def packageAddr (k o : Nat) : Nat := (o / 256 * 12 + k) * 256 + o % 256
/-- A byte of a Reserve package. -/
def State.packageByte (s : State) (k o : Nat) : Byte := Memory.read s.reserve (packageAddr k o)

/-- The bytes and poison of a Reserve line. -/
def State.loadReserve (s : State) (a : Nat) : List Byte × Bool :=
  (Memory.readBytes s.reserve a 64, Sparse.get false s.reservePoison (a / 64))

/-- The parts of a write to scratch that fall in one 32-byte word, with offsets within it. -/
def wordCells (w : Nat) (cells : List (Nat × Byte)) : List (Nat × Byte) :=
  (cells.filter (fun c => decide (c.1 / 32 = w))).map (fun c => (c.1 % 32, c.2))

/-- Scratch offsets whose reads are 0 and whose writes are dropped (Table 6.3). -/
def scratchHole (o : Nat) : Bool := 0x1FB300 ≤ o && o < 0x1FC000

/-- Write bytes at offsets from `o` (a multiple of 32) of a core's scratch, each 32-byte word with its
poison (R175, R482); the reserved area drops writes (Table 6.3). -/
def Core.storeScratch (c : Core) (o : Nat) (cells : List (Nat × Byte)) (poison : Bool) (mask : List (Nat × Byte) := []) : Core :=
  let cells := cells.filter (fun x => !scratchHole (o + x.1) && decide (o + x.1 < 0x200000))
  let words := (cells.map (fun x => x.1 / 32)).eraseDups
  { c with
    scratch := storeCells c.scratch o (mergeCells c.scratch o cells mask)
    scratchPoison := words.foldl (fun m w =>
      Sparse.set false m (o / 32 + w)
        (poisonAfter 32 (Sparse.get false m (o / 32 + w)) poison (wordCells w (wholeCells cells mask)))) c.scratchPoison }

/-- Write consecutive bytes to a core's scratch. -/
def Core.writeScratch (c : Core) (o : Nat) (bs : List Byte) (poison : Bool) : Core :=
  c.storeScratch (o / 32 * 32) (bs.zipIdx.map (fun x => (o % 32 + x.2, x.1))) poison

/-- Read bytes of a core's scratch; the reserved area reads 0 (Table 6.3). -/
def Core.readScratch (c : Core) (o n : Nat) : List Byte :=
  (upTo n).map (fun i => if scratchHole (o + i) || decide (o + i ≥ 0x200000) then 0 else Memory.read c.scratch (o + i))

/-- Any 32-byte word of a scratch range is poisoned. -/
def Core.scratchPoisoned (c : Core) (o n : Nat) : Bool :=
  if n = 0 then false
  else (upTo ((o % 32 + n + 31) / 32)).any (fun w => Sparse.get false c.scratchPoison (o / 32 + w))

/-! ## Lines by address -/

/-- A line that has come from host memory and waits to be used. -/
def State.hostLine (s : State) (k : RPort) (a : Nat) : Option HostLine :=
  (s.rclPort k).hostBuf.find? (fun h => decide (h.addr = a))

/-- A read of the line at `va` can be performed now: no host owns it, nothing on it waits, and a host
line has arrived (R380, R381). -/
def State.lineReady (s : State) (p : Part) (va : Nat) : Bool :=
  match s.place p va with
  | .hbm a => !s.lineBusy (a / 64) && (s.owners (a / 64)).isEmpty
  | .host k a => (s.hostLine k (a / 64 * 64)).isSome
  | _ => true

/-- Ask for a line that is not ready: SNP_DATA to the owner, or a read of host memory (R371, R380). -/
def State.askLine (s : State) (p : Part) (va : Nat) : State :=
  match s.place p va with
  | .hbm a => (s.owners (a / 64)).foldl (fun s k => s.sendSnoop k (a / 64) false) s
  | .host k a =>
    let q := s.rclPort k
    let a := a / 64 * 64
    if q.reads.any (fun r => decide (r.addr = a ∧ r.landing = .buffer)) || (s.hostLine k a).isSome then s
    else s.postRead k a .buffer
  | _ => s

/-- The lines under a byte range. -/
def linesOf (va n : Nat) : List Nat :=
  if n = 0 then [] else (upTo ((va % 64 + n + 63) / 64)).map (fun i => va / 64 * 64 + i * 64)

/-- Every line of the ranges can be read now. -/
def State.ready (s : State) (p : Part) (ranges : List (Nat × Nat)) : Bool :=
  ranges.all (fun r => (linesOf r.1 r.2).all (fun va => s.lineReady p va))

/-- Ask for every line of the ranges that is not ready. -/
def State.ask (s : State) (p : Part) (ranges : List (Nat × Nat)) : State :=
  ranges.foldl (fun s r => (linesOf r.1 r.2).foldl (fun s va => if s.lineReady p va then s else s.askLine p va) s) s

/-- Read the line at `va`: its bytes and whether it is poisoned. An address with no line reads 0. -/
def State.readLine (s : State) (p : Part) (va : Nat) : List Byte × Bool :=
  match s.place p va with
  | .hbm a => s.loadHbm (a / 64 * 64)
  | .reserve a => s.loadReserve (a / 64 * 64)
  | .host k a =>
    match s.hostLine k (a / 64 * 64) with
    | some h => (h.bytes, h.poison)
    | none => (List.replicate 64 0, false)
  | .scratch c o =>
    if o < 0x200000 then ((s.core c).readScratch (o / 64 * 64) 64, (s.core c).scratchPoisoned (o / 64 * 64) 64)
    else (List.replicate 64 0, false)
  | .sync i _ => (leBytes 8 (s.syncValue i).toNat ++ List.replicate 56 0, false)
  | _ => (List.replicate 64 0, false)

/-- Read `n` bytes at `va`. -/
def State.readVa (s : State) (p : Part) (va n : Nat) : List Byte :=
  (((linesOf va n).flatMap (fun l => (s.readLine p l).1)).drop (va % 64)).take n

/-- Any line of a range is poisoned. -/
def State.poisoned (s : State) (p : Part) (va n : Nat) : Bool := (linesOf va n).any (fun l => (s.readLine p l).2)

/-- Host lines are used once: after an access they are dropped from the buffer. -/
def State.dropHost (s : State) (p : Part) (ranges : List (Nat × Nat)) : State :=
  ranges.foldl (fun s r => (linesOf r.1 r.2).foldl (fun s va =>
    match s.place p va with
    | .host k a => s.onRcl k (fun q => { q with hostBuf := q.hostBuf.filter (fun h => decide (h.addr ≠ a / 64 * 64)) })
    | _ => s) s) s

/-- The requests that wait for a line take their turns, as far as they go (R380, R381): a write snoops every host that
holds the line and is then performed; a cached read snoops those in its way, and its message is performed in its own step.
`fuel` bounds the writes. -/
def State.drainLine (s : State) (line : Nat) : Nat → State
  | 0 => s
  | fuel + 1 =>
    if s.snooped line then s
    else match takeFirst (fun h => decide (h.line = some line)) s.heldWrites with
      | none => s
      | some (h, rest) =>
        match h.claim with
        | some (k, _, own) => (s.inTheWay k line own).foldl (fun s j => s.sendSnoop j line own) s
        | none =>
          if (s.holders line).isEmpty then
            State.drainLine (({ s with heldWrites := rest } : State).storeHbm (line * 64) h.cells h.poison h.mask) line fuel
          else (s.holders line).foldl (fun s j => s.sendSnoop j line true) s

/-- Write bytes at offsets of the line at `va` (R237, R239, R380): a page in migration holds the write; at a line that a
host holds, or where a request waits, the write takes its turn; else it is performed. Of bytes in `mask` only the mask's bits
are written, in one update of the line. -/
def State.putLine (s : State) (p : Part) (va : Nat) (cells : List (Nat × Byte)) (poison : Bool)
    (owner : Option (Thread × Stream) := none) (mask : List (Nat × Byte) := []) (port : Option RPort := none) : State :=
  if cells.isEmpty then s else
  let migrating := match pageIndex va with
    | some i => ((s.part p).page i).migrating
    | none => false
  if migrating then { s with heldWrites := s.heldWrites ++ [⟨p, va, cells, mask, poison, none, owner, port, none⟩] }
  else match s.place p va with
    | .hbm a =>
      let line := a / 64
      if s.lineBusy line || !(s.holders line).isEmpty then
        ({ s with heldWrites := s.heldWrites ++ [⟨p, va, cells, mask, poison, some line, owner, port, none⟩] } : State).drainLine line 1
      else s.storeHbm (line * 64) cells poison mask
    | .reserve a => s.storeReserve (a / 64 * 64) cells poison mask
    | .host k a =>
      let old := match s.hostLine k (a / 64 * 64) with
        | some h => storeCells [] 0 (h.bytes.zipIdx.map (fun x => (x.2, x.1)))
        | none => []
      s.postHost k (a / 64 * 64) (mergeCells old 0 cells mask) poison
    | .scratch c o =>
      if o < 0x200000 then s.setCore c ((s.core c).storeScratch (o / 64 * 64) cells poison mask) else s
    | _ => s

/-- Write consecutive bytes at `va`, line by line. -/
def State.putVa (s : State) (p : Part) (va : Nat) (bs : List Byte) (poison : Bool)
    (owner : Option (Thread × Stream) := none) : State :=
  (linesOf va bs.length).foldl (fun s l =>
    let cells := (upTo 64).filterMap (fun o =>
      if va ≤ l + o ∧ l + o < va + bs.length then (bs[l + o - va]?).map (fun b => (o, b)) else none)
    s.putLine p l cells poison owner) s

/-- A range reaches into the unused upper half of a scratch window (R180); the offset of its first such line from the start
of the windows. -/
def State.upperHalf (s : State) (p : Part) (ranges : List (Nat × Nat)) : Option Nat :=
  ranges.findSome? (fun r => (linesOf r.1 r.2).findSome? (fun l =>
    match s.place p l with
    | .scratch _ o => if o ≥ 0x200000 then some (l - 0x200000000000) else none
    | _ => none))

/-- A page's migration has ended: the writes held for it go to the new frame, in order (R237). `old` is the HBM frame the
page has left, if it has left one: it is kept up as the ground on which parts of a byte are written. -/
def State.releasePage (s : State) (p : Part) (page : Nat) (old : Option Nat) : State :=
  let here (h : HeldWrite) : Bool := decide (h.part = p ∧ h.line = none ∧ pageIndex h.va = some page)
  let mine := s.heldWrites.filter here
  let s := { s with heldWrites := s.heldWrites.filter (fun h => !here h) }
  mine.foldl (fun s h =>
    match old with
    | none => s.putLine h.part h.va h.cells h.poison h.owner h.mask h.port
    | some f =>
      let a := f * pageSize + h.va / 64 * 64 % pageSize
      let cells := mergeCells s.hbm a h.cells h.mask
      (s.storeHbm a cells h.poison).putLine h.part h.va cells h.poison h.owner [] h.port) s

/-- A write to a page's HBM frame still waits at a line: it reached the page before the page's migration began (R237). -/
def State.frameWaits (s : State) (frame : Nat) : Bool :=
  s.heldWrites.any (fun h => h.claim.isNone && h.line.any (fun l => decide (l / 32768 = frame)))

/-- A write of the command is not yet visible at its home (R165). -/
def State.writesPending (s : State) (o : Thread × Stream) : Bool :=
  s.heldWrites.any (fun h => decide (h.owner = some o))

/-- Some write of a partition is not yet visible at its home. -/
def State.partWaits (s : State) (p : Part) : Bool := s.heldWrites.any (fun h => h.claim.isNone && decide (h.part = p))

end Sys2Proof.Machine
end

