-- ==== Sys2Proof/Machine/Event.lean ====
section
/-! DEFINITION. Event rings and EVENT messages (R385, R470-R479): how a source writes an event's entries,
holds them while its ring is disabled, loses them, and tells the host. -/

namespace Sys2Proof.Machine

/-- A field of one byte, low byte of the value (R476). -/
def f1 (v : Nat) : List Byte := leBytes 1 v
/-- A field of two bytes. -/
def f2 (v : Nat) : List Byte := leBytes 2 v
/-- A field of four bytes. -/
def f4 (v : Nat) : List Byte := leBytes 4 v
/-- A field of eight bytes. -/
def f8 (v : Nat) : List Byte := leBytes 8 v

/-- The entries an event needs: one, or two when its fields pass 16 bytes (R476). -/
def entriesOf (data : List Byte) : Nat := if data.length > 16 then 2 else 1

/-- The 32 bytes of an entry (Table 17.2); `ext` picks the extension entry's data. -/
def entryBytes (h : HeldEvent) (phase ext held : Bool) : List Byte :=
  f1 (b2n phase + 2 * b2n ext + 4 * b2n held) ++ f1 h.die ++ f2 h.code.toNat ++ f4 h.seq.toNat
    ++ f8 h.stamp.toNat
    ++ ((h.data ++ List.replicate 32 0).drop (if ext then 16 else 0)).take 16

/-- Entry `i` of a source's ring: its address. -/
def State.entryAddr (s : State) (src i : Nat) : Nat :=
  s.regN .evtBase src + i % s.regN .evtSize src * 32

/-- The phase bit of index `i` in a ring of `size` entries (R398, R472). -/
def ringPhase (i size : Nat) : Bool := i / size % 2 = 0

/-- An entry of the owner's ring can be written at an address: a writable HBM page, or the host window of
an ACTIVE port (R471, R473). -/
def State.ringSlotOk (s : State) (p : Part) (va : Nat) : Bool :=
  match s.place p va with
  | .hbm _ => s.writable p va
  | .host k _ => decide (va ≥ 0x100000000000) && decide ((s.rclPort k).state = .active)
  | _ => false

/-- The port that carries a partition's EVENT for a ring at `base`: the port of its host window, else the
partition's lowest bound port (DESIGN CHOICE, log 11). -/
def State.eventPort (s : State) (p : Part) (base : Nat) : Option RPort :=
  match s.place p base with
  | .host k _ => some k
  | _ => allRPorts.find? (fun k => s.ownsRcl p k)

/-- The message of R385 for a source or, from 0x8000 on, a reply ring. -/
def State.eventMessage (s : State) (k : RPort) (src : Nat) : RclMsg :=
  let kind := if src ≥ 0x8000 then 0 else sourceKind src
  let seq := if src ≥ 0x8000 then s.regN .hifRqTail (src - 0x8000) + m32 else s.regN .evtSeq src + m32
  let vec := s.regN .rclEvtMap k.val kind % 256
  { rclHeader opEvent (s.rclPort k).nextTag src with aux := BitVec.ofNat 32 (vec * 2 ^ 24 + seq % 2 ^ 24) }

/-- Send the EVENT a source owes on a port, unless its holdoff interval runs, the port is not ACTIVE, or
an entry it reports is not visible yet (R385). A port whose features lack event messages sends none (R364). -/
def State.sendEvent (s : State) (p : Part) (k : RPort) (src : Nat) : State :=
  let q := s.rclPort k
  if !bitOf q.features.toNat 1 then s
  else if q.holdoff.contains src || decide (q.state ≠ .active) || s.partWaits p then
    s.setRcl k { q with owed := if q.owed.contains src then q.owed else q.owed ++ [src] }
  else
    let hold := if s.regN .rclEvtHoldoff = 0 then q.holdoff else q.holdoff ++ [src]
    s.setRcl k { q.send (s.hostShare k) (s.eventMessage k src) with
      owed := q.owed.filter (fun x => decide (x ≠ src)), holdoff := hold, nextTag := q.nextTag + 1 }

/-- Tell the host of new entries (R385). -/
def State.tellHost (s : State) (p : Part) (base src : Nat) : State :=
  match s.eventPort p base with
  | some k => s.sendEvent p k src
  | none => s

/-- Send whatever EVENTs a port owes that may go now (R385, R389). -/
def State.flushEvents (s : State) (k : RPort) : State :=
  match s.partOfRcl k with
  | some p => (s.rclPort k).owed.foldl (fun s src => s.sendEvent p k src) s
  | none => s

/-- Send every EVENT that was waiting for writes to become visible (R385). -/
def State.flushAll (s : State) : State := allRPorts.foldl State.flushEvents s

/-- Write an event's entries to its ring, or lose it (R472, R473). -/
def State.writeEvent (s : State) (src : BitVec 16) (h : HeldEvent) (held : Bool) : State :=
  let n := src.toNat
  let p := s.sourceOwner n
  let size := s.regN .evtSize n
  let tail := s.regN .evtTail n
  let k := entriesOf h.data
  let fits := decide (ahead32 (s.regN .evtHead n) tail + k ≤ size)
  let ok := (upTo k).all (fun i => (linesOf (s.entryAddr n ((tail + i) % 2 ^ 32)) 32).all (fun l => s.ringSlotOk p l))
  if fits && ok then
    let s := (upTo k).foldl (fun s i =>
      let x := (tail + i) % 2 ^ 32
      s.putVa p (s.entryAddr n x) (entryBytes h (ringPhase x size) (decide (i = 1)) held) false) s
    let s := s.setRegN .evtTail n 0 ((tail + k) % 2 ^ 32)
    s.tellHost p (s.regN .evtBase n) n
  else s.setRegN .evtLost n 0 (Nat.min (s.regN .evtLost n + 1) m32)

/-- The source detects event `num` with these fields: it takes the next sequence number and the stamping
die's time, and its entries are written, held while enable is 0 (up to 16 entries), or lost
(R472-R475). -/
def State.log (s : State) (src : BitVec 16) (num : Nat) (fields : List Byte) (die : Option Nat := none) : State :=
  let n := src.toNat
  let d := die.getD (sourceDie n)
  let seq := s.regN .evtSeq n
  let h : HeldEvent := ⟨BitVec.ofNat 32 seq, s.time d, d, BitVec.ofNat 16 (sourceKind n * 256 + num % 256), fields.take 32⟩
  let s := s.setRegN .evtSeq n 0 ((seq + 1) % 2 ^ 32)
  if s.regN .evtCtrl n % 2 = 1 then s.writeEvent src h false
  else
    let e := s.source src
    let used := e.held.foldl (fun a x => a + entriesOf x.data) 0
    if used + entriesOf fields ≤ 16 then s.setSource src { e with held := e.held ++ [h] }
    else s.setRegN .evtLost n 0 (Nat.min (s.regN .evtLost n + 1) m32)

/-- ACCESS_DROPPED in the security ring: requester, cause (0 unmapped, 1 half write, 2 RWL, 3 partition
state, 4 sync VALUE), address (Table 17.3). -/
def State.accessDropped (s : State) (requester cause addr : Nat) : State :=
  s.log secSource 13 (f1 requester ++ f1 cause ++ f8 addr)

/-- Write bytes at offsets of the line at `va`; a write to the unused upper half of a scratch window is dropped and logged
(R180). -/
def State.writeLine (s : State) (p : Part) (va : Nat) (cells : List (Nat × Byte)) (poison : Bool)
    (owner : Option (Thread × Stream) := none) (mask : List (Nat × Byte) := []) (port : Option RPort := none) : State :=
  if cells.isEmpty then s
  else if (s.upperHalf p [(va, 1)]).isSome then
    s.accessDropped p.val 0 (va / 64 * 64 + (cells.map Prod.fst).headD 0)
  else s.putLine p va cells poison owner mask port

/-- Write consecutive bytes at `va`, line by line. -/
def State.writeVa (s : State) (p : Part) (va : Nat) (bs : List Byte) (poison : Bool)
    (owner : Option (Thread × Stream) := none) : State :=
  (linesOf va bs.length).foldl (fun s l =>
    let cells := (upTo 64).filterMap (fun o =>
      if va ≤ l + o ∧ l + o < va + bs.length then (bs[l + o - va]?).map (fun b => (o, b)) else none)
    s.writeLine p l cells poison owner) s

/-- An alert bit is set and counted (R6, R487); in I3C mode a bit that was clear raises one in-band interrupt
(log 12). -/
def State.raiseAlert (s : State) (bit : Nat) : State :=
  let fresh := !bitOf (s.regN .mgtAlertStatus) bit
  let s := s.setFlag .mgtAlertStatus .mgtAlertCounts bit
  if fresh && s.mgt.i3c then { s with mgt := { s.mgt with interrupts := s.mgt.interrupts + 1 } } else s

/-- An uncorrectable error of a store is logged by its source and counted (R481, R487, R488). -/
def State.eccUncorrected (s : State) (src : BitVec 16) (store addr : Nat) : State :=
  let s := s.log src 0xF1 (f1 store ++ f8 addr)
  let s := { s with mgt := { s.mgt with uncorrectedEcc := s.mgt.uncorrectedEcc + 1 } }
  s.raiseAlert 6

/-- POISON_CONSUMED: thread, sequence number, address (Table 17.3, R483). -/
def State.poisonConsumed (s : State) (src : BitVec 16) (thread seq addr : Nat) : State :=
  s.log src 0xF2 (f4 thread ++ f4 seq ++ f8 addr)

/-- SCRATCH_RANGE, the event of R180: thread, offset from the start of the scratch windows. -/
def State.scratchRange (s : State) (t : Thread) (off : Nat) : State :=
  s.log (coreSource (threadCore t) 0) 5 (f4 t.toNat ++ f8 off)

/-- BAD_DOORBELL in the partition's Surveyor ring: ring, value (Table 17.3). -/
def State.badDoorbell (s : State) (p : Part) (ring value : Nat) : State :=
  s.log (surveyorSource p) 1 (f2 ring ++ f4 value)

end Sys2Proof.Machine
end

