-- ==== Sys2Proof/Machine/Desc.lean ====
section
/-! DEFINITION. Tensor descriptors (R224-R231): their layout, check word, the handle check of R12, element
addresses, and the status codes. -/

namespace Sys2Proof.Machine

/-! ## Status codes (Table 0.5, Tables 8.6 and 13.8) -/

def stOk : BitVec 8 := 0x00
def stEmpty : BitVec 8 := 0x01
def stSaturated : BitVec 8 := 0x02
def stDelayed : BitVec 8 := 0x10
def stQuota : BitVec 8 := 0x20
def stQueueFull : BitVec 8 := 0x21
def stPartState : BitVec 8 := 0x22
def stPower : BitVec 8 := 0x23
def stShapeOver : BitVec 8 := 0x30
def stSkew : BitVec 8 := 0x31
def stFormat : BitVec 8 := 0x32
def stHandle : BitVec 8 := 0x33
def stScratch : BitVec 8 := 0x34
def stAbandoned : BitVec 8 := 0x40
def stPreempted : BitVec 8 := 0x41
def stPoisoned : BitVec 8 := 0x42
def stInvalidOp : BitVec 8 := 0x43
def stMalformed : BitVec 8 := 0x50
def stAddress : BitVec 8 := 0x51
def stNotCoherent : BitVec 8 := 0x52

/-- A status in 0x30-0x4F: a command fault (Table 17.4). -/
def isFault (st : BitVec 8) : Bool := 0x30 ≤ st.toNat && st.toNat < 0x50

/-- A descriptor as read (Table 8.1). -/
structure Desc where
  handle  : Nat
  base    : Nat
  control : Nat
  ext     : List Nat
  max     : List Nat
  stride  : List Nat
  stats   : Nat
  hints   : Nat
  check   : Nat
  good    : Bool
deriving DecidableEq, Repr

/-- Control word fields (Table 8.2). -/
def Desc.fmt (d : Desc) : Nat := bitsOf d.control 3 0
def Desc.rank (d : Desc) : Nat := bitsOf d.control 8 6
def Desc.scaleAxis (d : Desc) : Nat := bitsOf d.control 11 9
def Desc.offloadable (d : Desc) : Bool := bitOf d.control 13
def Desc.firstPass (d : Desc) : Bool := bitOf d.control 14
def Desc.frozenEligible (d : Desc) : Bool := bitOf d.control 15
def Desc.scaleHandle (d : Desc) : Nat := bitsOf d.control 63 48

/-- Hint word fields (Table 8.3). -/
def hintTier (h : Nat) : Nat := bitsOf h 3 0
def hintAffinity (h : Nat) : Nat := bitsOf h 7 4
def hintStripe (h : Nat) : Nat := bitsOf h 9 8
def hintLead (h : Nat) : Nat := bitsOf h 13 10
def hintResidency (h : Nat) : Nat := bitsOf h 15 14
def hintLayer (h : Nat) : Nat := bitsOf h 31 16

/-- The run-time extent of dimension i: 1 at or beyond the rank (R228). -/
def Desc.extent (d : Desc) (i : Nat) : Nat := if i < d.rank then d.ext.getD i 0 else 1
/-- The maximum extent of dimension i: 1 at or beyond the rank. -/
def Desc.maxExtent (d : Desc) (i : Nat) : Nat := if i < d.rank then d.max.getD i 0 else 1

/-- The bytes the check word covers: extents, first_pass and hints taken as zero (Table 8.1). -/
def descCovered (bs : List Byte) : List Byte :=
  let z4 : List Byte := List.replicate 4 0
  let bs := (upTo 6).foldl (fun b i => splice b (16 * i + 16) z4) bs
  let c9 := (bs.getD 9 0) &&& 0xBF
  let bs := splice bs 9 [c9]
  (splice bs 120 z4).take 124

/-- Read a descriptor from its 128 bytes. -/
def parseDesc (h : Nat) (bs : List Byte) : Desc where
  handle := h
  base := field bs 0 6
  control := field bs 8 8
  ext := (upTo 6).map (fun i => field bs (16 * i + 16) 4)
  max := (upTo 6).map (fun i => field bs (16 * i + 20) 4)
  stride := (upTo 6).map (fun i => field bs (16 * i + 24) 8)
  stats := field bs 112 8
  hints := field bs 120 4
  check := field bs 124 4
  good := decide (crc32c (descCovered bs) = field bs 124 4)

/-- The 128 bytes of a descriptor, with its check word. -/
def descBytes (d : Desc) : List Byte :=
  let body := leBytes 8 d.base ++ leBytes 8 d.control
    ++ (upTo 6).flatMap (fun i => leBytes 4 (d.ext.getD i 0) ++ leBytes 4 (d.max.getD i 0) ++ leBytes 8 (d.stride.getD i 0))
    ++ leBytes 8 d.stats ++ leBytes 4 d.hints
  body ++ leBytes 4 (crc32c (descCovered (body ++ List.replicate 4 0)))

/-- The address of a descriptor (R224). -/
def State.descAddr (s : State) (p : Part) (h : Nat) : Nat := s.regN .survDescBase p.val + 128 * h

/-- The descriptor of a handle, as memory holds it now. -/
def State.desc (s : State) (p : Part) (h : Nat) : Desc := parseDesc h (s.readVa p (s.descAddr p h) 128)

/-- The footprint in bytes (R227). -/
def Desc.footprint (d : Desc) : Nat :=
  if d.rank = 1 then d.stride.getD 1 0 else d.stride.getD (d.rank - 1) 0 * d.max.getD (d.rank - 1) 0

/-- Dense strides (R227). -/
def denseStrides (fmt rank : Nat) (mx : List Nat) : List Nat :=
  let s1 := ceilDiv (mx.getD 0 0 * fmtBits fmt) 256 * 32
  let go := (upTo 4).foldl (fun (a : List Nat) i => a ++ [a.getD (i + 1) 0 * (if i + 1 < rank then mx.getD (i + 1) 0 else 1)]) [0, s1]
  go

/-- The address of the row that holds an element, with dimension 0 at 0 (R228). -/
def Desc.rowAddr (d : Desc) (idx : List Nat) : Nat :=
  d.base + (upTo 5).foldl (fun a i => a + idx.getD (i + 1) 0 * d.stride.getD (i + 1) 0) 0

/-- The element index in row-major order over the max extents (R55, R228). -/
def Desc.elementIndex (d : Desc) (idx : List Nat) : Nat :=
  (upTo 6).foldr (fun i a => a * d.maxExtent i + idx.getD i 0) 0

/-- The number of channels of a data tensor: the extent of its scale axis (R106). -/
def Desc.channels (d : Desc) : Nat := d.extent d.scaleAxis

/-- The channel of an element, from its element index (R118). -/
def Desc.channelOf (d : Desc) (index : Nat) : Nat :=
  index / ((upTo d.scaleAxis).foldl (fun a i => a * d.maxExtent i) 1) % d.maxExtent d.scaleAxis

/-- A handle check's outcome: the descriptor, or a status with whether DESC_CHECK is logged (R229, R231). -/
inductive Checked where
  | ok (d : Desc)
  | fail (status : BitVec 8) (logDesc : Bool)
deriving DecidableEq, Repr

/-- A statistics address keeps R133: 0, or 64-byte aligned in HBM the partition owns. -/
def State.statsOk (s : State) (p : Part) (a : Nat) : Bool :=
  a = 0 || (a % 64 = 0 && match pageIndex a with
    | some i => let e := (s.part p).page i
                e.valid && decide (e.target = .hbm) && !e.foreign
    | none => false)

/-- The handle check of R12 and R231. `needScale` is set for operations that need the scale tensor of the
handle they name. -/
def State.checkHandle (s : State) (p : Part) (h : Nat) (needScale : Bool := false) : Checked :=
  if h = 0 ∨ h ≥ 65536 then .fail stHandle false
  else if s.poisoned p (s.descAddr p h) 128 then .fail stPoisoned false
  else
    let d := s.desc p h
    if d.rank = 0 then .fail stHandle false
    else if !d.good then .fail stHandle true
    else if !s.statsOk p d.stats then .fail stHandle false
    else if d.scaleHandle ≠ 0 ∧ (s.desc p d.scaleHandle).rank = 0 then .fail stHandle false
    else if needScale && d.scaleHandle = 0 then .fail stHandle false
    else if !s.mapped p d.base d.footprint then .fail stHandle false
    else .ok d

/-- The memory a handle check reads: the descriptor and its scale tensor's. -/
def State.handleRanges (s : State) (p : Part) (h : Nat) : List (Nat × Nat) :=
  if h = 0 then [] else
    let d := s.desc p h
    (s.descAddr p h, 128) :: (if d.scaleHandle = 0 then [] else [(s.descAddr p d.scaleHandle, 128)])

/-- DESC_CHECK in a source's ring with the handle (Table 17.3). -/
def State.descCheck (s : State) (src : BitVec 16) (h : Nat) : State := s.log src 0xF4 (f2 h)

/-- The lowest dimension below the rank whose run-time extent exceeds its maximum (R254, R256). -/
def Desc.overDim (d : Desc) : Option Nat := (upTo d.rank).find? (fun i => decide (d.extent i > d.maxExtent i))

/-- SHAPE_OVER in a source's ring: handle, dimension, extent, maximum (R254, Table 17.3). -/
def State.shapeOver (s : State) (src : BitVec 16) (h dim ext mx : Nat) : State :=
  s.log src 0xF5 (f2 h ++ f1 dim ++ f4 ext ++ f4 mx)

/-- An entry of a scale tensor (Table 4.2). -/
structure ScaleEntry where
  scale : Nat
  recip : Nat
  amax  : Nat
  flags : Nat
deriving DecidableEq, Repr

/-- Read an entry from its 16 bytes. -/
def parseEntry (bs : List Byte) : ScaleEntry := ⟨field bs 0 4, field bs 4 4, field bs 8 4, field bs 12 4⟩
/-- The 16 bytes of an entry. -/
def entryData (e : ScaleEntry) : List Byte := leBytes 4 e.scale ++ leBytes 4 e.recip ++ leBytes 4 e.amax ++ leBytes 4 e.flags

/-- Flag word fields (Table 4.3). -/
def ScaleEntry.kind (e : ScaleEntry) : Nat := bitsOf e.flags 1 0
def ScaleEntry.formed (e : ScaleEntry) : Bool := bitOf e.flags 2
def ScaleEntry.null (e : ScaleEntry) : Bool := bitOf e.flags 3
def ScaleEntry.late (e : ScaleEntry) : Bool := bitOf e.flags 4
def ScaleEntry.fmt (e : ScaleEntry) : Nat := bitsOf e.flags 11 8

/-- Scale entry `c` of a scale tensor lies at its base plus 16c (R109; the row stride of a scale tensor of
16-byte entries is dense). -/
def scaleAt (d : Desc) (c : Nat) : Nat := d.base + 16 * c

end Sys2Proof.Machine
end

