-- ==== Sys2Proof/Machine/Nest.lean ====
section
/-! DEFINITION. Explicit tiling as it runs (R249, R250): the nest of a LAUNCH, which die-cache tiles are under way, and
which core's turn a scratch tile is. Log 112 says how the device's nest and the threads' commands meet. -/

namespace Sys2Proof.Machine

/-- Ranges over M, N and K. -/
abbrev Box : Type := List (Nat × Nat)

/-- A range in steps of `t`, the last one cut. -/
def spans (r : Nat × Nat) (t : Nat) : List (Nat × Nat) :=
  (upTo (ceilDiv (r.2 - r.1) t)).map (fun i => (r.1 + i * t, Nat.min r.2 (r.1 + (i + 1) * t)))

/-- The loops of an order code, outermost first, as positions in (M, N, K) (R249). -/
def loopOrder (code : Nat) : List Nat :=
  match code with
  | 0 => [0, 1, 2] | 1 => [0, 2, 1] | 2 => [1, 0, 2] | 3 => [1, 2, 0] | 4 => [2, 0, 1] | _ => [2, 1, 0]

/-- The tiles of a level in a box, in the level's loop order; `level` is tM, tN, tK and the order code. -/
def subTiles (level : List Nat) (box : Box) : List Box :=
  (loopOrder (level.getD 3 0)).foldl (fun bs i =>
    bs.flatMap (fun b => (spans (b.getD i (0, 0)) (level.getD i 0)).map (fun r => b.set i r))) [box]

/-- The index of a scratch tile's (m, n) in its die-cache tile, n running fastest (log 112). -/
def mnIndex (level : List Nat) (box step : Box) : Nat :=
  let at' (i : Nat) : Nat := ((step.getD i (0, 0)).1 - (box.getD i (0, 0)).1) / level.getD i 0
  at' 0 * (spans (box.getD 1 (0, 0)) (level.getD 1 0)).length + at' 1

/-- Cores of the grid's die at position `i`: 80, or as many as its threads need at `t` to a core. -/
def gridCoresOn (threads t i : Nat) : Nat := Nat.max 1 (Nat.min 80 (ceilDiv (threads - 80 * t * i) t))

/-- The nest of a tiling plan over a product of this shape (R249). -/
def buildNest (hbm dc sp : List Nat) (shape : Box) (dies : List Nat) (threads t : Nat) : List NestTile :=
  ((((subTiles hbm shape).flatMap (subTiles dc)).zipIdx).map (fun x =>
    let i := x.2 % dies.length
    let die := dies.getD i 0
    { die := die, box := x.1,
      steps := (subTiles sp x.1).map (fun b => (die * 128 + mnIndex sp x.1 b % gridCoresOn threads t i, b)) })).filter
    (fun x => !x.steps.isEmpty)

/-- The die-cache tiles under way: a tile begins once its die has finished its previous one, and no tile begins before an
earlier one of the nest. The ways of these tiles are reserved (R249, R250). -/
def openTiles : List Nat → List NestTile → List NestTile
  | _, [] => []
  | busy, x :: rest => if busy.contains x.die then [] else x :: openTiles (x.die :: busy) rest

/-- The scratch tile a core runs next, when its die-cache tile is under way. -/
def nextStep (nest : List NestTile) (core : Nat) : Option Box :=
  (openTiles [] nest).findSome? (fun x => (x.steps.find? (fun y => decide (y.1 = core))).map Prod.snd)

/-- A core may run a product of its grid: its next scratch tile is to be run now, or it has none left. -/
def nestOpen (nest : List NestTile) (core : Nat) : Bool :=
  (nextStep nest core).isSome || nest.all (fun x => x.steps.all (fun y => decide (y.1 ≠ core)))

/-- A core has run its next scratch tile: a die-cache tile with none left is finished and its ways are released. -/
def nestDone : List NestTile → Nat → List NestTile
  | [], _ => []
  | x :: rest, core =>
    match takeFirst (fun y => decide (y.1 = core)) x.steps with
    | some (_, left) => if left.isEmpty then rest else { x with steps := left } :: rest
    | none => x :: nestDone rest core

/-- The scratch tiles of cores that run no thread of the grid any more fall away (log 112). -/
def nestTrim (runs : Nat → Bool) (nest : List NestTile) : List NestTile :=
  (nest.map (fun x => { x with steps := x.steps.filter (fun y => runs y.1) })).filter (fun x => !x.steps.isEmpty)

/-- The threads a LAUNCH asks for (Table 14.5). -/
def launchThreads (bs : List Byte) : Nat := field bs 32 4

/-- The LAUNCH of a thread's grid. -/
def State.gridPacket (s : State) (t : Thread) : Option (Part × Packet) :=
  match (s.context t).grid, s.partOfCore (threadCore t) with
  | some id, some p => ((s.part p).packets.find? (fun k => decide (k.id = id))).map (fun k => (p, k))
  | _, _ => none

/-- The tiles a die's ways are reserved for (R250): no other traffic evicts their lines before they are released. -/
def State.reservedTiles (s : State) (d : Die) : List Box :=
  match s.partOfDie d with
  | none => []
  | some p => ((s.part p).packets.flatMap (fun k => openTiles [] k.nest)).filterMap (fun x =>
      if x.die = d.val then some x.box else none)

/-- A core runs a thread of a grid. -/
def Core.runsGrid (c : Core) (id : Nat) : Bool :=
  c.contexts.any (fun e => decide (e.2.run ≠ .free) && decide (e.2.grid = some id))

/-- Once all threads of a grid are placed, cores that run none of them leave its nest. -/
def State.trimNest (s : State) (p : Part) (id : Nat) : State :=
  let trim (k : Packet) : Packet :=
    if k.placed = launchThreads k.bytes then
      { k with nest := nestTrim (fun c => (s.core (BitVec.ofNat 9 c)).runsGrid id) k.nest }
    else k
  s.onPart p (fun q => { q with packets := updateFirst (fun k => decide (k.id = id)) trim q.packets })

/-- A product of a thread has completed: its core's scratch tile is done (R249). -/
def State.nestStep (s : State) (t : Thread) : State :=
  match s.gridPacket t with
  | none => s
  | some (p, k) =>
    let done (x : Packet) : Packet := { x with nest := nestDone x.nest (threadCore t).toNat }
    s.onPart p (fun q => { q with packets := updateFirst (fun x => decide (x.id = k.id)) done q.packets })

/-- A thread's next product may run under its grid's nest (R249). -/
def State.nestLets (s : State) (t : Thread) : Bool :=
  match s.gridPacket t with
  | none => true
  | some (_, k) => nestOpen k.nest (threadCore t).toNat

end Sys2Proof.Machine
end

