-- ==== Sys2Proof/Machine/Operands.lean ====
section
/-! DEFINITION. The fields of an engine command (Tables 7.1 and 7.2). -/

namespace Sys2Proof

open Machine

/-- Word `i` of a command as a number. -/
def Cmd.word (c : Cmd) (i : Nat) : Nat :=
  match i with
  | 0 => c.w0.toNat | 1 => c.w1.toNat | 2 => c.w2.toNat | 3 => c.w3.toNat
  | 4 => c.w4.toNat | 5 => c.w5.toNat | 6 => c.w6.toNat | _ => c.w7.toNat
/-- Replace word `i`. -/
def Cmd.setWord (c : Cmd) (i v : Nat) : Cmd :=
  let x : Word := BitVec.ofNat 32 v
  match i with
  | 0 => { c with w0 := x } | 1 => { c with w1 := x } | 2 => { c with w2 := x } | 3 => { c with w3 := x }
  | 4 => { c with w4 := x } | 5 => { c with w5 := x } | 6 => { c with w6 := x } | _ => { c with w7 := x }
/-- Bits `hi:lo` of word `i`. -/
def Cmd.bits (c : Cmd) (i hi lo : Nat) : Nat := bitsOf (c.word i) hi lo
/-- One bit of word `i`. -/
def Cmd.bit (c : Cmd) (i b : Nat) : Bool := bitOf (c.word i) b

def Cmd.opcode (c : Cmd) : Nat := c.bits 0 31 24
def Cmd.pred (c : Cmd) : Nat := c.bits 0 21 18
def Cmd.negate (c : Cmd) : Bool := c.bit 0 17
def Cmd.sigEn (c : Cmd) : Bool := c.bit 0 16
def Cmd.subMode (c : Cmd) : Nat := c.bits 0 15 14
def Cmd.subReg (c : Cmd) : Nat := c.bits 0 13 10
def Cmd.subWord (c : Cmd) : Nat := c.bits 0 9 7
def Cmd.sigIncr (c : Cmd) : Nat := c.bits 7 31 16
def Cmd.sigObj (c : Cmd) : SyncObj := BitVec.ofNat 15 (c.bits 7 14 0)

end Sys2Proof

namespace Sys2Proof.Machine

/-- A command read from its 32 bytes. -/
def cmdOf (bs : List Byte) : Cmd :=
  let w (i : Nat) : Word := BitVec.ofNat 32 (field bs (4 * i) 4)
  ⟨w 0, w 1, w 2, w 3, w 4, w 5, w 6, w 7⟩

end Sys2Proof.Machine
end

