-- ==== Sys2Proof/Machine/Ops.lean ====
section
/-! DEFINITION. Engine commands (R164-R223): fields of a command, substitution, predication, legality,
issue, status words, retirement, halting. One set of operations serves every opcode. -/

namespace Sys2Proof.Machine

/-! ## Registers and predicates of a context -/

/-- A scalar register. -/
def Context.sreg (c : Context) (i : Nat) : DWord := Sparse.get 0 c.sregs i
/-- Write a scalar register. -/
def Context.setSreg (c : Context) (i : Nat) (v : DWord) : Context := { c with sregs := Sparse.set 0 c.sregs i v }
/-- A parameter register. -/
def Context.param (c : Context) (i : Nat) : DWord := Sparse.get 0 c.params i
/-- Write a parameter register. -/
def Context.setParam (c : Context) (i : Nat) (v : DWord) : Context := { c with params := Sparse.set 0 c.params i v }
/-- A predicate; p0 always reads true (R196). -/
def Context.pred (c : Context) (i : Nat) : Bool := i = 0 || c.preds.getLsbD i
/-- Write a predicate. -/
def Context.setPred (c : Context) (i : Nat) (b : Bool) : Context :=
  { c with preds := if b then c.preds ||| BitVec.ofNat 16 (2 ^ i) else c.preds &&& ~~~ BitVec.ofNat 16 (2 ^ i) }
/-- Numeric control word fields (Table 2.7). -/
def servingOf (ncw : BitVec 16) : Bool := ncw.getLsbD 0
def tareOf (ncw : BitVec 16) : Bool := ncw.getLsbD 1
def Context.serving (c : Context) : Bool := servingOf c.ncw
def Context.tare (c : Context) : Bool := tareOf c.ncw
def Context.trapInvalid (c : Context) : Bool := c.ncw.getLsbD 2
def Context.srEnable (c : Context) : Bool := c.ncw.getLsbD 3
/-- The rounding mode of a class-rounded operation (R50, R62). -/
def Context.classRnd (c : Context) : Rnd := if c.tare then .even else if c.serving then .away else .even

/-- The iteration index of a stream's innermost active loop; 0 outside any loop (R197). -/
def StreamState.index (x : StreamState) : Word :=
  match x.loops with
  | [] => 0
  | l :: _ => l.iter

/-- The command after substitution from a parameter register (R197). -/
def substitute (c : Context) (st : Stream) (cmd : Cmd) : Cmd :=
  let v := (c.param cmd.subReg).toNat % 2 ^ 32
  if cmd.subWord = 0 then cmd
  else match cmd.subMode with
  | 1 => cmd.setWord cmd.subWord v
  | 2 => cmd.setWord cmd.subWord (cmd.word cmd.subWord + v)
  | 3 => cmd.setWord cmd.subWord (cmd.word cmd.subWord + v * (c.stream st).index.toNat)
  | _ => cmd

/-- The predicate selects the command (R196). -/
def selects (c : Context) (cmd : Cmd) : Bool := c.pred cmd.pred != cmd.negate

/-! ## Legality (R195, R207, R240) -/

/-- The engine an opcode belongs to; none for an undefined one; common opcodes belong to every stream
(Table 7.3). -/
def opcodeEngine (op : Nat) : Option (Option Stream) :=
  if op ≤ 0x06 then some none
  else if 0x10 ≤ op ∧ op ≤ 0x24 then some (some .scalar)
  else if 0x30 ≤ op ∧ op ≤ 0x31 then some (some .matrix)
  else if (0x40 ≤ op ∧ op ≤ 0x58) ∨ (0x60 ≤ op ∧ op ≤ 0x66) ∨ (0x68 ≤ op ∧ op ≤ 0x6A) then some (some .vector)
  else if 0x70 ≤ op ∧ op ≤ 0x78 then some (some .move)
  else none

/-- Loop limits (R207): depth 4, body 1-64, nesting, count source 3. -/
def loopBad (x : StreamState) (pc : Nat) (cmd : Cmd) : Bool :=
  let l := cmd.bits 1 6 0
  decide (x.loops.length ≥ 4) || l = 0 || decide (l > 64) || cmd.bits 1 8 7 = 3
    || x.loops.any (fun y => decide (pc + 1 + l > y.first + y.len))

/-- Width in units of 4 bits of a format the move engine builds tiles from (R243); 1 otherwise. -/
def tileUnits (f : Nat) : Nat := if f < 12 then fmtBits f / 4 else 1

/-- A field outside the range its table gives (R195, R201, R202, R209, R210, R214, R240, R245). -/
def State.fieldBad (s : State) (t : Thread) (st : Stream) (cmd : Cmd) : Bool :=
  let op := cmd.opcode
  let fmtOf (h : Nat) : Nat := match s.partOfCore (threadCore t) with
    | some p => (s.desc p h).fmt
    | none => 0
  if op = 0x02 then cmd.bits 1 8 7 = 1 && decide (st ≠ .scalar)
  else if op = 0x1C then decide (cmd.bits 1 19 16 > 5) || cmd.bits 1 23 20 = 0 || decide (cmd.bits 1 23 20 > 11)
  else if op = 0x1D then
    match cmd.bits 1 30 28 with
    | 0 => cmd.bit 3 0 || decide (cmd.bits 3 16 12 ≠ 0) || decide (cmd.bits 3 31 28 ≠ 0)
    | 1 => cmd.bits 1 21 20 = 3 || cmd.bits 1 25 22 = 0 || decide (cmd.bits 1 25 22 > 8)
    | 2 => cmd.bits 1 25 22 = 0 || decide (cmd.bits 1 25 22 > 11)
    | 3 => cmd.bits 1 25 22 = 0 || decide (cmd.bits 1 25 22 > 8)
    | _ => true
  else if op = 0x24 then decide (cmd.bits 2 15 4 ≠ 0)
  else if op = 0x30 ∨ op = 0x31 then
    cmd.bits 3 17 16 = 3 || decide (cmd.bits 3 22 19 > 8)
      || (cmd.bit 3 18 && (decide (cmd.bits 3 17 16 ≠ 0) || decide (cmd.bits 3 22 19 ≠ 0)))
      || (op = 0x31 && !cmd.bit 3 18 && cmd.bits 3 22 19 = 0)
  else if op = 0x4F then decide (cmd.bits 5 31 29 > 5)
  else if op = 0x66 then cmd.bit 1 25 || cmd.bit 2 25 || cmd.bit 5 17
  else if op = 0x70 then
    decide (cmd.bits 5 31 16 > 288) || decide (cmd.bits 5 15 0 > 144 / tileUnits (fmtOf (cmd.bits 1 15 0)))
  else if op = 0x71 then
    decide (cmd.bits 5 31 16 > 144 / (cmd.bits 6 17 16 + 1))
      || decide (cmd.bits 5 15 0 > 144 / tileUnits (fmtOf (cmd.bits 1 15 0)))
  else if op = 0x72 then decide (cmd.bits 5 15 0 > 288) || decide (cmd.bits 5 31 16 > 2)
  else if op = 0x76 then decide (cmd.bits 1 15 0 ≠ 0)
  else false

/-- Why a fetched command is illegal, as ILLEGAL_COMMAND codes it (R195, Table 17.3). -/
def State.illegal (s : State) (t : Thread) (st : Stream) (q : QEntry) : Option Nat :=
  let cmd := substitute (s.context t) st q.cmd
  if q.flaw = .pastEnd then some 6
  else if q.flaw = .poisoned then some 7
  else match opcodeEngine cmd.opcode with
    | none => some 0
    | some (some e) =>
      if e ≠ st then (if cmd.opcode = 0x23 then some 2 else some 1)
      else if cmd.subMode ≠ 0 ∧ cmd.subWord = 0 then some 3
      else if s.fieldBad t st cmd then some 4 else none
    | some none =>
      if cmd.subMode ≠ 0 ∧ cmd.subWord = 0 then some 3
      else if s.fieldBad t st cmd then some 4
      else if cmd.opcode = 0x02 ∧ loopBad (s.stream t st) q.pc.toNat cmd then some 5 else none

/-! ## Issue (R165, R173, R174) -/

/-- A context whose streams issue: running, not halted, no pre-emption under way (R169, R170). -/
def Context.issues (c : Context) : Bool := decide (c.run = .running) && c.halt.isNone && c.preempt.isNone

/-- The stream's command occupies its engine: a pending WAIT does not (R173, R188). -/
def StreamState.occupies (x : StreamState) : Bool :=
  match x.cur with
  | some r => !(decide (r.cmd.opcode = 0x04) && !r.ended)
  | none => false

/-- Commands an engine of a core has in flight. -/
def Core.inFlight (c : Core) (st : Stream) : Nat :=
  (c.contexts.filter (fun e => (e.2.stream st).occupies)).length

/-- The most commands an engine keeps in flight (R174). -/
def flightLimit : Stream → Nat
  | .scalar => 64 | .vector => 4 | .matrix => 64 | .move => 16

/-- The stream may take its next command: the module is live, the context issues, the previous command has
completed (R165, R173). -/
def State.mayIssue (s : State) (t : Thread) (st : Stream) : Bool :=
  s.live && coreExists (threadCore t) && (s.context t).issues && (s.stream t st).cur.isNone

/-- The stream's engine has room for one more command (R174). -/
def State.engineFree (s : State) (t : Thread) (st : Stream) : Bool :=
  decide ((s.core (threadCore t)).inFlight st < flightLimit st)

/-- The command at the head of a stream's queue. -/
def State.head (s : State) (t : Thread) (st : Stream) : Option QEntry := (s.stream t st).queue.head?

/-- The array can take a command: none is on it, and for a MATMUL it is the core's turn in its grid's nest (R74, R174,
R249). Other commands do not ask. -/
def State.arrayOpen (s : State) (t : Thread) (cmd : Cmd) : Bool :=
  if cmd.opcode = 0x30 ∨ cmd.opcode = 0x31 then
    (s.core (threadCore t)).array.cmd.isNone && (decide (cmd.opcode = 0x31) || s.nestLets t)
  else true

/-- A stream is ready for its engine (R173): it may take a command, and its head command, or the one it reissues, is fetched,
legal and executed and its condition holds. A WAIT holds no engine. -/
def State.contends (s : State) (t : Thread) (st : Stream) : Bool :=
  s.mayIssue t st &&
    (match (s.stream t st).reissue with
    | some r => s.arrayOpen t r.cmd
    | none =>
      match s.head t st with
      | none => false
      | some q =>
        let cmd := substitute (s.context t) st q.cmd
        (s.illegal t st q).isNone && selects (s.context t) cmd && decide (cmd.opcode ≠ 0x04) && s.arrayOpen t cmd)

/-- The context an engine of a core issued last (R173). -/
def Core.issued (c : Core) (st : Stream) : Nat :=
  match st with
  | .scalar => c.issuedScalar
  | .vector => c.issuedVector
  | .matrix => c.issuedMatrix
  | .move => c.issuedMove

/-- A thread of a core by its context. -/
def threadAt (core : CoreId) (ctx : Nat) : Thread := BitVec.ofNat 15 (core.toNat * 64 + ctx)

/-- The stream is the first ready one after the context its engine issued last (R173). -/
def State.hasTurn (s : State) (t : Thread) (st : Stream) : Bool :=
  let last := (s.core (threadCore t)).issued st
  ((upTo 64).map (fun i => (last + 1 + i) % 64)).find? (fun i => s.contends (threadAt (threadCore t) i) st) = some (threadCtx t)

/-- The head command with its substitution, when the stream may issue it: legal, selected by its
predicate, with opcode `op`, and the engine has room and it is the stream's turn; a WAIT holds no engine (R173, R174,
R195-R197). -/
def State.issuable (s : State) (t : Thread) (st : Stream) (op : Nat) : Option (QEntry × Cmd) :=
  if s.mayIssue t st && (s.stream t st).reissue.isNone && (decide (op = 0x04) || (s.engineFree t st && s.hasTurn t st)) then
    match s.head t st with
    | none => none
    | some q =>
      let cmd := substitute (s.context t) st q.cmd
      if (s.illegal t st q).isNone && selects (s.context t) cmd && decide (cmd.opcode = op) then some (q, cmd)
      else none
  else none

/-- The partition of a thread; threads run only on cores of a partition. -/
def State.threadPart (s : State) (t : Thread) : Part := (s.partOfCore (threadCore t)).getD 0

/-- Note which context an engine issued last (R173). -/
def Core.markIssued (c : Core) (st : Stream) (ctx : Nat) : Core :=
  match st with
  | .scalar => { c with issuedScalar := ctx }
  | .vector => { c with issuedVector := ctx }
  | .matrix => { c with issuedMatrix := ctx }
  | .move => { c with issuedMove := ctx }

/-- The engine has taken up the stream's command and the turn passes on, though the command still waits for its lines or
for room at a unit it uses: a waiting stream blocks no other (R173). -/
def State.passTurn (s : State) (t : Thread) (st : Stream) : State :=
  s.setCore (threadCore t) ((s.core (threadCore t)).markIssued st (threadCtx t))

/-- Ask for lines a command reads. -/
def State.askFor (s : State) (t : Thread) (st : Stream) (ranges : List (Nat × Nat)) : State :=
  (s.ask (s.threadPart t) ranges).passTurn t st

/-- Take the head command into flight: it leaves the queue and runs with this outcome so far. -/
def State.startRun (s : State) (t : Thread) (st : Stream) (r : Running) : State :=
  let x := s.stream t st
  let s := s.setStream t st { x with queue := x.queue.tail, cur := some r }
  s.setCore (threadCore t) ((s.core (threadCore t)).markIssued st (threadCtx t))

/-- The record of a command just issued, its sequence number the stream's retire count (R217). -/
def State.running0 (s : State) (t : Thread) (st : Stream) (q : QEntry) (cmd : Cmd) : Running where
  cmd := cmd
  pc := q.pc
  seq := (s.stream t st).count
  ended := false
  status := stOk
  tile := 0
  flags := 0
  parts := 0
  ncw := (s.context t).ncw

/-- Issue a command whose work ends at once with a status. -/
def State.issueDone (s : State) (t : Thread) (st : Stream) (q : QEntry) (cmd : Cmd)
    (status : BitVec 8) (tile : Nat := 0) (flags : BitVec 5 := 0) : State :=
  s.startRun t st { s.running0 t st q cmd with
    ended := true, status := status, tile := BitVec.ofNat 32 tile, flags := flags }

/-- Issue a command whose work goes on. -/
def State.issueOpen (s : State) (t : Thread) (st : Stream) (q : QEntry) (cmd : Cmd) : State :=
  s.startRun t st (s.running0 t st q cmd)

/-- The completion signal's object lies outside the partition's subset: HANDLE_INVALID before any read
(R186, R198). -/
def State.signalBad (s : State) (t : Thread) (cmd : Cmd) : Bool :=
  cmd.sigEn && !s.ownsSync (s.threadPart t) cmd.sigObj

/-- A command in flight has ended with this status, its writes maybe still on their way. -/
def State.endRun (s : State) (t : Thread) (st : Stream) (status : BitVec 8) (tile : Nat) (flags : BitVec 5) : State :=
  let x := s.stream t st
  match x.cur with
  | none => s
  | some r => s.setStream t st { x with cur := some { r with
      ended := true, status := status, tile := BitVec.ofNat 32 tile, flags := flags } }

/-! ## Status words (R216, Tables 7.12 and 7.13) -/

/-- The scratch offset of a context's area. -/
def ctxArea (ctx : Nat) : Nat := 0x1FC000 + ctx * 256

/-- A status word's 16 bytes. -/
def statusWord (r : Running) : List Byte :=
  leBytes 4 (r.status.toNat + r.flags.toNat * 256 + r.cmd.opcode * 65536)
    ++ leBytes 4 r.tile.toNat ++ leBytes 4 r.seq.toNat ++ leBytes 4 r.pc.toNat

/-- Write a stream's status word. -/
def State.writeStatus (s : State) (t : Thread) (st : Stream) (r : Running) : State :=
  let c := s.core (threadCore t)
  s.setCore (threadCore t) (c.writeScratch (ctxArea (threadCtx t) + st.code * 16) (statusWord r) false)

/-- A stream's last status code. -/
def State.lastStatus (s : State) (t : Thread) (st : Stream) : Nat :=
  field ((s.core (threadCore t)).readScratch (ctxArea (threadCtx t) + st.code * 16) 1) 0 1

/-- The 32 bytes of a first-exception record; all zero when none is held (Table 7.14). -/
def excBytes : Option FirstExc → List Byte
  | none => List.replicate 32 0
  | some x => [1, BitVec.ofNat 8 x.cause] ++ leBytes 2 x.lane ++ List.replicate 4 0
      ++ leBytes 8 (x.index % 2 ^ 48) ++ leBytes 4 x.tile.toNat ++ leBytes 4 x.seq.toNat ++ List.replicate 8 0

/-- Write the first-exception record of the vector or matrix stream. -/
def State.writeExc (s : State) (t : Thread) (st : Stream) (x : Option FirstExc) : State :=
  let o := ctxArea (threadCtx t) + (if st = .vector then 0x40 else 0x60)
  s.setCore (threadCore t) ((s.core (threadCore t)).writeScratch o (excBytes x) false)

/-! ## Sync operations on their way (R185, R187) -/

/-- An operation arrives at its object's home unit. -/
def State.sendSync (s : State) (op : SyncOp) : State := { s with syncQueue := s.syncQueue ++ [op] }

/-- A SIGNAL by an agent that is no stream. -/
def State.signalObj (s : State) (obj : SyncObj) (d : Nat) (source : BitVec 16) : State :=
  s.sendSync ⟨obj, .signal (BitVec.ofNat 64 d), none, source⟩

/-! ## Retirement, halts, ends (R169, R204, R217, R222) -/

/-- A context with a command in flight; a pending WAIT is none (R222). -/
def Context.busy (c : Context) : Bool :=
  [Stream.scalar, .vector, .matrix, .move].any (fun st => (c.stream st).occupies)

/-- The stop unit armed on a thread and stream whose count is reached at retire count `n` (R222). -/
def State.stopUnit (s : State) (t : Thread) (st : Stream) (n : Nat) : Option (Fin 16) :=
  (List.finRange 16).find? (fun u =>
    let c := s.regN .dbgStopCtrl u.val
    bitOf c 31 && decide (bitsOf c 14 0 = t.toNat) && decide (bitsOf c 17 16 = st.code)
      && decide (s.regN .dbgStopCount u.val = n))

/-- Halt a context in place. -/
def State.haltCtx (s : State) (t : Thread) (h : HaltInfo) : State :=
  let c := s.context t
  if c.halt.isSome then s else s.setContext t { c with halt := some h }

/-- The LAUNCH of a thread hears of a context that is done (R404). -/
def State.threadDone (s : State) (t : Thread) (grid : Option Nat) : State :=
  match grid, s.partOfCore (threadCore t) with
  | some id, some p => (s.onPart p (fun q => { q with
      packets := updateFirst (fun k => decide (k.id = id)) (fun k => { k with alive := k.alive - 1 }) q.packets })).trimNest p id
  | _, _ => s

/-- The LAUNCH of a thread keeps the first fault status of its grid: status, thread, sequence number, tile
(R404). -/
def State.threadFault (s : State) (t : Thread) (status : BitVec 8) (seq tile : Nat) : State :=
  match (s.context t).grid, s.partOfCore (threadCore t) with
  | some id, some p => s.onPart p (fun q => { q with
      packets := updateFirst (fun k => decide (k.id = id) && k.status.isNone)
        (fun k => { k with status := some status, detail := t.toNat, detail2 := seq, value := tile }) q.packets })
  | _, _ => s

/-- Free a context: its state stays, its streams hold nothing (R169, R170). -/
def State.freeCtx (s : State) (t : Thread) : State :=
  let c := s.context t
  let clear (x : StreamState) : StreamState :=
    { x with queue := [], loops := [], cur := none, reissue := none, switchTo := none, ended := true }
  let s := s.setContext t { c with
    run := .free, halt := none, preempt := none, grid := none,
    scalar := clear c.scalar, vector := clear c.vector, matrix := clear c.matrix, move := clear c.move }
  { s.threadDone t c.grid with
    waits := s.waits.filter (fun w => decide (w.thread ≠ t))
    syncQueue := s.syncQueue.map (fun o => match o.thread with
      | some x => if x.1 = t then { o with thread := none } else o
      | none => o) }

/-- All four streams have retired END: the context is done (R169). -/
def State.checkDone (s : State) (t : Thread) : State :=
  let c := s.context t
  if c.scalar.ended && c.vector.ended && c.matrix.ended && c.move.ended then s.freeCtx t else s

/-- A stream retires a command: its count advances and a stop unit may halt the thread (R217, R222). -/
def State.retire (s : State) (t : Thread) (st : Stream) : State :=
  let x := s.stream t st
  let n := x.count + 1
  let s := s.setStream t st { x with count := n }
  match s.stopUnit t st n.toNat with
  | none => s
  | some u => s.haltCtx t ⟨0, some u, st, BitVec.ofNat 32 (s.regN .dbgStopCount u.val), false⟩

/-- A command is inside a loop body of its stream. -/
def StreamState.inLoop (x : StreamState) : Bool := !x.loops.isEmpty

/-- Predicates at the end of an executed command: p12-p14 for the vector, matrix and move streams' own
opcodes, p15 on a fault inside a loop (R203, R204). -/
def endPreds (c : Context) (st : Stream) (r : Running) : Context :=
  let c := if st ≠ .scalar ∧ r.cmd.opcode > 0x06 then
      ((c.setPred 12 (r.status = stEmpty)).setPred 13 (r.status = stSaturated)).setPred 14 (r.status = stShapeOver)
    else c
  if (isFault r.status) && (c.stream st).inLoop then c.setPred 15 true else c

/-- Complete the command in flight: status word, predicates, completion signal unless PREEMPTED, and
retirement; a PREEMPTED command waits to be reissued from its tile with its own number (R165, R170, R198,
R203, R204, R216, R217). -/
def State.complete (s : State) (t : Thread) (st : Stream) (r : Running) : State :=
  let s := s.writeStatus t st r
  let s := s.setContext t (endPreds (s.context t) st r)
  let s := if isFault r.status && decide (r.status ≠ stPreempted) then s.threadFault t r.status r.seq.toNat r.tile.toNat else s
  let x := s.stream t st
  if r.status = stPreempted then
    let cmd := r.cmd.setWord 5 (r.cmd.bits 5 15 0 + r.tile.toNat * 65536)
    let left := r.cmd.bits 3 31 23
    let cmd := if left = 0 then cmd
      else cmd.setWord 3 (r.cmd.bits 3 22 0 + (left - (r.tile.toNat - r.cmd.bits 5 31 16)) * 2 ^ 23)
    s.setStream t st { x with cur := none, reissue := some { r with
      cmd := cmd, ended := false, status := stOk, tile := 0, flags := 0 } }
  else
    let s := s.setStream t st { x with cur := none }
    let s := if r.cmd.opcode = 0x30 then s.nestStep t else s
    let s := if r.cmd.sigEn && s.ownsSync (s.threadPart t) r.cmd.sigObj then
        s.signalObj r.cmd.sigObj r.cmd.sigIncr (engineSource (threadCore t) st) else s
    let s := if r.cmd.opcode = 0x06 ∧ r.status = stOk then
        let x := s.stream t st
        s.setStream t st { x with switchTo := some (BitVec.ofNat 13 (r.cmd.bits 1 12 0)) } else s
    s.retire t st

end Sys2Proof.Machine
end

