-- ==== Sys2Proof/Machine/Streams.lean ====
section
/-! DEFINITION. The control core and the streams' control flow (R169, R171-R173, R195, R196, R205-R208,
R219, R221): fetch, illegal and skipped commands, completion, NOP, END, LOOP, bank switches. -/

namespace Sys2Proof.Machine

/-- The outcome of a step: the next state. -/
abbrev Out := Host.Outcome State Fault Refusal

/-- A step of a core: a core number 80-127 names no core (R22). -/
def onCore (c : CoreId) (s : State) (f : State → State) : Out :=
  if coreExists c then .next (f s) else .fault .noSuchCore

/-- A step of a thread. -/
def onThread (t : Thread) (s : State) (f : State → State) : Out := onCore (threadCore t) s f

/-! ## Fetch (R171, R172) -/

/-- The stream numbered `n mod 4` in the order scalar, vector, matrix, move. -/
def streamOf (n : Nat) : Stream :=
  match n % 4 with | 0 => .scalar | 1 => .vector | 2 => .matrix | _ => .move

/-- Queue capacity of a stream (Table 6.2). -/
def queueCapacity (allotment : Nat) (st : Stream) : Nat :=
  match st with
  | .scalar | .matrix => min 16 (64 / allotment)
  | .vector | .move => min 32 (128 / allotment)

/-- Fetch waits behind a command that decides where the stream goes next: END, LOOP, BANK_SWITCH or an
illegal entry. -/
def QEntry.steers (q : QEntry) : Bool :=
  q.cmd.opcode = 0x01 || q.cmd.opcode = 0x02 || q.cmd.opcode = 0x06 || decide (q.flaw ≠ .sound)

/-- The stream stands at the end of its innermost loop's body: whether it goes round again is not yet
known (R208). -/
def StreamState.atBodyEnd (x : StreamState) : Bool :=
  match x.loops with
  | [] => false
  | l :: _ => x.pc = l.first + l.len

/-- A stream may be fetched for: its context is running and not halted, its queue has a free entry (R171), and the next
command's place is known. -/
def fetchable (c : Core) (n : Nat) : Bool :=
  let x := c.context (n / 4)
  let st := streamOf n
  let y := x.stream st
  decide (x.run = .running) && x.halt.isNone && decide (n / 4 < 64) && !y.ended && y.switchTo.isNone
    && decide (y.queue.length < queueCapacity c.allotment st) && !y.queue.any QEntry.steers
    && !(match y.cur with
        | some r => r.cmd.opcode = 0x02 || r.cmd.opcode = 0x06
        | none => false)
    && !y.atBodyEnd

/-- The stream the control core serves next: streams with an empty queue first, each level round-robin
after the one served last (R171). -/
def nextFetch (c : Core) : Option Nat :=
  let order := (upTo 256).map (fun i => (c.fetched + 1 + i) % 256)
  match order.find? (fun n => fetchable c n && ((c.context (n / 4)).stream (streamOf n)).queue.isEmpty) with
  | some n => some n
  | none => order.find? (fetchable c)

/-- Fetch one command for the next stream; `upset` is an uncorrectable program memory error met on the
way (Table 17.5). A program counter beyond 8,191 brings an implicit illegal command (R219). -/
def State.fetchOne (s : State) (core : CoreId) (upset : Bool) : State :=
  let c := s.core core
  match nextFetch c with
  | none => s
  | some n =>
    let x := c.context (n / 4)
    let y := x.stream (streamOf n)
    let past := decide (y.pc ≥ 8192)
    let at' := (if x.bank then 8192 else 0) + y.pc
    let cmd := if past then Cmd.zero else Sparse.get Cmd.zero c.program at'
    let flaw : FetchFlaw := if past then .pastEnd
      else if upset || Sparse.get false c.programPoison at' then .poisoned else .sound
    let q : QEntry := ⟨cmd, BitVec.ofNat 13 y.pc, flaw⟩
    let y := { y with pc := if past then y.pc else y.pc + 1, queue := y.queue ++ [q] }
    let s := s.setCore core ({ c with fetched := n }.setContext (n / 4) (x.setStream (streamOf n) y))
    if upset && !past then s.eccUncorrected (coreSource core 0) 6 ((if x.bank then 8192 else 0) * 32 + q.pc.toNat * 32)
    else s

/-- COMMAND_FETCH (R171): up to two commands in one KCLK. -/
def execCommandFetch (core : CoreId) (upset : Bool) (s : State) : Out :=
  onCore core s (fun s => if s.live then (s.fetchOne core upset).fetchOne core false else s)

/-! ## Illegal and skipped commands -/

/-- ILLEGAL_COMMAND (R195): the command is not executed; its context halts and the core's ring says why. -/
def execIllegalCommand (t : Thread) (st : Stream) (s : State) : Out :=
  onThread t s (fun s =>
    if s.mayIssue t st && (s.stream t st).reissue.isNone then
      match s.head t st with
      | none => s
      | some q =>
        match s.illegal t st q with
        | none => s
        | some cause =>
          let at' := if q.flaw = .pastEnd then (s.stream t st).pc else q.pc.toNat
          let n := (s.stream t st).count
          let s := s.log (coreSource (threadCore t) 0) 1 (f4 t.toNat ++ f1 st.code ++ f2 at' ++ f1 cause)
          s.haltCtx t ⟨1, none, st, n, false⟩
    else s)

/-- COMMAND_SKIPPED (R196): the command retires at the queue head, with no effect; a skipped LOOP takes its
whole body with it (R207). -/
def execCommandSkipped (t : Thread) (st : Stream) (s : State) : Out :=
  onThread t s (fun s =>
    if s.mayIssue t st && (s.stream t st).reissue.isNone then
      match s.head t st with
      | none => s
      | some q =>
        let cmd := substitute (s.context t) st q.cmd
        if (s.illegal t st q).isNone && !selects (s.context t) cmd then
          let x := s.stream t st
          let pc := if cmd.opcode = 0x02 then q.pc.toNat + 1 + cmd.bits 1 6 0 else x.pc
          let s := s.setStream t st { x with queue := x.queue.tail, pc := pc }
          s.retire t st
        else s
    else s)

/-! ## Completion -/

/-- A command in flight whose work has ended and whose writes and partials have arrived (R142, R165). -/
def State.completable (s : State) (t : Thread) (st : Stream) : Option Running :=
  match (s.stream t st).cur with
  | some r => if s.live && r.ended && decide (r.parts = 0) && !s.writesPending (t, st) then some r else none
  | none => none

/-- COMMAND_COMPLETE (R165). -/
def execCommandComplete (t : Thread) (st : Stream) (s : State) : Out :=
  onThread t s (fun s =>
    match s.completable t st with
    | some r => s.complete t st r
    | none => s)

/-! ## Common commands (Table 7.4) -/

/-- Issue a common command that ends at once: a completion object outside the subset fails it. -/
def State.issueCommon (s : State) (t : Thread) (st : Stream) (op : Nat) (f : Cmd → QEntry → State → State) : State :=
  match s.issuable t st op with
  | none => s
  | some (q, cmd) =>
    if s.signalBad t cmd then s.issueDone t st q cmd stHandle
    else f cmd q s

/-- NOP (R194): nothing. -/
def execNop (t : Thread) (st : Stream) (s : State) : Out :=
  onThread t s (fun s => s.issueCommon t st 0x00 (fun cmd q s => s.issueDone t st q cmd stOk))

/-- The count a LOOP latches (R205). -/
def loopCount (c : Context) (cmd : Cmd) : Word :=
  match cmd.bits 1 8 7 with
  | 1 => BitVec.ofNat 32 (c.sreg (cmd.bits 1 13 9)).toNat
  | 2 => BitVec.ofNat 32 (c.param (cmd.bits 1 12 9)).toNat
  | _ => cmd.w2

/-- LOOP (R205, R206): latch the count; a zero count skips the body. The scalar stream entering its
outermost loop clears p15 (R204). -/
def execLoop (t : Thread) (st : Stream) (s : State) : Out :=
  onThread t s (fun s => s.issueCommon t st 0x02 (fun cmd q s =>
    let n := loopCount (s.context t) cmd
    let len := cmd.bits 1 6 0
    let outer := (s.stream t st).loops.isEmpty
    let s := s.issueDone t st q cmd stOk
    let x := s.stream t st
    if n = 0 then s.setStream t st { x with pc := q.pc.toNat + 1 + len }
    else
      let s := s.setStream t st { x with
        pc := q.pc.toNat + 1, loops := ⟨q.pc.toNat + 1, len, n, 0, cmd.bit 1 14⟩ :: x.loops }
      if st = .scalar ∧ outer then s.setContext t ((s.context t).setPred 15 false) else s))

/-- LOOP_ITERATION_END (R208): every command of the body has retired; the loop goes round, or exits on its
count or on p15 with exit_on_fault. -/
def execLoopIterationEnd (t : Thread) (st : Stream) (s : State) : Out :=
  onThread t s (fun s =>
    let x := s.stream t st
    match x.loops with
    | [] => s
    | l :: rest =>
      if s.live && (s.context t).issues && x.queue.isEmpty && x.cur.isNone && x.reissue.isNone && x.atBodyEnd then
        if l.iter + 1 < l.count ∧ ¬(l.exitOnFault = true ∧ (s.context t).pred 15 = true) then
          s.setStream t st { x with pc := l.first, loops := { l with iter := l.iter + 1 } :: rest }
        else s.setStream t st { x with loops := rest }
      else s)

/-- BANK_SWITCH (R221): the stream stops fetching until the context's bank flips. -/
def execBankSwitch (t : Thread) (st : Stream) (s : State) : Out :=
  onThread t s (fun s => s.issueCommon t st 0x06 (fun cmd q s => s.issueDone t st q cmd stOk))

/-- A PM_LOAD in flight on the core writes the bank (R221); W4 bit 13 is its bank (DESIGN CHOICE, log 16). -/
def Core.bankBeingWritten (c : Core) (bank : Bool) : Bool :=
  c.contexts.any (fun e => match e.2.move.cur with
    | some r => r.cmd.opcode = 0x78 && r.cmd.bit 4 13 = bank
    | none => false)

/-- BANK_SWITCH_TAKES_EFFECT (R221). -/
def execBankSwitchTakesEffect (t : Thread) (s : State) : Out :=
  onThread t s (fun s =>
    let c := s.context t
    let parked (x : StreamState) : Bool := x.ended || x.switchTo.isSome
    if s.live && decide (c.run = .running) && parked c.scalar && parked c.vector && parked c.matrix && parked c.move
        && (c.scalar.switchTo.isSome || c.vector.switchTo.isSome || c.matrix.switchTo.isSome || c.move.switchTo.isSome)
        && !c.busy && !(s.core (threadCore t)).bankBeingWritten (!c.bank) then
      let go (x : StreamState) : StreamState := match x.switchTo with
        | some e => { x with pc := e.toNat, switchTo := none, queue := [], loops := [] }
        | none => x
      s.setContext t { c with
        bank := !c.bank, scalar := go c.scalar, vector := go c.vector,
        matrix := go c.matrix, move := go c.move }
    else s)

end Sys2Proof.Machine
end

