-- ==== Sys2Proof/Machine/Sync.lean ====
section
/-! DEFINITION. Sync objects (R183-R192): SIGNAL, WAIT, RESET and FETCH_ADD, their application at the home
unit, and plain writes to a slot. -/

namespace Sys2Proof.Machine

/-- A stream's sync command has completed at the home unit. -/
def State.syncDone (s : State) (o : Option (Thread × Stream)) : State :=
  match o with
  | some (t, st) => s.endRun t st stOk 0 0
  | none => s

/-- Every registered wait that the object's value satisfies makes its stream ready (R188). -/
def State.compareWaits (s : State) (obj : SyncObj) : State :=
  let v := s.syncValue obj
  let hit := s.waits.filter (fun w => decide (w.obj = obj ∧ w.threshold ≤ v))
  let s := { s with waits := s.waits.filter (fun w => !decide (w.obj = obj ∧ w.threshold ≤ v)) }
  hit.foldl (fun s w => s.endRun w.thread w.stream stOk 0 0) s

/-- Register a WAIT and compare it with the value (R188). -/
def State.registerWait (s : State) (obj : SyncObj) (t : Thread) (st : Stream) (threshold : DWord) : State :=
  let w : SyncWait := ⟨obj, t, st, threshold, false⟩
  { s with waits := s.waits ++ [w] }.compareWaits obj

/-- A saturating addition to an object; passing 2^64 − 1 is logged in the issuer's ring (R185). -/
def State.addSync (s : State) (obj : SyncObj) (d : DWord) (source : BitVec 16) : State :=
  let v := (s.syncValue obj).toNat + d.toNat
  if v < 2 ^ 64 then s.setSync obj (BitVec.ofNat 64 v)
  else (s.setSync obj (BitVec.ofNat 64 (2 ^ 64 - 1))).log source 0xF3 (f2 obj.toNat)

/-- A signal of a running partition's growth object is noted for Surveyor (R271). -/
def State.grown (s : State) (obj : SyncObj) : State :=
  allParts.foldl (fun s p =>
    if s.ownsSync p obj && s.running p && decide (s.regN .survKvGrowObj p.val = obj.toNat) then
      s.onPart p (fun q => { q with growSignals := q.growSignals + 1 }) else s) s

/-- Apply one operation to its object (Table 6.5) and compare the waits. -/
def State.applySync (s : State) (op : SyncOp) : State :=
  match op.kind with
  | .signal d => ((s.grown op.obj).addSync op.obj d op.source |>.syncDone op.thread).compareWaits op.obj
  | .fetchAdd d =>
    let old := s.syncValue op.obj
    let s := s.addSync op.obj d op.source
    let s := match op.thread with
      | some (t, st) =>
        match (s.stream t st).cur with
        | some r => s.setContext t ((s.context t).setSreg (r.cmd.bits 1 29 25) old)
        | none => s
      | none => s
    (s.syncDone op.thread).compareWaits op.obj
  | .reset x => ((s.setSync op.obj x).syncDone op.thread).compareWaits op.obj
  | .wait th =>
    match op.thread with
    | some (t, st) => s.registerWait op.obj t st th
    | none => s

/-- An operation that takes an application slot: all but WAIT (R187). -/
def SyncOp.takesSlot (o : SyncOp) : Bool :=
  match o.kind with
  | .wait _ => false
  | _ => true

/-- WAITs that now stand first among an object's operations are registered (R187). `fuel` bounds them. -/
def State.registerWaits (s : State) (obj : SyncObj) : Nat → State
  | 0 => s
  | fuel + 1 =>
    match takeFirst (fun o => decide (o.obj = obj)) s.syncQueue with
    | some (o, rest) => if o.takesSlot then s else State.registerWaits ({ s with syncQueue := rest }.applySync o) obj fuel
    | none => s

/-- SYNC_OPERATION_APPLIED (R187): the object's first waiting operation is applied, and the WAITs behind
it are registered. -/
def execSyncOperationApplied (obj : SyncObj) (s : State) : Out :=
  .next (if s.live then
    match takeFirst (fun o => decide (o.obj = obj) && o.takesSlot) s.syncQueue with
    | none => s
    | some (o, rest) => ({ s with syncQueue := rest }.applySync o).registerWaits obj rest.length
  else s)

/-- The object a common sync command names. -/
def cmdObj (cmd : Cmd) : SyncObj := BitVec.ofNat 15 (cmd.bits 1 14 0)

/-- Issue a sync operation of a stream: an object outside the subset fails it with HANDLE_INVALID (R186). -/
def State.issueSync (s : State) (t : Thread) (st : Stream) (op : Nat) (kind : Cmd → SyncKind) : State :=
  s.issueCommon t st op (fun cmd q s =>
    if s.ownsSync (s.threadPart t) (cmdObj cmd) then
      (s.issueOpen t st q cmd).sendSync ⟨cmdObj cmd, kind cmd, some (t, st), engineSource (threadCore t) st⟩
    else s.issueDone t st q cmd stHandle)

/-- SIGNAL (R185). -/
def execSignal (t : Thread) (st : Stream) (s : State) : Out :=
  onThread t s (fun s => s.issueSync t st 0x03 (fun cmd => .signal (BitVec.ofNat 64 (cmd.word 2))))

/-- RESET (R185). -/
def execReset (t : Thread) (st : Stream) (s : State) : Out :=
  onThread t s (fun s => s.issueSync t st 0x05 (fun cmd => .reset (BitVec.ofNat 64 (cmd.word 2 + cmd.word 3 * 2 ^ 32))))

/-- FETCH_ADD (R185). -/
def execFetchAdd (t : Thread) (s : State) : Out :=
  onThread t s (fun s => s.issueSync t .scalar 0x23 (fun cmd => .fetchAdd (BitVec.ofNat 64 (cmd.word 2))))

/-- WAIT (R188): registered at once when no operation on the object waits before it. -/
def execWait (t : Thread) (st : Stream) (s : State) : Out :=
  onThread t s (fun s => s.issueCommon t st 0x04 (fun cmd q s =>
    let obj := cmdObj cmd
    let th : DWord := BitVec.ofNat 64 (cmd.word 2 + cmd.word 3 * 2 ^ 32)
    if s.ownsSync (s.threadPart t) obj then
      let s := s.issueOpen t st q cmd
      if s.syncQueue.any (fun o => decide (o.obj = obj)) then
        s.sendSync ⟨obj, .wait th, some (t, st), engineSource (threadCore t) st⟩
      else s.registerWait obj t st th
    else s.issueDone t st q cmd stHandle))

/-- SYNC_WAIT_LONG (R191): a pending wait passes DBG_WAIT_LIMIT and is logged once; it goes on. -/
def execSyncWaitLong (t : Thread) (st : Stream) (s : State) : Out :=
  onThread t s (fun s =>
    match s.waits.find? (fun w => decide (w.thread = t ∧ w.stream = st ∧ w.logged = false)) with
    | none => s
    | some w =>
      if s.live && decide (s.regN .dbgWaitLimit (s.threadPart t).val ≠ 0) then
        let s := { s with waits := updateFirst (fun x => decide (x = w)) (fun x => { x with logged := true }) s.waits }
        s.log (coreSource (threadCore t) 0) 3
          (f4 t.toNat ++ f2 w.obj.toNat ++ f8 w.threshold.toNat ++ f8 (s.syncValue w.obj).toNat)
      else s)

/-- The device virtual address of a slot's field. -/
def syncAddr (obj : SyncObj) (o : Nat) : Nat := 0x210000000000 + obj.toNat * 64 + o

/-- A plain write to a slot field by partition `p` (R184, R186): outside the subset it is unmapped; a reserved field
drops it; a 32-bit write and a write to VALUE are dropped and logged; SIGNAL adds and RESET sets. -/
def State.slotWrite (s : State) (p : Part) (obj : SyncObj) (o : Nat) (wide : Bool) (value : DWord) (source : BitVec 16) : State :=
  if !s.ownsSync p obj then s.accessDropped p.val 0 (syncAddr obj o)
  else if o ≥ 0x18 then s
  else if !wide then s.accessDropped p.val 1 (syncAddr obj o)
  else if o = 0x08 then s.sendSync ⟨obj, .signal value, none, source⟩
  else if o = 0x10 then s.sendSync ⟨obj, .reset value, none, source⟩
  else if o = 0x00 then s.accessDropped p.val 4 (syncAddr obj o)
  else s

/-- SYNC_SLOT_SIGNAL_WRITE (R184). -/
def execSyncSlotSignalWrite (p : Part) (obj : SyncObj) (wide : Bool) (value : DWord) (s : State) : Out :=
  .next (if s.live then s.slotWrite p obj 0x08 wide value (surveyorSource p) else s)

/-- SYNC_SLOT_RESET_WRITE (R184). -/
def execSyncSlotResetWrite (p : Part) (obj : SyncObj) (wide : Bool) (value : DWord) (s : State) : Out :=
  .next (if s.live then s.slotWrite p obj 0x10 wide value (surveyorSource p) else s)

/-- SYNC_SLOT_VALUE_WRITE (R184): dropped and logged. -/
def execSyncSlotValueWrite (p : Part) (obj : SyncObj) (wide : Bool) (value : DWord) (s : State) : Out :=
  .next (if s.live then s.slotWrite p obj 0x00 wide value (surveyorSource p) else s)

end Sys2Proof.Machine
end

