-- ==== Sys2Proof/Machine/Scalar.lean ====
section
/-! DEFINITION. The scalar engine (R199-R202): arithmetic, comparisons, predicates, parameters, the numeric
control word. LD and ST stand in Machine/Loads.lean. -/

namespace Sys2Proof.Machine

/-- The immediate of a scalar command (Table 7.5). -/
def immOf (cmd : Cmd) : DWord := BitVec.ofNat 64 (cmd.word 2 + cmd.word 3 * 2 ^ 32)
/-- src0. -/
def src0Of (c : Context) (cmd : Cmd) : DWord := c.sreg (cmd.bits 1 9 5)
/-- src1, or the immediate when use_imm is 1. -/
def src1Of (c : Context) (cmd : Cmd) : DWord := if cmd.bit 1 15 then immOf cmd else c.sreg (cmd.bits 1 14 10)

/-- Issue a scalar command that changes the context and ends OK. -/
def State.issueScalar (s : State) (t : Thread) (op : Nat) (f : Context → Cmd → Context) : State :=
  s.issueCommon t .scalar op (fun cmd q s =>
    (s.setContext t (f (s.context t) cmd)).issueDone t .scalar q cmd stOk)

/-- Issue an arithmetic command: dst = f src0 src1 (Table 7.6). -/
def State.issueAlu (s : State) (t : Thread) (op : Nat) (f : DWord → DWord → DWord) : State :=
  s.issueScalar t op (fun c cmd => c.setSreg (cmd.bits 1 4 0) (f (src0Of c cmd) (src1Of c cmd)))

/-- The shift count: src1 bits 5:0. -/
def shiftOf (b : DWord) : Nat := b.toNat % 64

/-- MOVI. -/
def execMovi (t : Thread) (s : State) : Out :=
  onThread t s (fun s => s.issueScalar t 0x10 (fun c cmd => c.setSreg (cmd.bits 1 4 0) (immOf cmd)))
/-- ADD. -/
def execAdd (t : Thread) (s : State) : Out := onThread t s (fun s => s.issueAlu t 0x11 (fun a b => a + b))
/-- SUB. -/
def execSub (t : Thread) (s : State) : Out := onThread t s (fun s => s.issueAlu t 0x12 (fun a b => a - b))
/-- MUL: the low 64 bits. -/
def execMul (t : Thread) (s : State) : Out := onThread t s (fun s => s.issueAlu t 0x13 (fun a b => a * b))
/-- AND. -/
def execAnd (t : Thread) (s : State) : Out := onThread t s (fun s => s.issueAlu t 0x14 (fun a b => a &&& b))
/-- OR. -/
def execOr (t : Thread) (s : State) : Out := onThread t s (fun s => s.issueAlu t 0x15 (fun a b => a ||| b))
/-- XOR. -/
def execXor (t : Thread) (s : State) : Out := onThread t s (fun s => s.issueAlu t 0x16 (fun a b => a ^^^ b))
/-- SHL by src1 bits 5:0. -/
def execShl (t : Thread) (s : State) : Out := onThread t s (fun s => s.issueAlu t 0x17 (fun a b => a <<< shiftOf b))
/-- SHR, logical. -/
def execShr (t : Thread) (s : State) : Out := onThread t s (fun s => s.issueAlu t 0x18 (fun a b => a >>> shiftOf b))
/-- SAR, arithmetic. -/
def execSar (t : Thread) (s : State) : Out := onThread t s (fun s => s.issueAlu t 0x19 (fun a b => a.sshiftRight (shiftOf b)))
/-- MINS, signed. -/
def execMins (t : Thread) (s : State) : Out := onThread t s (fun s => s.issueAlu t 0x1A (fun a b => if a.slt b then a else b))
/-- MAXS, signed. -/
def execMaxs (t : Thread) (s : State) : Out := onThread t s (fun s => s.issueAlu t 0x1B (fun a b => if a.slt b then b else a))

/-- The comparison a cond field names (Table 7.6). -/
def condHolds (cond : Nat) (a b : DWord) : Bool :=
  match cond with
  | 0 => a == b
  | 1 => a != b
  | 2 => a.slt b
  | 3 => !a.slt b
  | 4 => a.ult b
  | _ => !a.ult b

/-- CMPP: target predicate = (src0 cond src1). -/
def execCmpp (t : Thread) (s : State) : Out :=
  onThread t s (fun s => s.issueScalar t 0x1C (fun c cmd =>
    c.setPred (cmd.bits 1 23 20) (condHolds (cmd.bits 1 19 16) (src0Of c cmd) (src1Of c cmd))))

/-- PUTP: parameter register = src0. -/
def execPutp (t : Thread) (s : State) : Out :=
  onThread t s (fun s => s.issueScalar t 0x20 (fun c cmd => c.setParam (cmd.bits 1 19 16) (src0Of c cmd)))

/-- GETP: dst = parameter register. -/
def execGetp (t : Thread) (s : State) : Out :=
  onThread t s (fun s => s.issueScalar t 0x21 (fun c cmd => c.setSreg (cmd.bits 1 4 0) (c.param (cmd.bits 1 19 16))))

/-- LIDX: the iteration index of the scalar stream's loop at a depth, 0 outermost; 0 if there is none. -/
def execLidx (t : Thread) (s : State) : Out :=
  onThread t s (fun s => s.issueScalar t 0x22 (fun c cmd =>
    let d := (src0Of c cmd).toNat % 4
    let v := match c.scalar.loops.reverse[d]? with
      | some l => l.iter.toNat
      | none => 0
    c.setSreg (cmd.bits 1 4 0) (BitVec.ofNat 64 v)))

/-- SETNCW: the numeric control word under a mask (R201). -/
def execSetncw (t : Thread) (s : State) : Out :=
  onThread t s (fun s => s.issueScalar t 0x24 (fun c cmd =>
    let m : BitVec 16 := BitVec.ofNat 16 (cmd.bits 2 15 0)
    { c with ncw := (c.ncw &&& ~~~ m) ||| (BitVec.ofNat 16 (cmd.bits 3 15 0) &&& m) }))

/-- A width code field of a group's configuration entry (Table 5.6): role 0 A, 1 W, 2 G. -/
def cfgMin (e r : Nat) : Nat := bitsOf e (4 * r + 1) (4 * r)
def cfgMax (e r : Nat) : Nat := bitsOf e (4 * r + 3) (4 * r + 2)

/-- A width word of these codes (Table 5.9). -/
def mkWord (a w g : Nat) (promoted cold changed provisional : Bool) : BitVec 16 :=
  BitVec.ofNat 16 (a + 4 * w + 16 * g + 64 * b2n promoted + 128 * b2n cold + 256 * b2n changed + 512 * b2n provisional)

/-- A cold word: every role at its w_max (R159). -/
def coldWord (e : Nat) : BitVec 16 := mkWord (cfgMax e 0) (cfgMax e 1) (cfgMax e 2) false true false false

/-- A group's configuration entry as last read, else as memory holds it; w_max stands at INT16 for one that
cannot be read (log 47). -/
def State.groupCfg (s : State) (p : Part) (group : Nat) : Nat :=
  match Sparse.find? (s.part p).assize.config group with
  | some e => e
  | none =>
    let a := s.regN .aszGroupBase p.val + 4 * group
    if s.pageMapped p a then leNat (s.readVa p a 4) else 0xFFF

/-- Assize's own width word of a group in a slot (R153-R155): the stored one, else while Assize publishes cold
words (R159) the cold word. -/
def State.wordAt (s : State) (p : Part) (slot group : Nat) : BitVec 16 :=
  let a := (s.part p).assize
  match Sparse.find? a.words (slot * 4096 + group) with
  | some w => w
  | none => if a.awaiting then coldWord (s.groupCfg p group) else 0

/-- The word of the current step's slot. -/
def State.widthWord (s : State) (p : Part) (group : Nat) : BitVec 16 := s.wordAt p (s.regN .partStep p.val % 2) group

/-- SETP's group (R202). -/
def setpGroup (c : Context) (cmd : Cmd) : Nat :=
  if cmd.bit 1 15 then (src0Of c cmd).toNat else cmd.bits 2 11 0

/-- SETP (R155, R202): immediate, width, flag and status forms. A group at or beyond ASZ_GROUP_COUNT ends
with HANDLE_INVALID; a provisional word stalls the stream. -/
def execSetp (t : Thread) (s : State) : Out :=
  onThread t s (fun s => s.issueCommon t .scalar 0x1D (fun cmd q s =>
    let c := s.context t
    let p := s.threadPart t
    let b := cmd.bits 1 25 22
    let g := setpGroup c cmd
    let w := s.widthWord p g
    match cmd.bits 1 30 28 with
    | 0 =>
      let c := (upTo 11).foldl (fun c i => if cmd.bit 3 (17 + i) then c.setPred (i + 1) false else c) c
      let c := (upTo 11).foldl (fun c i => if cmd.bit 3 (1 + i) then c.setPred (i + 1) true else c) c
      (s.setContext t c).issueDone t .scalar q cmd stOk
    | 3 =>
      let st := s.lastStatus t (streamOf (cmd.bits 1 21 20))
      let c := (((c.setPred b (st = 0x01)).setPred (b + 1) (st = 0x02)).setPred (b + 2) (st = 0x30)).setPred (b + 3)
        (decide (0x30 ≤ st ∧ st < 0x50))
      (s.setContext t c).issueDone t .scalar q cmd stOk
    | form =>
      if g ≥ s.regN .aszGroupCount p.val then s.issueDone t .scalar q cmd stHandle
      else if w.getLsbD 9 then s.passTurn t .scalar
      else if form = 1 then
        let code := bitsOf w.toNat (2 * cmd.bits 1 21 20 + 1) (2 * cmd.bits 1 21 20)
        let c := (upTo 4).foldl (fun c i => c.setPred (b + i) (decide (i = code))) c
        (s.setContext t c).issueDone t .scalar q cmd stOk
      else
        (s.setContext t (c.setPred b (w.getLsbD (if cmd.bit 1 20 then 6 else 7)))).issueDone t .scalar q cmd stOk))

end Sys2Proof.Machine
end

