-- ==== Sys2Proof/Machine/Vector.lean ====
section
/-! DEFINITION. What vector commands share (R44, R46, R211, R212, R218, R241, R254, R483): the fields of a
block, the checks in the order of R12, tiles written in order, the first-exception record, statistics
partials. -/

namespace Sys2Proof.Machine

/-- The fields of a vector command (Table 7.9). -/
structure VBlk where
  dst     : Nat
  dstFmt  : Nat
  dstSlot : Nat
  dstEn   : Bool
  src0    : Nat
  s0Fmt   : Nat
  s0Slot  : Nat
  s0En    : Bool
  src1    : Nat
  s1Fmt   : Nat
  imm     : Option Nat
  cols    : Nat
  rows    : Nat
  handle  : Nat
  chanCols : Bool
  stoch   : Bool
  noDst   : Bool
  cond    : Nat
  base    : Nat
  w6      : Nat
  /-- the model's counter, for the padding of the rows it writes (log 28) -/
  free    : Nat := 0
deriving DecidableEq, Repr

/-- Read the fields; offsets become byte offsets. With imm = 1, src1 is an FP32 immediate. -/
def vblkOf (c : Context) (cmd : Cmd) : VBlk where
  dst := cmd.bits 1 15 0 * 32
  dstFmt := cmd.bits 1 19 16
  dstSlot := cmd.bits 1 24 20
  dstEn := cmd.bit 1 25
  src0 := cmd.bits 2 15 0 * 32
  s0Fmt := cmd.bits 2 19 16
  s0Slot := cmd.bits 2 24 20
  s0En := cmd.bit 2 25
  src1 := cmd.bits 3 15 0 * 32
  s1Fmt := if cmd.bit 5 19 then fp32 else cmd.bits 3 19 16
  imm := if cmd.bit 5 19 then some (cmd.word 3) else none
  cols := cmd.bits 4 15 0
  rows := cmd.bits 4 31 16
  handle := cmd.bits 5 15 0
  chanCols := cmd.bit 5 16
  stoch := cmd.bit 5 17
  noDst := cmd.bit 5 18
  cond := cmd.bits 5 31 29
  base := (c.param (cmd.bits 5 23 20)).toNat % 2 ^ 48
  w6 := cmd.word 6

/-- A row written at a scratch offset: its bytes, and padding to `n` bytes, which R211 gives no value (log 28). -/
def VBlk.padded (b : VBlk) (o n : Nat) (row : List Byte) : List Byte :=
  row ++ (upTo (n - row.length)).map (fun k => Config.padding b.free (o + row.length + k))

/-- The innermost logical extent of R212. -/
def VBlk.e0 (b : VBlk) (d : Option Desc) : Nat :=
  match d with
  | some d => d.max.getD 0 0
  | none => b.cols
/-- The element index of element (i, j) (R212). -/
def VBlk.index (b : VBlk) (d : Option Desc) (i j : Nat) : Nat := (b.base + i * b.e0 d + j) % 2 ^ 48
/-- Row-major position within the block. -/
def VBlk.lane (b : VBlk) (i j : Nat) : Nat := (i * b.cols + j) % 256

/-- End of the general area (Table 6.3). -/
def generalEnd : Nat := 0x1E0000
/-- Scale slot i begins here (Table 6.3). -/
def slotAt (i : Nat) : Nat := generalEnd + i * 0x1220

/-- Bytes of a block of rows. -/
def blockBytes (f rows cols : Nat) : Nat := rows * rowPitch f cols

/-- A scale tile header's fields (Table 4.7). -/
structure ScaleTile where
  count  : Nat
  role   : Nat
  handle : Nat
  axis   : Nat
deriving DecidableEq, Repr

/-- The header of the scale tile in a slot. -/
def Core.scaleTile (c : Core) (slot : Nat) : ScaleTile :=
  let b := c.readScratch (slotAt slot) 12
  ⟨field b 0 2, field b 3 1, field b 4 2, field b 8 4⟩
/-- Entry i of the scale tile in a slot. -/
def Core.slotEntry (c : Core) (slot i : Nat) : ScaleEntry :=
  parseEntry (c.readScratch (slotAt slot + 32 + 16 * i) 16)
/-- The tag of a handle and an axis index (R127). -/
def tagOf (handle axis : Nat) : Nat := handle % 256 * 256 + axis % 256
/-- A scale tile's tag. -/
def ScaleTile.tag (t : ScaleTile) : Nat := tagOf t.handle t.axis

/-- A scale entry's condition for use: as R110, or as R130 gives for a fold (no fmt comparison). With the
first-pass flag every entry counts as kind 2. -/
def entryOk (e : ScaleEntry) (fmt : Option Nat) (firstPass : Bool) : Bool :=
  e.formed && (firstPass || e.kind ≠ 3) && (match fmt with | some f => e.fmt = f | none => true)

/-- A scale skew found (R132): operand 0 streaming, 1 stationary, 2 conversion; its cause, the tags, and for
cause 4 the first failing channel. -/
structure Skew where
  operand  : Nat
  cause    : Nat
  /-- none where the check compares no tag -/
  expected : Option Nat
  found    : Nat
  channel  : Nat
deriving DecidableEq, Repr

/-- The first-pass flag of the tensor a scale tile was loaded for (R110, Table 4.7; DEDUCED, log 24). -/
def State.tileFirstPass (s : State) (t : Thread) (slot : Nat) : Bool :=
  let h := ((s.core (threadCore t)).scaleTile slot).handle
  decide (h ≠ 0) && (s.desc (s.threadPart t) h).firstPass

/-- The memory that flag lies in. -/
def State.tileRanges (s : State) (t : Thread) (slot : Nat) : List (Nat × Nat) :=
  let h := ((s.core (threadCore t)).scaleTile slot).handle
  if h = 0 then [] else [(s.descAddr (s.threadPart t) h, 128)]

/-- SCALE_SKEW in the ring of a die's Gauger (R132). The expected tag of a check that compares none is a free value
(DESIGN CHOICE, log 94). -/
def State.logSkewOn (s : State) (d : Die) (core seq tile : Nat) (k : Skew) : State :=
  s.bumpFree.log (gaugerSource d) 1 (f2 core ++ f4 seq ++ f4 tile ++ f1 k.operand ++ f1 k.cause
    ++ f2 (k.expected.getD (Config.freeValue s.freeCount % 2 ^ 16)) ++ f2 k.found ++ (if k.cause = 4 then f4 k.channel else []))

/-- SCALE_SKEW of a core's command, in the ring of its die's Gauger (R132). -/
def State.logSkew (s : State) (core : CoreId) (seq tile : Nat) (k : Skew) : State :=
  s.logSkewOn (coreDie core) core.toNat seq tile k

/-- The first poisoned 32-byte word of a scratch range, as an offset. -/
def Core.firstPoison (c : Core) (o n : Nat) : Option Nat :=
  if n = 0 then none
  else ((upTo ((o % 32 + n + 31) / 32)).find? (fun w => Sparse.get false c.scratchPoison (o / 32 + w))).map
    (fun w => (o / 32 + w) * 32)

/-- A scratch offset of a core as a device virtual address (R180). -/
def scratchVa (core : CoreId) (o : Nat) : Nat := 0x200000000000 + core.toNat * 0x400000 + o

/-! ## Elements observed (R118, R136, R138) -/

/-- What a collection point observes of one element: the value, whether the written value is zero, whether
it saturated, whether it counts as non-finite by R117, its index and its channel. -/
structure Obs where
  val   : Val
  zero  : Bool
  sat   : Bool
  unusable : Bool := false
  index : Nat
  /-- what scale entries collect, where it is not `val` (R118, log 25) -/
  put   : Option Val := none
deriving DecidableEq, Repr

/-- The partial of one written tile (R136, R138, R140): `record` says whether the statistics record
collects, `amaxes` whether scale entries may. -/
def mkPartial (p : Part) (d : Desc) (scaleBase : Nat) (record amaxes : Bool) (obs : List Obs)
    (owner : Option (Thread × Stream)) : Partial :=
  let fin := obs.filter (fun o => o.val.finite && !o.unusable)
  let parts := fin.filterMap (fun o => match o.val with | .fin _ m e => if m = 0 then none else some (o.index, m, e) | _ => none)
  { part := p
    record := if record then d.stats else 0
    handle := BitVec.ofNat 16 d.handle
    count := obs.length
    zeros := (fin.filter (fun o => o.zero)).length
    sats := (obs.filter (fun o => o.sat)).length
    nonfin := obs.length - fin.length
    nulls := 0
    amax := BitVec.ofNat 32 (fin.foldl (fun a o => maxMag a (truncMag o.val)) 0)
    squares := parts.map (fun x => (x.2.1 * x.2.1, 2 * x.2.2))
    samples := parts.map (fun x => (x.1, exponentOf x.2.1 x.2.2))
    chans := if amaxes && d.scaleHandle ≠ 0 then
        let puts := (obs.map (fun o => (d.channelOf o.index, o.put.getD o.val))).filter (fun x => x.2.finite)
        (puts.map Prod.fst).eraseDups.map (fun c => (c, BitVec.ofNat 32
          ((puts.filter (fun x => x.1 = c)).foldl (fun a x => maxMag a (truncMag x.2)) 0)))
      else []
    scales := scaleBase
    firstPass := d.firstPass
    owner := owner }

/-- The Gauger that a partial goes to: the die of the record's (or the scale tensor's) stack (R140). -/
def State.partialDie (s : State) (p : Part) (m : Partial) : Die :=
  match s.place p (if m.record ≠ 0 then m.record else m.scales) with
  | .hbm a => ⟨a / 0x1200000000 / 2 % 4, Nat.mod_lt _ (by decide)⟩
  | _ => ((s.diesOf p).head?).getD 0

/-- Send a partial to its Gauger; one that would change nothing is not sent. -/
def State.sendPartial (s : State) (m : Partial) : State :=
  if m.record = 0 ∧ m.chans.isEmpty then s
  else
    let s := match m.owner with
      | some (t, st) =>
        let x := s.stream t st
        match x.cur with
        | some r => s.setStream t st { x with cur := some { r with parts := r.parts + 1 } }
        | none => s
      | none => s
    s.onDie (s.partialDie m.part m) (fun d => { d with arrivals := d.arrivals ++ [m] })

/-! ## Tiles -/

/-- What computing one tile gives: a poisoned word or a skew that ends the command before the tile is
written, or the bytes to write with flags, saturation, the first invalid element (index, lane, cause) and
the elements observed. -/
structure TileRes where
  poison : Option Nat := none
  skew   : Option Skew := none
  writes : List (Nat × List Byte) := []
  mem    : List (Nat × List Byte) := []
  late   : List Nat := []
  flags  : BitVec 5 := 0
  sat    : Bool := false
  exc    : Option (Nat × Nat × Nat) := none
  obs    : List Obs := []
  nulls  : Nat := 0

/-- The outcome of a vector command. -/
structure VOut where
  core   : Core
  mem    : List (Nat × List Byte) := []
  late   : List Nat := []
  status : BitVec 8 := stOk
  tile   : Nat := 0
  flags  : BitVec 5 := 0
  exc    : Option (Nat × Nat × Nat × Nat) := none
  tiles  : List (List Obs × Nat) := []
  skew   : Option Skew := none
  poison : Option Nat := none

/-- The smaller element index keeps the record (R218). -/
def minExc (a : Option (Nat × Nat × Nat × Nat)) (tile : Nat) (b : Option (Nat × Nat × Nat)) : Option (Nat × Nat × Nat × Nat) :=
  match a, b with
  | none, some (i, l, c) => some (i, l, c, tile)
  | some x, some (i, l, c) => if i < x.1 then some (i, l, c, tile) else some x
  | x, none => x

/-- Compute and write tiles in increasing order until one ends the command (R14, R46, R130, R211, R483). -/
def runTiles (trap : Bool) (f : Core → Nat → TileRes) : List Nat → VOut → VOut
  | [], o => { o with status := if o.status = stSaturated then stSaturated else stOk }
  | i :: rest, o =>
    let r := f o.core i
    match r.poison, r.skew with
    | some a, _ => { o with status := stPoisoned, tile := i, poison := some a }
    | none, some k => { o with status := stSkew, tile := i, skew := some k }
    | none, none =>
      let o := { o with flags := o.flags ||| r.flags, exc := minExc o.exc i r.exc }
      if trap && decide (r.flags &&& flInvalid ≠ 0) then { o with status := stInvalidOp, tile := i }
      else
        let c := r.writes.foldl (fun c w => c.writeScratch w.1 w.2 false) o.core
        runTiles trap f rest { o with
          core := c, mem := o.mem ++ r.mem, late := o.late ++ r.late,
          status := if r.sat then stSaturated else o.status,
          tiles := o.tiles ++ [(r.obs, r.nulls)] }

/-- The tiles of a block other than an integer conversion's: spans of 288 rows (R211). -/
def VBlk.tiles (b : VBlk) : List Nat := upTo (ceilDiv b.rows 288)
/-- The rows of tile i. -/
def VBlk.tileRows (b : VBlk) (i : Nat) : List Nat := (upTo (min 288 (b.rows - 288 * i))).map (· + 288 * i)

/-- The first poisoned word under the rows of tile i of a source. -/
def VBlk.rowsPoison (b : VBlk) (c : Core) (off f cols i : Nat) : Option Nat :=
  c.firstPoison (off + 288 * i * rowPitch f cols) (min 288 (b.rows - 288 * i) * rowPitch f cols)

/-- The first of several that is present. -/
def firstSome {α : Type} (l : List (Option α)) : Option α := l.findSome? id

/-! ## The checks (R12) -/

/-- What a vector operation asks of its command: whether it needs a handle with a scale tensor, the slots
it names, the formats it takes, the extents checked against the handle's maxima (dimension, extent,
maximum), its scratch regions (offset, bytes), and when its output is empty. -/
structure VOp where
  opcode  : Nat
  scaled  : Bool := false
  slots   : VBlk → List Nat := fun _ => []
  fmtOk   : Context → VBlk → Bool
  dims    : VBlk → Desc → List (Nat × Nat × Nat) := fun b d => [(0, b.cols, d.maxExtent 0), (1, b.rows, d.maxExtent 1)]
  regions : VBlk → List (Nat × Nat)
  empty   : VBlk → Bool := fun b => b.rows = 0 || b.cols = 0
  /-- the statistics record collects; scale entries may collect; the command may send partials (R142) -/
  record  : VBlk → Bool := fun _ => false
  amaxes  : VBlk → Bool := fun _ => false
  collects : VBlk → Bool := fun b => record b || amaxes b
  /-- further memory the command reads -/
  reads   : State → Thread → VBlk → Desc → List (Nat × Nat) := fun _ _ _ _ => []
  run     : State → Thread → VBlk → Option Desc → Core → VOut

/-- End a vector command at issue with a status and no effect. -/
def State.vecFail (s : State) (t : Thread) (q : QEntry) (cmd : Cmd) (status : BitVec 8) : State :=
  (s.issueDone t .vector q cmd status).writeExc t .vector none

/-- The base of the scale tensor of a descriptor. -/
def State.scaleBase (s : State) (p : Part) (d : Desc) : Nat :=
  if d.scaleHandle = 0 then 0 else (s.desc p d.scaleHandle).base

/-- Carry out a checked vector command and end it. -/
def State.vecRun (s : State) (t : Thread) (q : QEntry) (cmd : Cmd) (op : VOp) (b : VBlk) (d : Option Desc) : State :=
  let p := s.threadPart t
  let core := threadCore t
  let seq := (s.stream t .vector).count
  let o := op.run s t { b with free := s.freeCount } d (s.core core)
  let s := s.bumpFree
  let s := s.issueDone t .vector q cmd o.status o.tile o.flags
  let owner := some (t, Stream.vector)
  let s := s.setCore core { o.core with contexts := (s.core core).contexts, issuedVector := (s.core core).issuedVector }
  let s := s.writeExc t .vector (o.exc.map (fun x => ⟨seq, BitVec.ofNat 32 x.2.2.2, x.1, x.2.1, x.2.2.1⟩))
  let s := o.mem.foldl (fun s w => s.writeVa p w.1 w.2 false owner) s
  let s := match o.skew with
    | some k => s.logSkew core seq.toNat o.tile k
    | none => s
  let s := match o.poison with
    | some a => s.poisonConsumed (engineSource core .vector) t.toNat seq.toNat (if a ≥ 2 ^ 32 then a else scratchVa core a)
    | none => s
  match d with
  | none => s
  | some d =>
    let s := o.late.foldl (fun s c => s.log (gaugerSource (coreDie core)) 2 (f2 d.handle ++ f4 c)) s
    o.tiles.foldl (fun s x =>
      s.sendPartial { mkPartial p d (s.scaleBase p d) (op.record b || x.2 ≠ 0) (op.amaxes b) x.1 owner with nulls := x.2 }) s

/-- Issue a vector command: the checks of R12 in order, then its work. The collection points of a die start
no tile while its held queue is full (R142). -/
def State.issueVector (s : State) (t : Thread) (op : VOp) : State :=
  match s.issuable t .vector op.opcode with
  | none => s
  | some (q, cmd) =>
    let p := s.threadPart t
    let src := engineSource (threadCore t) .vector
    let c := s.context t
    let b := vblkOf c cmd
    if s.signalBad t cmd then s.vecFail t q cmd stHandle
    else
      let ranges := s.handleRanges p b.handle
      if !s.ready p ranges then s.askFor t .vector ranges
      else
        let checked : Checked := if b.handle = 0 ∧ !op.scaled then .ok (parseDesc 0 []) else s.checkHandle p b.handle op.scaled
        match checked with
        | .fail st logIt =>
          let s := s.vecFail t q cmd st
          let s := if logIt then s.descCheck src b.handle else s
          if st = stPoisoned then s.poisonConsumed src t.toNat (s.stream t .vector).count.toNat (s.descAddr p b.handle) else s
        | .ok d0 =>
          let d : Option Desc := if b.handle = 0 then none else some d0
          if (op.slots b).any (fun n => decide (n > 23)) then s.vecFail t q cmd stHandle
          else if !op.fmtOk c b then s.vecFail t q cmd stFormat
          else
            let past := match d with
              | some d => (op.dims b d).find? (fun x => decide (x.1 < d.rank ∧ x.2.1 > x.2.2))
              | none => none
            match past with
            | some (dim, ext, mx) => (s.vecFail t q cmd stShapeOver).shapeOver src b.handle dim ext mx
            | none =>
              if (op.regions b).any (fun r => decide (r.2 > 0 ∧ r.1 + r.2 > generalEnd)) then s.vecFail t q cmd stScratch
              else if op.empty b then s.vecFail t q cmd stEmpty
              else
                let more := op.reads s t b d0
                if let some o := s.upperHalf p more then (s.vecFail t q cmd stAbandoned).scratchRange t o
                else if !s.ready p more then s.askFor t .vector more
                else if op.collects b && d.isSome && decide ((s.die (coreDie (threadCore t))).held.length ≥ 4096) then s.passTurn t .vector
                else s.vecRun t q cmd op b d

end Sys2Proof.Machine
end

