-- ==== Sys2Proof/Machine/VArith.lean ====
section
/-! DEFINITION. Elementwise vector arithmetic (R41-R46, R52, R58, R62, R211, R528): opcodes 0x40-0x58. -/

namespace Sys2Proof.Machine

/-- A format the vector engine computes on (Table 2.2). -/
def vecFmt (f : Nat) : Bool := f ≤ 12 || f = 14

/-- How many sources an elementwise opcode has besides dst: 1, 2, or 3 for VFMA, which reads dst. -/
def vecArity (op : Nat) : Nat :=
  if op = 0x43 then 3
  else if op ≤ 0x44 ∨ (0x48 ≤ op ∧ op ≤ 0x4B) ∨ op = 0x4E ∨ op = 0x4F then 2
  else 1

/-- Opcodes that take integer formats throughout (R528). -/
def hasIntForm (op : Nat) : Bool := op ≤ 0x44 || (0x48 ≤ op && op ≤ 0x4F)

/-- Every source of the command is an integer format. -/
def VBlk.intSources (b : VBlk) (op : Nat) : Bool := fmtInt b.s0Fmt && (vecArity op = 1 || fmtInt b.s1Fmt)

/-- The formats an elementwise command takes (R32, R62, R528). The dst format of VCMP, which writes bytes (DEDUCED,
log 22), is held to the same rules. -/
def arithFmtOk (op : Nat) (c : Context) (b : VBlk) : Bool :=
  let two := vecArity op ≠ 1
  let fmts := vecFmt b.s0Fmt && (!two || vecFmt b.s1Fmt) && vecFmt b.dstFmt
  if c.tare then
    let ok (f : Nat) : Bool := f = bf16 || f = fp32
    (op = 0x40 || op = 0x41 || op = 0x42) && ok b.s0Fmt && ok b.s1Fmt && ok b.dstFmt
  else if fmtInt b.dstFmt then fmts && b.intSources op && hasIntForm op
  else fmts

/-- Flush a subnormal value of a format to zero of its sign (R61, R62). -/
def flushBits (f bits : Nat) : Nat :=
  if bits / 2 ^ fmtFrac f % 2 ^ fmtExp f = 0 then bits / fmtSign f % 2 * fmtSign f else bits

/-- The exact integer result of an elementwise opcode (R528); a zero divisor gives 0 and DIVZERO. -/
def intResult (op : Nat) (a b d : Int) : Int × Bool :=
  match op with
  | 0x40 => (a + b, false)
  | 0x41 => (a - b, false)
  | 0x42 => (a * b, false)
  | 0x43 => (a * b + d, false)
  | 0x44 => if b = 0 then (0, true) else (Int.tdiv a b, false)
  | 0x48 => (min a b, false)
  | 0x49 => (max a b, false)
  | 0x4A => (min a b, false)
  | 0x4B => (max a b, false)
  | 0x4C => (a.natAbs, false)
  | 0x4D => (-a, false)
  | _ => (if b < 0 then -(a.natAbs : Int) else a.natAbs, false)

/-- The integer an integer element holds. -/
def intOf (f bits : Nat) : Int := if fmtSigned f then signed (fmtBits f) bits else (bits % 2 ^ fmtBits f : Nat)

/-- One of the sign-bit operations of R42 on bits of format `f`: 0x4C, 0x4D, or 0x4E with the sign given. -/
def signOp (op f bits : Nat) (sign : Bool) : Nat :=
  let m := bits % fmtSign f
  match op with
  | 0x4C => m
  | 0x4D => if bits / fmtSign f % 2 = 1 then m else m + fmtSign f
  | _ => if sign then m + fmtSign f else m

/-- The sign of an element: an integer's, or a float's sign bit. -/
def signOf (f bits : Nat) : Bool := if fmtInt f then decide (intOf f bits < 0) else decide (bits / fmtSign f % 2 = 1)

/-- The comparison of VCMP: 0 eq, 1 ne, 2 lt, 3 le, 4 gt, 5 ge (R41, Table 7.10). -/
def cmpHolds (cond : Nat) (x y : Val) : Bool :=
  if x.isNan || y.isNan then cond = 1
  else
    let o := cmpVal x y
    match cond with
    | 0 => o == .eq
    | 1 => o != .eq
    | 2 => o == .lt
    | 3 => o != .gt
    | 4 => o == .gt
    | _ => o != .lt

/-- One element of a floating (or mixed) elementwise command: a, b, d are the bits of src0, src1 and dst. A minimum or
maximum into a narrower format rounds by class (DESIGN CHOICE, log 96). -/
def floatElem (c : Context) (op : Nat) (k : VBlk) (a b d : Nat) : Elem :=
  let f := k.dstFmt
  let ncw := c.ncw.toNat
  let x := decodeVal k.s0Fmt a
  let y := decodeVal k.s1Fmt b
  match op with
  | 0x40 => (addVal x y).to f .even
  | 0x41 => (addVal x y.negate).to f .even
  | 0x42 => (mulVal x y).to f .even
  | 0x43 => (fmaVal x y (decodeVal f d)).to f .even
  | 0x44 => divElem f a b ncw x y
  | 0x45 => rootElem f 0x45 a ncw x
  | 0x46 => rootElem f 0x46 a ncw x
  | 0x47 => rootElem f 0x47 a ncw x
  | 0x48 => let r := minMaxVal false false x y; { (toFloat f c.classRnd r.2).plus r.1.flags with cause := r.1.cause }
  | 0x49 => let r := minMaxVal true false x y; { (toFloat f c.classRnd r.2).plus r.1.flags with cause := r.1.cause }
  | 0x4A => let r := minMaxVal false true x y; { (toFloat f c.classRnd r.2).plus r.1.flags with cause := r.1.cause }
  | 0x4B => let r := minMaxVal true true x y; { (toFloat f c.classRnd r.2).plus r.1.flags with cause := r.1.cause }
  | 0x4C | 0x4D | 0x4E =>
    let e : Elem := if k.s0Fmt = f then { bits := a } else toFloat f c.classRnd x
    { e with bits := signOp op f e.bits (signOf k.s1Fmt b) }
  | _ => funElem f op a ncw x

/-- One element of an elementwise command. -/
def arithElem (c : Context) (op : Nat) (k : VBlk) (a b d : Nat) : Elem :=
  if op = 0x4F then
    let x := decodeVal k.s0Fmt a
    let y := decodeVal k.s1Fmt b
    { bits := b2n (cmpHolds k.cond x y), flags := if x.sig || y.sig then flInvalid else 0,
      cause := if x.sig || y.sig then some 0 else none }
  else if fmtInt k.dstFmt then
    let r := intResult op (intOf k.s0Fmt a) (intOf k.s1Fmt b) (intOf k.dstFmt d)
    { bits := unsigned (fmtBits k.dstFmt) r.1, flags := if r.2 then flDivzero else 0 }
  else if c.tare then
    let e := floatElem c op k (flushBits k.s0Fmt a) (flushBits k.s1Fmt b) d
    { e with bits := flushBits k.dstFmt e.bits }
  else floatElem c op k a b d

/-- The smallest-index invalid result among the elements of a tile. -/
def foldExc (e : Option (Nat × Nat × Nat)) (index lane : Nat) (x : Elem) : Option (Nat × Nat × Nat) :=
  match x.cause with
  | none => e
  | some c => match e with
    | some y => if index < y.1 then some (index, lane, c) else e
    | none => some (index, lane, c)

/-- What one element gives of a tile's result. -/
def TileRes.addElem (r : TileRes) (index lane : Nat) (x : Elem) (o : Option Obs) : TileRes :=
  { r with
    flags := r.flags ||| x.flags, sat := r.sat || x.sat, exc := foldExc r.exc index lane x,
    obs := match o with | some o => r.obs ++ [o] | none => r.obs }

/-- Compute the rows of a tile element by element: `f i j` gives the element and what is observed. Rows are
packed in `fmt` at `off + i × pitch`. -/
def tileOf (b : VBlk) (d : Option Desc) (fmt off cols : Nat) (rows : List Nat) (f : Nat → Nat → Elem × Option Obs) : TileRes :=
  rows.foldl (fun r i =>
    let xs := (upTo cols).map (fun j => f i j)
    let r := xs.zipIdx.foldl (fun r x => r.addElem (b.index d i x.2) (b.lane i x.2) x.1.1 x.1.2) r
    let row := packRow fmt (xs.map (fun x => x.1.bits))
    { r with writes := r.writes ++ [(off + i * rowPitch fmt cols, b.padded (off + i * rowPitch fmt cols) (rowPitch fmt cols) row)] }) {}

/-- A written element of a floating format, as the collection into scale entries observes it (R118). -/
def obsWritten (f index : Nat) (x : Elem) : Obs :=
  let v := decodeVal f x.bits
  { val := v, zero := v.isZero, sat := x.sat, index := index }

/-- Tile i of an elementwise command. -/
def arithTile (c : Context) (op : Nat) (b : VBlk) (d : Option Desc) (core : Core) (i : Nat) : TileRes :=
  let two := vecArity op ≠ 1
  let outFmt := if op = 0x4F then 3 else b.dstFmt
  let p := firstSome [b.rowsPoison core b.src0 b.s0Fmt b.cols i,
    if two && b.imm.isNone then b.rowsPoison core b.src1 b.s1Fmt b.cols i else none,
    if op = 0x43 then b.rowsPoison core b.dst b.dstFmt b.cols i else none]
  match p with
  | some a => { poison := some a }
  | none =>
    let row (off f r : Nat) : List Byte := core.readScratch (off + r * rowPitch f b.cols) (rowBytes f b.cols)
    tileOf b d outFmt b.dst b.cols (b.tileRows i) (fun r j =>
      let x := getElem b.s0Fmt (row b.src0 b.s0Fmt r) j
      let y := match b.imm with
        | some v => v
        | none => if two then getElem b.s1Fmt (row b.src1 b.s1Fmt r) j else 0
      let z := if op = 0x43 then getElem b.dstFmt (row b.dst b.dstFmt r) j else 0
      let e := arithElem c op b x y z
      (e, if fmtFloat outFmt then some (obsWritten outFmt (b.index d r j) e) else none))

/-- An elementwise opcode as an operation. A command on integers is not subject to the trap (R528). -/
def arithOp (op : Nat) : VOp where
  opcode := op
  fmtOk := arithFmtOk op
  regions b :=
    [(b.src0, blockBytes b.s0Fmt b.rows b.cols), (b.dst, blockBytes (if op = 0x4F then 3 else b.dstFmt) b.rows b.cols)]
      ++ (if vecArity op ≠ 1 ∧ b.imm.isNone then [(b.src1, blockBytes b.s1Fmt b.rows b.cols)] else [])
  amaxes b := op ≠ 0x4F && fmtFloat b.dstFmt
  run s t b d core :=
    let c := s.context t
    runTiles c.trapInvalid (arithTile c op b d) b.tiles { core := core }

/-- VADD. -/
def execVadd (t : Thread) (s : State) : Out := onThread t s (fun s => s.issueVector t (arithOp 0x40))
/-- VSUB. -/
def execVsub (t : Thread) (s : State) : Out := onThread t s (fun s => s.issueVector t (arithOp 0x41))
/-- VMUL. -/
def execVmul (t : Thread) (s : State) : Out := onThread t s (fun s => s.issueVector t (arithOp 0x42))
/-- VFMA. -/
def execVfma (t : Thread) (s : State) : Out := onThread t s (fun s => s.issueVector t (arithOp 0x43))
/-- VDIV. -/
def execVdiv (t : Thread) (s : State) : Out := onThread t s (fun s => s.issueVector t (arithOp 0x44))
/-- VSQRT. -/
def execVsqrt (t : Thread) (s : State) : Out := onThread t s (fun s => s.issueVector t (arithOp 0x45))
/-- VRECIP. -/
def execVrecip (t : Thread) (s : State) : Out := onThread t s (fun s => s.issueVector t (arithOp 0x46))
/-- VRSQRT. -/
def execVrsqrt (t : Thread) (s : State) : Out := onThread t s (fun s => s.issueVector t (arithOp 0x47))
/-- VMIN. -/
def execVmin (t : Thread) (s : State) : Out := onThread t s (fun s => s.issueVector t (arithOp 0x48))
/-- VMAX. -/
def execVmax (t : Thread) (s : State) : Out := onThread t s (fun s => s.issueVector t (arithOp 0x49))
/-- VMINNUM. -/
def execVminnum (t : Thread) (s : State) : Out := onThread t s (fun s => s.issueVector t (arithOp 0x4A))
/-- VMAXNUM. -/
def execVmaxnum (t : Thread) (s : State) : Out := onThread t s (fun s => s.issueVector t (arithOp 0x4B))
/-- VABS. -/
def execVabs (t : Thread) (s : State) : Out := onThread t s (fun s => s.issueVector t (arithOp 0x4C))
/-- VNEG. -/
def execVneg (t : Thread) (s : State) : Out := onThread t s (fun s => s.issueVector t (arithOp 0x4D))
/-- VCOPYSIGN. -/
def execVcopysign (t : Thread) (s : State) : Out := onThread t s (fun s => s.issueVector t (arithOp 0x4E))
/-- VCMP. -/
def execVcmp (t : Thread) (s : State) : Out := onThread t s (fun s => s.issueVector t (arithOp 0x4F))
/-- VEXP. -/
def execVexp (t : Thread) (s : State) : Out := onThread t s (fun s => s.issueVector t (arithOp 0x50))
/-- VEXP2. -/
def execVexp2 (t : Thread) (s : State) : Out := onThread t s (fun s => s.issueVector t (arithOp 0x51))
/-- VLOG. -/
def execVlog (t : Thread) (s : State) : Out := onThread t s (fun s => s.issueVector t (arithOp 0x52))
/-- VLOG2. -/
def execVlog2 (t : Thread) (s : State) : Out := onThread t s (fun s => s.issueVector t (arithOp 0x53))
/-- VTANH. -/
def execVtanh (t : Thread) (s : State) : Out := onThread t s (fun s => s.issueVector t (arithOp 0x54))
/-- VSIGMOID. -/
def execVsigmoid (t : Thread) (s : State) : Out := onThread t s (fun s => s.issueVector t (arithOp 0x55))
/-- VERF. -/
def execVerf (t : Thread) (s : State) : Out := onThread t s (fun s => s.issueVector t (arithOp 0x56))
/-- VSIN. -/
def execVsin (t : Thread) (s : State) : Out := onThread t s (fun s => s.issueVector t (arithOp 0x57))
/-- VCOS. -/
def execVcos (t : Thread) (s : State) : Out := onThread t s (fun s => s.issueVector t (arithOp 0x58))

end Sys2Proof.Machine
end

