-- ==== Sys2Proof/Machine/VConv.lean ====
section
/-! DEFINITION. Vector conversions and scales (R51-R56, R108-R122, R125-R132, R213): VCVT, DEQUANT,
SCALE_GRAD, SCALE_CLEAR, AMAX_SCAN, SCALE_FORM. -/

namespace Sys2Proof.Machine

/-- A floating value times an FP32 factor, exactly, with the flags of an invalid product (R47). -/
def timesExact (x y : Val) : Val × BitVec 5 × Option Nat :=
  match mulVal x y with
  | .val v => (v, 0, none)
  | .bad c => (.nan false, flInvalid, some c)

/-- The fold's channel of element (i, j): the block position along the axis that is not the channel axis
(R108). -/
def VBlk.foldAt (b : VBlk) (i j : Nat) : Nat := if b.chanCols then i else j
/-- The block channel of element (i, j). -/
def VBlk.chanAt (b : VBlk) (i j : Nat) : Nat := if b.chanCols then j else i
/-- The block's extent along the fold axis. -/
def VBlk.foldExtent (b : VBlk) : Nat := if b.chanCols then b.rows else b.cols
/-- The block's channels. -/
def VBlk.chanExtent (b : VBlk) : Nat := if b.chanCols then b.cols else b.rows

/-- The check of a tile of entries for count and for each entry used (causes 3 and 4): `base` is the channel
number of entry 0 (R112, R130); a check that compares no tag counts channels from the tile's first entry (log 94). -/
def countEntry (c : Core) (slot n base : Nat) (expected : Option Nat) (fmt : Option Nat) (firstPass : Bool) : Option Skew :=
  let t := c.scaleTile slot
  if t.count < n then some ⟨2, 3, expected, t.tag, 0⟩
  else match (upTo n).find? (fun i => !entryOk (c.slotEntry slot i) fmt firstPass) with
    | some i => some ⟨2, 4, expected, t.tag, base + i⟩
    | none => none

/-- The check of a fold tile (R130). -/
def VBlk.foldSkew (b : VBlk) (c : Core) (firstPass : Bool) : Option Skew :=
  if b.s0En then countEntry c b.s0Slot b.foldExtent 0 none none firstPass else none

/-- The first poisoned word of a scale tile's header and entries. -/
def Core.slotPoison (c : Core) (slot n : Nat) : Option Nat := c.firstPoison (slotAt slot) (32 + 16 * n)

/-- The source value of a conversion: subnormals are flushed in Tare mode (R62). -/
def convSource (c : Context) (f bits : Nat) : Val :=
  if c.tare && fmtFloat f then decodeVal f (flushBits f bits) else decodeVal f bits

/-- A fold's factor for an element, 1 when there is none; an input like the source (R62). -/
def VBlk.foldVal (b : VBlk) (x : Context) (c : Core) (i j : Nat) : Option Val :=
  if b.s0En then some (convSource x fp32 (c.slotEntry b.s0Slot (b.foldAt i j)).scale) else none

/-- A scale or recip that R117 calls unusable: zero, negative, subnormal, infinite or NaN. -/
def unusable (bits : Nat) : Bool :=
  bits ≥ 0x80000000 || bits < 0x00800000 || bits ≥ 0x7F800000

/-- The rounding of a conversion to an integer: stochastic where R53 selects it, else by class. -/
def convRnd (c : Context) (b : VBlk) (seed step index : Nat) : Rnd :=
  if b.stoch && c.srEnable && !c.tare then .stoch (srBits seed b.handle index step 3) else c.classRnd

/-- The observed value of a conversion (x or x × f(j)) with the flags of forming it. -/
def convValue (x : Val) (fold : Option Val) : Val × BitVec 5 × Option Nat :=
  match fold with
  | some f => timesExact x f
  | none => (if x.isNan then .nan false else x, if x.sig then flInvalid else 0, if x.sig then some 0 else none)

/-- Convert one element to an integer format (R51, R111, R117, R121): `e` is the channel's entry, if the dst
slot is enabled. A NaN raises no INVALID (R45). The observed element comes with it. -/
def convInt (b : VBlk) (mode : Rnd) (e : Option ScaleEntry) (x : Val) (fold : Option Val) (index : Nat) : Elem × Option Obs :=
  let (y, fl, cause) := convValue x.quiet (fold.map Val.quiet)
  let obs (r : Elem) (u : Bool) : Option Obs :=
    some { val := y, zero := r.bits = 0, sat := r.sat, unusable := u, index := index }
  match e with
  | none =>
    let r := (toInteger b.dstFmt mode (fmtFloat b.s0Fmt || fold.isSome) y).plus fl
    let r := { r with cause := cause }
    (r, obs r false)
  | some e =>
    if unusable e.scale || unusable e.recip then
      let r : Elem := { bits := 0, flags := fl ||| flInvalid, cause := some (cause.getD 6) }
      (r, obs r true)
    else if e.null then
      let r : Elem := { bits := 0, flags := fl ||| (if y.finite && !y.isZero then flInexact else 0), cause := cause }
      (r, obs r false)
    else
      let v := (timesExact y (v32 e.recip)).1
      let r := (toInteger b.dstFmt mode true v).plus fl
      let r := { r with cause := cause }
      (r, obs r false)

/-- Convert one element to a floating format (Table 2.10, R108). The statistics record sees the source after its
fold; scale entries collect the folded value, or without a fold the written one (R118, Table 4.5, log 25). -/
def convFloat (c : Context) (b : VBlk) (x : Val) (fold : Option Val) (index : Nat) : Elem × Option Obs :=
  let (y, fl, cause) := convValue x fold
  let r := (toFloat b.dstFmt c.classRnd y).plus fl
  let r := { r with cause := cause, bits := if c.tare then flushBits b.dstFmt r.bits else r.bits }
  let w := decodeVal b.dstFmt r.bits
  (r, some { val := y, zero := w.isZero, sat := r.sat, index := index, put := if fold.isNone then some w else none })

/-- Formats VCVT takes: every defined one; in Tare mode BF16, FP32 and INT8 (Table 2.2, R62). -/
def cvtFmtOk (c : Context) (b : VBlk) : Bool :=
  if c.tare then
    let ok (f : Nat) : Bool := f = bf16 || f = fp32 || f = 2
    ok b.s0Fmt && ok b.dstFmt
  else b.s0Fmt < 15 && b.dstFmt < 15

/-- A conversion the statistics record collects: to an integer, or in the row of Table 2.10 for a narrower
floating format (R135). -/
def cvtCollects (b : VBlk) : Bool :=
  fmtInt b.dstFmt || (fmtFloat b.s0Fmt && fmtFloat b.dstFmt && b.s0Fmt ≠ b.dstFmt &&
    !((fmtF8 b.s0Fmt && b.dstFmt ≥ 10) || ((b.s0Fmt = bf16 || b.s0Fmt = 11) && b.dstFmt ≥ 12) || (b.s0Fmt = fp32 && b.dstFmt = f48)))

/-- The output tiles of an integer conversion (R213). -/
def VBlk.cvtTiles (b : VBlk) : List Nat := if b.chanCols then [0] else b.tiles
/-- The rows of output tile i. -/
def VBlk.cvtRows (b : VBlk) (i : Nat) : List Nat := if b.chanCols then upTo b.rows else b.tileRows i
/-- Where output tile i begins. -/
def VBlk.cvtAt (b : VBlk) (i : Nat) : Nat := b.dst + i * (32 + 288 * rowPitch b.dstFmt b.cols)

/-- A data tile header (Table 4.6). -/
def tileHeader (handle axis role fmt chunk : Nat) (transposed : Bool) : List Byte :=
  leBytes 2 (tagOf handle axis) ++ leBytes 2 handle ++ leBytes 4 axis ++ leBytes 1 role ++ leBytes 1 fmt
    ++ leBytes 2 chunk ++ leBytes 1 (b2n transposed) ++ List.replicate 19 0

/-- The check of output tile i against its scale tile (R128, R130). -/
def VBlk.cvtSkew (b : VBlk) (c : Core) (d : Option Desc) (i : Nat) : Option Skew :=
  if !b.dstEn then none
  else
    let slot := b.dstSlot + i
    let t := c.scaleTile slot
    let axis := (b.w6 + i) % 2 ^ 32
    let tag := tagOf b.handle axis
    let n := if b.chanCols then b.cols else (b.cvtRows i).length
    if t.tag ≠ tag then some ⟨2, 1, some tag, t.tag, 0⟩
    else if t.role ≠ 2 then some ⟨2, 2, some tag, t.tag, 0⟩
    else countEntry c slot n (axis * (if b.chanCols then b.cols else 288)) (some tag) (some b.dstFmt)
      (match d with | some d => d.firstPass | none => false)

/-- Tile i of VCVT to an integer format; `fp` is the first-pass flag of the fold's tensor. -/
def cvtIntTile (c : Context) (fp : Bool) (b : VBlk) (d : Option Desc) (seed step : Nat) (core : Core) (i : Nat) : TileRes :=
  let rows := b.cvtRows i
  let first := rows.headD 0
  let pitch := rowPitch b.s0Fmt b.cols
  let n := if b.chanCols then b.cols else rows.length
  let slot := b.dstSlot + i
  let p := firstSome [core.firstPoison (b.src0 + first * pitch) (rows.length * pitch),
    if b.dstEn then core.slotPoison slot n else none,
    if b.s0En then core.slotPoison b.s0Slot b.foldExtent else none]
  match p with
  | some a => { poison := some a }
  | none =>
    match firstSome [b.cvtSkew core d i, b.foldSkew core fp] with
    | some k => { skew := some k }
    | none =>
      let r := tileOf b d b.dstFmt 0 b.cols rows (fun r j =>
        let x := convSource c b.s0Fmt (getElem b.s0Fmt (core.readScratch (b.src0 + r * pitch) (rowBytes b.s0Fmt b.cols)) j)
        let ch := if b.chanCols then j else r - first
        let e := if b.dstEn then some (core.slotEntry slot ch) else none
        let index := b.index d r j
        convInt b (convRnd c b seed step index) e x (b.foldVal c core r j) index)
      { r with writes := (b.cvtAt i, tileHeader b.handle ((b.w6 + i) % 2 ^ 32) 2 b.dstFmt 0 false)
          :: r.writes.map (fun w => (b.cvtAt i + 32 + (w.1 - first * rowPitch b.dstFmt b.cols), w.2)) }

/-- Tile i of VCVT to a floating format. -/
def cvtFloatTile (c : Context) (fp : Bool) (b : VBlk) (d : Option Desc) (core : Core) (i : Nat) : TileRes :=
  let p := firstSome [b.rowsPoison core b.src0 b.s0Fmt b.cols i,
    if b.s0En then core.slotPoison b.s0Slot b.foldExtent else none]
  match p, b.foldSkew core fp with
  | some a, _ => { poison := some a }
  | none, some k => { skew := some k }
  | none, none =>
    tileOf b d b.dstFmt b.dst b.cols (b.tileRows i) (fun r j =>
      let x := convSource c b.s0Fmt
        (getElem b.s0Fmt (core.readScratch (b.src0 + r * rowPitch b.s0Fmt b.cols) (rowBytes b.s0Fmt b.cols)) j)
      convFloat c b x (b.foldVal c core r j) (b.index d r j))

/-- VCVT as an operation. -/
def cvtOp : VOp where
  opcode := 0x60
  slots b := (if b.dstEn && fmtInt b.dstFmt then b.cvtTiles.map (b.dstSlot + ·) else []) ++ (if b.s0En then [b.s0Slot] else [])
  fmtOk := cvtFmtOk
  regions b :=
    (b.src0, blockBytes b.s0Fmt b.rows b.cols) ::
    (if fmtInt b.dstFmt then b.cvtTiles.map (fun i => (b.cvtAt i, 32 + blockBytes b.dstFmt (b.cvtRows i).length b.cols))
     else [(b.dst, blockBytes b.dstFmt b.rows b.cols)])
  record := cvtCollects
  amaxes b := fmtFloat b.dstFmt
  reads s t b _ := if b.s0En then s.tileRanges t b.s0Slot else []
  run s t b d core :=
    let c := s.context t
    let p := (s.threadPart t).val
    let fp := s.tileFirstPass t b.s0Slot
    if fmtInt b.dstFmt then
      runTiles c.trapInvalid (cvtIntTile c fp b d (s.regN .partSeed p) (s.regN .partStep p)) b.cvtTiles { core := core }
    else runTiles c.trapInvalid (cvtFloatTile c fp b d) b.tiles { core := core }

/-- VCVT (R51, R111, R213). -/
def execVcvt (t : Thread) (s : State) : Out := onThread t s (fun s => s.issueVector t cvtOp)

/-! ## DEQUANT -/

/-- One element of DEQUANT (R112): q times its entry's scale, within 1 ulp when the scale is finite. -/
def dequantElem (c : Context) (f sf : Nat) (q scale : Nat) : Elem :=
  let n := intOf sf q
  match v32 scale with
  | .nan _ => invalid f 6
  | .inf neg => if n = 0 then invalid f 6 else exactInf f (neg != decide (n < 0))
  | .fin neg m e =>
    if n = 0 ∨ m = 0 then { bits := 0 }
    else nativeResult f 1 0x61 q scale c.ncw.toNat (neg != decide (n < 0)) (toFix false (n.natAbs * m) e) true

/-- Tile i of DEQUANT. The tile of entries is checked before any element is written; `fp` is the first-pass flag of the
tensor it was loaded for (R110). -/
def dequantTile (c : Context) (fp : Bool) (b : VBlk) (d : Option Desc) (core : Core) (i : Nat) : TileRes :=
  let p := firstSome [b.rowsPoison core b.src0 b.s0Fmt b.cols i,
    if b.s0En then core.slotPoison b.s0Slot b.chanExtent else none]
  let k := if b.s0En ∧ i = 0 then countEntry core b.s0Slot b.chanExtent 0 none (some b.s0Fmt) fp else none
  match p, k with
  | some a, _ => { poison := some a }
  | none, some k => { skew := some k }
  | none, none =>
    tileOf b d b.dstFmt b.dst b.cols (b.tileRows i) (fun r j =>
      let q := getElem b.s0Fmt (core.readScratch (b.src0 + r * rowPitch b.s0Fmt b.cols) (rowBytes b.s0Fmt b.cols)) j
      let scale := if b.s0En then (core.slotEntry b.s0Slot (b.chanAt r j)).scale else fpOne
      let e := dequantElem c b.dstFmt b.s0Fmt q scale
      (e, some (obsWritten b.dstFmt (b.index d r j) e)))

/-- DEQUANT as an operation: a scaled integer source and a floating destination that the engine computes on; F48, which
Table 2.2 gives to conversions alone, is refused (DEDUCED, log 95). -/
def dequantOp : VOp where
  opcode := 0x61
  slots b := if b.s0En then [b.s0Slot] else []
  fmtOk c b := !c.tare && b.s0Fmt < 8 && fmtFloat b.dstFmt && b.dstFmt ≠ f48
  regions b := [(b.src0, blockBytes b.s0Fmt b.rows b.cols), (b.dst, blockBytes b.dstFmt b.rows b.cols)]
  amaxes _ := true
  reads s t b _ := if b.s0En then s.tileRanges t b.s0Slot else []
  run s t b d core :=
    let c := s.context t
    runTiles c.trapInvalid (dequantTile c (s.tileFirstPass t b.s0Slot) b d) b.tiles { core := core }

/-- DEQUANT (R112). -/
def execDequant (t : Thread) (s : State) : Out := onThread t s (fun s => s.issueVector t dequantOp)

/-! ## Reductions in the order of R59 -/

/-- Combine neighbours: position 2i with 2i + 1. `f k x y` combines at lane `k`. -/
def combinePairs {α : Type} (f : α → α → α) : List α → List α
  | x :: y :: r => f x y :: combinePairs f r
  | l => l

/-- Combine over `n` levels. -/
def combineTree {α : Type} (f : α → α → α) : Nat → List α → List α
  | 0, l => l
  | n + 1, l => combineTree f n (combinePairs f l)

/-- A reduction's accumulator: its value, the flags so far, the first invalid step (position, lane, cause)
and a clamp. -/
structure RedAcc where
  val   : Val
  lane  : Nat
  flags : BitVec 5 := 0
  sat   : Bool := false
  exc   : Option (Nat × Nat × Nat) := none

/-- Take a step's result into an accumulator. -/
def RedAcc.take (a : RedAcc) (pos : Nat) (x : Val × Elem) : RedAcc :=
  { a with val := x.1, flags := a.flags ||| x.2.flags, sat := a.sat || x.2.sat, exc := foldExc a.exc pos a.lane x.2 }

/-- Reduce a row of values in the order of R59: `step` combines an accumulator with a value. -/
def reduceRow (start : Val) (step : Val → Val → Val × Elem) (xs : List Val) : RedAcc :=
  let lanes : List RedAcc := (upTo 256).map (fun l => { val := start, lane := l })
  let lanes := xs.zipIdx.foldl (fun ls x =>
    match ls[x.2 % 256]? with
    | some a => ls.set (x.2 % 256) (a.take x.2 (step a.val x.1))
    | none => ls) lanes
  let out := combineTree (fun (a b : RedAcc) =>
    let r := a.take a.lane (step a.val b.val)
    { r with flags := r.flags ||| b.flags, sat := r.sat || b.sat,
             exc := match r.exc, b.exc with
               | some x, some y => if y.1 < x.1 then some y else some x
               | none, y => y
               | x, none => x }) 8 lanes
  out.headD { val := start, lane := 0 }

/-- One step of a floating sum, rounded once to format `f`. -/
def sumStep (f : Nat) (a x : Val) : Val × Elem :=
  let e := (addVal a x).to f .even
  (decodeVal f e.bits, e)
/-- One step of a NaN-propagating maximum or minimum: one of its operands. -/
def maxStep (wantMax : Bool) (a x : Val) : Val × Elem :=
  let r := minMaxVal wantMax false a x
  (r.2, r.1)

/-- A reduction to format `f`: 0x68 sum, 0x69 maximum, 0x6A minimum, with its starting value. A maximum or minimum is
rounded once, at its end (log 25). -/
def floatReduce (op f : Nat) (xs : List Val) : Nat × RedAcc :=
  let a := match op with
    | 0x68 => reduceRow (.fin false 0 0) (sumStep f) xs
    | 0x69 => reduceRow (.inf true) (maxStep true) xs
    | _ => reduceRow (.inf false) (maxStep false) xs
  let e := toFloat f .even a.val
  (e.bits, { a with flags := a.flags ||| e.flags, sat := a.sat || e.sat })

/-- An integer reduction (R528): the exact sum wrapped once, or the extreme value with the destination's
stored range ends as starting values. -/
def intReduce (op f : Nat) (xs : List Int) : Nat :=
  let w := fmtBits f
  let hi : Int := if fmtSigned f then 2 ^ (w - 1) - 1 else 2 ^ w - 1
  unsigned w (match op with
    | 0x68 => xs.foldl (· + ·) 0
    | 0x69 => xs.foldl max (fmtStoredMin f)
    | _ => xs.foldl min hi)

/-- Tile i of a reduction: each row gives one element of dst. -/
def reduceTile (op : Nat) (b : VBlk) (d : Option Desc) (core : Core) (i : Nat) : TileRes :=
  match b.rowsPoison core b.src0 b.s0Fmt b.cols i with
  | some a => { poison := some a }
  | none =>
    (b.tileRows i).foldl (fun r row =>
      let bytes := core.readScratch (b.src0 + row * rowPitch b.s0Fmt b.cols) (rowBytes b.s0Fmt b.cols)
      let xs := (upTo b.cols).map (fun j => getElem b.s0Fmt bytes j)
      let (bits, a) : Nat × RedAcc :=
        if fmtInt b.dstFmt then (intReduce op b.dstFmt (xs.map (intOf b.s0Fmt)), { val := .fin false 0 0, lane := 0 })
        else floatReduce op b.dstFmt (xs.map (decodeVal b.s0Fmt))
      let out := packRow b.dstFmt [bits]
      let index := b.index d row 0
      let exc := a.exc.map (fun x => (b.index d row x.1, x.1 % 256, x.2.2))
      { r with
        flags := r.flags ||| a.flags, sat := r.sat || a.sat,
        exc := (match r.exc, exc with
          | some x, some y => if y.1 < x.1 then some y else some x
          | none, y => y
          | x, none => x),
        obs := if fmtFloat b.dstFmt then r.obs ++ [obsWritten b.dstFmt index { bits := bits, sat := a.sat }] else r.obs,
        writes := r.writes ++ [(b.dst + row * rowPitch b.dstFmt 1, b.padded (b.dst + row * rowPitch b.dstFmt 1) (rowPitch b.dstFmt 1) out)] }) {}

/-- A reduction as an operation. -/
def reduceOp (op : Nat) : VOp where
  opcode := op
  fmtOk c b := !c.tare && vecFmt b.s0Fmt && vecFmt b.dstFmt && !(fmtInt b.dstFmt && fmtFloat b.s0Fmt)
  regions b := [(b.src0, blockBytes b.s0Fmt b.rows b.cols), (b.dst, blockBytes b.dstFmt b.rows 1)]
  empty b := b.rows = 0
  amaxes b := fmtFloat b.dstFmt
  run s t b d core := runTiles (s.context t).trapInvalid (reduceTile op b d) b.tiles { core := core }

/-- VREDSUM (R59). -/
def execVredsum (t : Thread) (s : State) : Out := onThread t s (fun s => s.issueVector t (reduceOp 0x68))
/-- VREDMAX (R59). -/
def execVredmax (t : Thread) (s : State) : Out := onThread t s (fun s => s.issueVector t (reduceOp 0x69))
/-- VREDMIN (R59). -/
def execVredmin (t : Thread) (s : State) : Out := onThread t s (fun s => s.issueVector t (reduceOp 0x6A))

/-! ## Scale operations -/

/-- The memory of channels `first ..< first + n` of the scale tensor of a descriptor. -/
def State.entryRange (s : State) (p : Part) (d : Desc) (first n : Nat) : List (Nat × Nat) :=
  [(scaleAt (s.desc p d.scaleHandle) first, 16 * n)]

/-- Entry `c` of the scale tensor of a descriptor, as memory holds it. -/
def State.memEntry (s : State) (p : Part) (d : Desc) (c : Nat) : ScaleEntry :=
  parseEntry (s.readVa p (scaleAt (s.desc p d.scaleHandle) c) 16)

/-- The address of a poisoned line under channels of a scale tensor. -/
def State.entryPoison (s : State) (p : Part) (d : Desc) (first n : Nat) : Option Nat :=
  (linesOf (scaleAt (s.desc p d.scaleHandle) first) (16 * n)).find? (fun l => (s.readLine p l).2)

/-- A write of entry `c`. -/
def State.entryWrite (s : State) (p : Part) (d : Desc) (c : Nat) (e : ScaleEntry) : Nat × List Byte :=
  (scaleAt (s.desc p d.scaleHandle) c, entryData e)

/-- SCALE_CLEAR's effect on an entry (Table 4.5). -/
def clearEntry (e : ScaleEntry) : ScaleEntry := { e with amax := 0, flags := e.flags - e.flags / 4 % 8 * 4 }

/-- The checks of an operation over channels W6 .. W6 + cols − 1 (Table 8.10). -/
def chanDims (b : VBlk) (d : Desc) : List (Nat × Nat × Nat) := [(d.scaleAxis, b.w6 + b.cols, d.maxExtent d.scaleAxis)]

/-- SCALE_CLEAR as an operation. -/
def clearOp : VOp where
  opcode := 0x63
  scaled := true
  fmtOk c _ := !c.tare
  dims := chanDims
  regions _ := []
  empty b := b.cols = 0
  reads s t b d := s.entryRange (s.threadPart t) d b.w6 b.cols
  run s t b d core :=
    let p := s.threadPart t
    match d with
    | none => { core := core }
    | some d =>
      match s.entryPoison p d b.w6 b.cols with
      | some a => { core := core, status := stPoisoned, poison := some a }
      | none => { core := core, mem := (upTo b.cols).map (fun i => s.entryWrite p d (b.w6 + i) (clearEntry (s.memEntry p d (b.w6 + i)))) }

/-- SCALE_CLEAR (R118, Table 4.5). -/
def execScaleClear (t : Thread) (s : State) : Out := onThread t s (fun s => s.issueVector t clearOp)

/-- The flag word of a formed entry: kind kept, formed 1, late 0. -/
def formedFlags (e : ScaleEntry) (fmt : Nat) (null : Bool) : Nat := e.kind + 4 + 8 * b2n null + 256 * fmt

/-- SCALE_FORM of one entry for integer format `f` (R119): the entry, and whether its amax is NaN, infinite
or negative. -/
def formEntry (f : Nat) (e : ScaleEntry) : ScaleEntry × Bool :=
  let bad := e.amax % 2 ^ 31 ≥ 0x7F800000 || (e.amax ≥ 2 ^ 31 && e.amax ≠ 2 ^ 31)
  if bad then ({ scale := fmtNan fp32, recip := fmtNan fp32, amax := e.amax, flags := formedFlags e f false }, true)
  else match v32 (e.amax % 2 ^ 31) with
    | .fin _ m ex =>
      if m = 0 ∨ exponentOf m ex < -96 then ({ e with scale := fpOne, recip := fpOne, flags := formedFlags e f true }, false)
      else ({ e with scale := divExact fp32 m ex (fmtQmax f) 0, recip := divExact fp32 (fmtQmax f) 0 m ex,
                     flags := formedFlags e f false }, false)
    | _ => (e, true)

/-- SCALE_FORM as an operation. A bad amax sets INVALID with cause 6; the trap then writes nothing. The
channel number stands for the element index (DEDUCED, log 23). -/
def formOp : VOp where
  opcode := 0x65
  scaled := true
  fmtOk c b := !c.tare && b.dstFmt < 8
  dims := chanDims
  regions _ := []
  empty b := b.cols = 0
  collects _ := true
  reads s t b d := s.entryRange (s.threadPart t) d b.w6 b.cols
  run s t b d core :=
    let p := s.threadPart t
    match d with
    | none => { core := core }
    | some d =>
      match s.entryPoison p d b.w6 b.cols with
      | some a => { core := core, status := stPoisoned, poison := some a }
      | none =>
        let es := (upTo b.cols).map (fun i => (b.w6 + i, formEntry b.dstFmt (s.memEntry p d (b.w6 + i))))
        let bad := es.find? (fun x => x.2.2)
        let fl : BitVec 5 := if bad.isSome then flInvalid else 0
        let exc := bad.map (fun x => (x.1, (x.1 - b.w6) % 256, 6, 0))
        if bad.isSome && (s.context t).trapInvalid then
          { core := core, status := stInvalidOp, flags := fl, exc := exc }
        else
          { core := core, flags := fl, exc := exc, mem := es.map (fun x => s.entryWrite p d x.1 x.2.1),
            tiles := [([], (es.filter (fun x => x.2.1.null)).length)] }

/-- SCALE_FORM (R119). -/
def execScaleForm (t : Thread) (s : State) : Out := onThread t s (fun s => s.issueVector t formOp)

/-- AMAX_SCAN's new entry for a channel: amax replaced; a formed entry is marked late and loses formed
(R118, R120). -/
def scanEntry (e : ScaleEntry) (amax : Nat) : ScaleEntry :=
  { e with amax := amax, flags := if e.formed then (e.flags - 4) ||| 16 else e.flags }

/-- The tiles of an operation over channels: spans of 288 rows (R211); an empty contraction still makes one tile. -/
def VBlk.scaleTiles (b : VBlk) : List Nat := if b.rows = 0 then [0] else b.tiles

/-- The channels that tile i completes: its own rows, or with channels as columns every column once the last rows are
in. -/
def VBlk.chansDone (b : VBlk) (i : Nat) : List Nat :=
  if b.chanCols then (if i + 1 ≥ b.scaleTiles.length then upTo b.cols else []) else b.tileRows i

/-- The elements of channel `ch` in row-major order. -/
def VBlk.chanElems (b : VBlk) (ch : Nat) : List (Nat × Nat) :=
  if b.chanCols then (upTo b.rows).map (fun r => (r, ch)) else (upTo b.cols).map (fun j => (ch, j))

/-- One tile of AMAX_SCAN. The fold tile is checked before it collects (R130); an empty contraction reads neither operand
nor fold (R255). -/
def scanTile (s : State) (t : Thread) (fp : Bool) (b : VBlk) (d : Desc) (core : Core) (i : Nat) : TileRes :=
  let c := s.context t
  let p := s.threadPart t
  let pitch := rowPitch b.s0Fmt b.cols
  let chans := b.chansDone i
  let hollow := decide (b.rows = 0 ∨ b.cols = 0)
  let value (r j : Nat) := convValue
    (convSource c b.s0Fmt (getElem b.s0Fmt (core.readScratch (b.src0 + r * pitch) (rowBytes b.s0Fmt b.cols)) j)) (b.foldVal c core r j)
  let entries := if chans.isEmpty then none else s.entryPoison p d (b.w6 + chans.headD 0) chans.length
  let first := if hollow then (none, none) else
    ((if b.s0En then core.slotPoison b.s0Slot b.foldExtent else none), b.foldSkew core fp)
  match first, firstSome [if hollow then none else b.rowsPoison core b.src0 b.s0Fmt b.cols i, entries] with
  | (some a, _), _ => { poison := some a }
  | (none, some k), _ => { skew := some k }
  | (none, none), some a => { poison := some a }
  | (none, none), none =>
    let xs := (b.tileRows i).flatMap (fun r => (upTo b.cols).map (fun j => (r, j, value r j)))
    let r : TileRes := xs.foldl (fun a x =>
      a.addElem (b.index (some d) x.1 x.2.1) (b.lane x.1 x.2.1) { bits := 0, flags := x.2.2.2.1, cause := x.2.2.2.2 } none) {}
    let es := chans.map (fun ch =>
      let amax := (b.chanElems ch).foldl (fun a x => maxMag a (truncMag (value x.1 x.2).1)) 0
      let e := s.memEntry p d (b.w6 + ch)
      (b.w6 + ch, e, scanEntry e amax))
    { r with
      mem := es.map (fun x => s.entryWrite p d x.1 x.2.2)
      late := (es.filter (fun x => x.2.1.formed)).map (fun x => x.1) }

/-- AMAX_SCAN as an operation. -/
def scanOp : VOp where
  opcode := 0x64
  scaled := true
  slots b := if b.s0En then [b.s0Slot] else []
  fmtOk c b := !c.tare && vecFmt b.s0Fmt
  dims b d := [(0, b.cols, d.maxExtent 0), (1, b.rows, d.maxExtent 1)]
  regions b := [(b.src0, blockBytes b.s0Fmt b.rows b.cols)]
  empty b := b.chanExtent = 0
  reads s t b d := s.entryRange (s.threadPart t) d b.w6 b.chanExtent ++ (if b.s0En then s.tileRanges t b.s0Slot else [])
  run s t b d core :=
    match d with
    | none => { core := core }
    | some d =>
      runTiles (s.context t).trapInvalid (scanTile s t (s.tileFirstPass t b.s0Slot) b d) b.scaleTiles { core := core }

/-- AMAX_SCAN (R118, R120). -/
def execAmaxScan (t : Thread) (s : State) : Out := onThread t s (fun s => s.issueVector t scanOp)

/-! ## SCALE_GRAD -/

/-- One element of SCALE_GRAD: d(e) as FP32 bits, whether it was clamped, with the flags of forming it
(R113). -/
def gradElem (c : Context) (f : Nat) (recip : Nat) (x : Val) : Nat × Bool × Elem :=
  let (v, fl, cause) := timesExact x (v32 recip)
  match v with
  | .nan _ => (fmtNan fp32, false, { bits := 0, flags := fl, cause := cause })
  | .inf n => (r32 (.ofInt (if n then fmtQmin f else fmtQmax f)), true, { bits := 0, flags := fl, cause := cause })
  | .fin n m e =>
    let k := (roundTo c.classRnd m e 0).1
    let q : Int := if n then -(k : Int) else k
    if q > fmtQmax f then (r32 (.ofInt (fmtQmax f)), true, { bits := 0, flags := fl, cause := cause })
    else if q < fmtQmin f then (r32 (.ofInt (fmtQmin f)), true, { bits := 0, flags := fl, cause := cause })
    else
      match addVal (.ofInt q) v.negate with
      | .val w =>
        let r := toFloat fp32 .even w
        (r.bits, false, { r with flags := r.flags ||| fl, cause := cause })
      | .bad _ => (fmtNan fp32, false, { bits := 0, flags := fl, cause := cause })

/-- A tile of SCALE_GRAD: gx of its rows, and grad_s of the channels it completes as FP32 at the grad_s offset plus 4c.
An invalid addition of a sum stands at the element it adds. `core0` is the core as the command found it, which a channel
that runs over several tiles is summed from. An empty contraction reads no operand and no scale (R255). -/
def gradTile (c : Context) (core0 : Core) (b : VBlk) (d : Option Desc) (core : Core) (i : Nat) : TileRes :=
  let p0 := rowPitch b.s0Fmt b.cols
  let p1 := rowPitch b.s1Fmt b.cols
  let hollow := decide (b.rows = 0 ∨ b.cols = 0)
  let bad := if hollow then none else firstSome [b.rowsPoison core b.src0 b.s0Fmt b.cols i,
    if b.imm.isNone then b.rowsPoison core b.src1 b.s1Fmt b.cols i else none,
    core.slotPoison b.s0Slot b.chanExtent]
  let skew := if i = 0 && !hollow then countEntry core b.s0Slot b.chanExtent 0 none none
      (match d with | some d => d.firstPass | none => false) else none
  match bad, skew with
  | some a, _ => { poison := some a }
  | none, some k => { skew := some k }
  | none, none =>
    let at' (k : Core) (off pitch f r j : Nat) : Nat := getElem f (k.readScratch (off + r * pitch) (rowBytes f b.cols)) j
    let cell (k : Core) (r j : Nat) : Nat × Bool × Elem × Val :=
      let e := core0.slotEntry b.s0Slot (b.chanAt r j)
      let g := gradElem c e.fmt e.recip (decodeVal b.s0Fmt (at' k b.src0 p0 b.s0Fmt r j))
      let gy := match b.imm with
        | some v => v32 v
        | none => decodeVal b.s1Fmt (at' k b.src1 p1 b.s1Fmt r j)
      (g.1, g.2.1, g.2.2, gy)
    let times (x : Nat × Bool × Elem × Val) : Elem := (mulVal x.2.2.2 (v32 x.1)).to fp32 .even
    let gx := tileOf b d b.dstFmt b.dst b.cols (b.tileRows i) (fun r j =>
      let x := cell core r j
      (if x.2.1 then { bits := 0 } else toFloat b.dstFmt c.classRnd x.2.2.2, none))
    let r0 : TileRes := if b.noDst then {} else { gx with obs := [] }
    let r1 := (b.tileRows i).foldl (fun a r => (upTo b.cols).foldl (fun (a : TileRes) j =>
      let x := cell core r j
      (a.addElem (b.index d r j) (b.lane r j) x.2.2.1 none).addElem (b.index d r j) (b.lane r j) (times x) none) a) r0
    (b.chansDone i).foldl (fun a ch =>
      let es := b.chanElems ch
      let g := floatReduce 0x68 fp32 (es.map (fun e => v32 (times (cell (if b.chanCols then core0 else core) e.1 e.2)).bits))
      let a := match g.2.exc with
        | none => a
        | some y =>
          let e := es.getD y.1 (0, 0)
          { a with exc := foldExc a.exc (b.index d e.1 e.2) (b.lane e.1 e.2) { bits := 0, cause := some y.2.2 } }
      { a with
        flags := a.flags ||| g.2.flags
        writes := a.writes ++ [(b.w6 % 2 ^ 16 * 32 + 4 * ch, leBytes 4 g.1)] }) r1

/-- SCALE_GRAD as an operation: floating x, gy and gx. Its entries come from the src0 slot whatever the
slot's enable (DESIGN CHOICE, log 24). -/
def gradOp : VOp where
  opcode := 0x62
  scaled := true
  slots b := [b.s0Slot]
  fmtOk c b := !c.tare && fmtFloat b.s0Fmt && vecFmt b.s0Fmt && fmtFloat b.s1Fmt && vecFmt b.s1Fmt
    && (b.noDst || (fmtFloat b.dstFmt && vecFmt b.dstFmt))
  dims b d := [(0, b.cols, d.maxExtent 0), (1, b.rows, d.maxExtent 1)]
  regions b := [(b.src0, blockBytes b.s0Fmt b.rows b.cols), (b.w6 % 2 ^ 16 * 32, 4 * b.chanExtent)]
    ++ (if b.imm.isNone then [(b.src1, blockBytes b.s1Fmt b.rows b.cols)] else [])
    ++ (if b.noDst then [] else [(b.dst, blockBytes b.dstFmt b.rows b.cols)])
  empty b := b.chanExtent = 0
  run s t b d core :=
    let c := s.context t
    runTiles c.trapInvalid (gradTile c core b d) b.scaleTiles { core := core }

/-- SCALE_GRAD (R113). -/
def execScaleGrad (t : Thread) (s : State) : Out := onThread t s (fun s => s.issueVector t gradOp)

/-! ## TMATMUL -/

/-- flush(x) of FP32 bits. -/
def flush32 (bits : Nat) : Nat := flushBits fp32 bits

/-- One rounding step of the loop of R61: the flushed bits and the flags. -/
def tareStep (acc : Nat) (x : Val) : Nat × Elem :=
  let e := (addVal (v32 acc) x).to fp32 .even
  (flush32 e.bits, e)

/-- One element of a Tare product: rows of A and columns of B as BF16 bits, chunks of 32 (R61). -/
def tareElem (acc0 : Nat) (ab : List (Nat × Nat)) : Nat × Elem :=
  let chunks := (upTo (ceilDiv ab.length 32)).map (fun k => (ab.drop (32 * k)).take 32)
  let none' : Elem := { bits := 0 }
  let join (a b : Elem) : Elem := { bits := 0, flags := a.flags ||| b.flags, cause := if a.cause.isSome then a.cause else b.cause }
  chunks.foldl (fun a ch =>
    let inner := ch.foldl (fun x p =>
      match mulVal (decodeVal bf16 (flushBits bf16 p.1)) (decodeVal bf16 (flushBits bf16 p.2)) with
      | .bad c => (fmtNan fp32, join x.2 (invalid fp32 c))
      | .val v => let r := tareStep x.1 v; (r.1, join x.2 r.2)) (0, none')
    let r := tareStep a.1 (v32 inner.1)
    (r.1, join a.2 (join inner.2 r.2))) (acc0, none')

/-- Tile i of TMATMUL. K = 0 in accumulate mode leaves C untouched (R214); c_in is flushed first (DEDUCED, log 98). -/
def tareTile (k : Nat) (accum : Bool) (b : VBlk) (d : Option Desc) (core : Core) (i : Nat) : TileRes :=
  if k = 0 ∧ accum then {}
  else
    let pa := rowPitch bf16 k
    let pb := rowPitch bf16 b.cols
    let bad := if k = 0 then none else firstSome [
      core.firstPoison (b.src0 + 288 * i * pa) (min 288 (b.rows - 288 * i) * pa), core.firstPoison b.src1 (k * pb)]
    let badC := if accum then b.rowsPoison core b.dst b.dstFmt b.cols i else none
    match firstSome [bad, badC] with
    | some a => { poison := some a }
    | none =>
      let bcol (j : Nat) : List Nat := (upTo k).map (fun kk => getElem bf16 (core.readScratch (b.src1 + kk * pb) (2 * b.cols)) j)
      tileOf b d b.dstFmt b.dst b.cols (b.tileRows i) (fun r j =>
        let arow := core.readScratch (b.src0 + r * pa) (2 * k)
        let c0 := if accum then
            let v := getElem b.dstFmt (core.readScratch (b.dst + r * rowPitch b.dstFmt b.cols) (rowBytes b.dstFmt b.cols)) j
            flush32 (if b.dstFmt = bf16 then v * 2 ^ 16 else v)
          else 0
        let (acc, e) := tareElem c0 (((upTo k).map (fun kk => getElem bf16 arow kk)).zip (bcol j))
        let out : Elem := if b.dstFmt = bf16 then toFloat bf16 .even (v32 acc) else { bits := acc }
        let out : Elem := { out with bits := flushBits b.dstFmt out.bits, flags := out.flags ||| e.flags, cause := e.cause }
        (out, some (obsWritten b.dstFmt (b.index d r j) out)))

/-- TMATMUL as an operation (R214). -/
def tareOp : VOp where
  opcode := 0x66
  fmtOk c b := c.tare && b.s0Fmt = bf16 && b.s1Fmt = bf16 && (b.dstFmt = fp32 || b.dstFmt = bf16)
  regions b := let k := b.w6 % 2 ^ 16
    [(b.src0, if k = 0 then 0 else blockBytes bf16 b.rows k), (b.src1, blockBytes bf16 k b.cols), (b.dst, blockBytes b.dstFmt b.rows b.cols)]
  record _ := true
  amaxes _ := true
  run s t b d core :=
    let c := s.context t
    runTiles c.trapInvalid (tareTile (b.w6 % 2 ^ 16) (bitOf b.w6 16) b d) b.tiles { core := core }

/-- TMATMUL (R61, R214). -/
def execTmatmul (t : Thread) (s : State) : Out := onThread t s (fun s => s.issueVector t tareOp)

end Sys2Proof.Machine
end

