-- ==== Sys2Proof/Machine/Move.lean ====
section
/-! DEFINITION. The move engine (R215, R220, R239-R247): loads that build array tiles, scale tiles, blocks
and masks in scratch, stores and copies, halo exchange, program memory loads. Transfers carry poison without
consuming it (R482). -/

namespace Sys2Proof.Machine

/-- The fields of a move command (Table 7.11). -/
structure MBlk where
  handle : Nat
  o      : List Nat
  off    : Nat
  cols   : Nat
  rows   : Nat
  w4     : Nat
  w6     : Nat
deriving DecidableEq, Repr

/-- Read the fields; dimensions 2-5 take their origins from a parameter register's four 16-bit values. -/
def mblkOf (c : Context) (cmd : Cmd) : MBlk where
  handle := cmd.bits 1 15 0
  o := [cmd.word 2, cmd.word 3] ++ (upTo 4).map (fun i => bitsOf (c.param (cmd.bits 1 23 20)).toNat (16 * i + 15) (16 * i))
  off := cmd.bits 4 15 0 * 32
  cols := cmd.bits 5 15 0
  rows := cmd.bits 5 31 16
  w4 := cmd.word 4
  w6 := cmd.word 6

/-- The bytes within a row that hold elements `j ..< j + n` (R35, R36, R228): offset and length. -/
def eltSpan (f j n : Nat) : Nat × Nat :=
  if n = 0 then (0, 0)
  else if fmtBits f = 4 then (j / 2, ceilDiv (j + n) 2 - j / 2)
  else if fmtBits f = 12 then (j / 2 * 3, (ceilDiv (j + n) 2 - j / 2) * 3)
  else (j * (fmtBits f / 8), n * (fmtBits f / 8))

/-- How many of `n` positions from origin `o` lie within extent `e`. -/
def inBounds (o n e : Nat) : Nat := if o ≥ e then 0 else min n (e - o)

/-- The block's origins in dimensions 2-5 are in bounds. -/
def Desc.outerIn (d : Desc) (o : List Nat) : Bool :=
  (upTo 4).all (fun i => decide (o.getD (i + 2) 0 < d.extent (i + 2)))

/-- The in-bounds rows and columns of a block: dimension 1 and dimension 0 (R239). -/
def Desc.part (d : Desc) (b : MBlk) (rows cols : Nat) : Nat × Nat :=
  if d.outerIn b.o then (inBounds (b.o.getD 1 0) rows (d.extent 1), inBounds (b.o.getD 0 0) cols (d.extent 0)) else (0, 0)

/-- The address of the row of a block's row `i`. -/
def Desc.blockRow (d : Desc) (b : MBlk) (i : Nat) : Nat := d.rowAddr (b.o.set 1 (b.o.getD 1 0 + i))

/-- The memory under `cols` in-bounds elements of `rows` block rows. -/
def Desc.blockRanges (d : Desc) (b : MBlk) (rows cols : Nat) : List (Nat × Nat) :=
  let sp := eltSpan d.fmt (b.o.getD 0 0) cols
  (upTo rows).map (fun i => (d.blockRow b i + sp.1, sp.2))

/-- Elements `j ..< j + n` of a row at an address, each with the poison of the lines under it. -/
def State.rowElems (s : State) (p : Part) (f addr j n : Nat) : List (Nat × Bool) :=
  let sp := eltSpan f j n
  let bytes := s.readVa p (addr + sp.1) sp.2
  let lines := linesOf (addr + sp.1) sp.2
  let poison := lines.map (fun l => (s.readLine p l).2)
  (upTo n).map (fun i =>
    let e := eltSpan f (j + i) 1
    let bad := (linesOf (addr + e.1) e.2).any (fun l => (lines.zip poison).any (fun x => decide (x.1 = l) && x.2))
    (getElem f bytes (if fmtBits f = 4 ∨ fmtBits f = 12 then i + j % 2 else i), bad))

/-- Pack a row; each byte carries the poison of the elements it holds. -/
def packRowP (f : Nat) (xs : List (Nat × Bool)) : List (Byte × Bool) :=
  let group (k : Nat) : List Nat :=
    if fmtBits f = 4 then [2 * k, 2 * k + 1]
    else if fmtBits f = 12 then [2 * (k / 3), 2 * (k / 3) + 1]
    else [k / (fmtBits f / 8)]
  (packRow f (xs.map Prod.fst)).zipIdx.map (fun x => (x.1, (group x.2).any (fun e => (xs.getD e (0, false)).2)))

/-- Fill up with clean zero bytes to a length. -/
def padTo (n : Nat) (l : List (Byte × Bool)) : List (Byte × Bool) := l ++ List.replicate (n - l.length) (0, false)

/-- Write bytes with poison marks to scratch from a byte offset: a word that receives a poisoned byte is
poisoned (R482). -/
def Core.writeMarked (c : Core) (o : Nat) (bs : List (Byte × Bool)) : Core :=
  (upTo ((o % 32 + bs.length + 31) / 32)).foldl (fun c w =>
    let base := o / 32 * 32 + 32 * w
    let cells := (upTo 32).filterMap (fun k =>
      if o ≤ base + k ∧ base + k < o + bs.length then (bs[base + k - o]?).map (fun b => (k, b)) else none)
    c.storeScratch base (cells.map (fun x => (x.1, x.2.1))) (cells.any (fun x => x.2.2))) c

/-- Read scratch bytes with the poison of the words they lie in. -/
def Core.readMarked (c : Core) (o n : Nat) : List (Byte × Bool) :=
  (c.readScratch o n).zipIdx.map (fun x => (x.1, Sparse.get false c.scratchPoison ((o + x.2) / 32)))

/-- Write bytes with poison marks to memory: a line that receives a poisoned byte is poisoned (R482). -/
def State.writeMarked (s : State) (p : Part) (va : Nat) (bs : List (Byte × Bool)) (owner : Option (Thread × Stream)) : State :=
  (linesOf va bs.length).foldl (fun s l =>
    let cells := (upTo 64).filterMap (fun k =>
      if va ≤ l + k ∧ l + k < va + bs.length then (bs[l + k - va]?).map (fun b => (k, b)) else none)
    s.writeLine p l (cells.map (fun x => (x.1, x.2.1))) (cells.any (fun x => x.2.2)) owner) s

/-- A byte to be written: its offset, its value, which of its bits are written, and its poison. -/
structure PackedByte where
  at'    : Nat
  byte   : Byte
  mask   : Byte
  poison : Bool

/-- The bytes of pair `k` of packed 4-bit or 12-bit elements (R35, R36) when elements `j ..< j + n` of a row of `extent`
are written: a packing neighbour's bits are not written, and the unused half of a row's last pair is written as 0. -/
def pairBytes (f j n extent : Nat) (x : Nat → Nat × Bool) (k : Nat) : List PackedByte :=
  let b := fmtBits f
  let inside (i : Nat) : Bool := decide (j ≤ i ∧ i < j + n)
  let bits (i : Nat) : Nat := if inside i then (x (i - j)).1 % 2 ^ b else 0
  let live (i : Nat) : Nat := if inside i || decide (extent ≤ i) then 2 ^ b - 1 else 0
  let v := bits (2 * k) + bits (2 * k + 1) * 2 ^ b
  let m := live (2 * k) + live (2 * k + 1) * 2 ^ b
  let bad := (inside (2 * k) && (x (2 * k - j)).2) || (inside (2 * k + 1) && (x (2 * k + 1 - j)).2)
  ((upTo (b / 4)).map (fun i => (⟨b / 4 * k + i, BitVec.ofNat 8 (v / 2 ^ (8 * i)), BitVec.ofNat 8 (m / 2 ^ (8 * i)), bad⟩ : PackedByte))).filter
    (fun y => decide (y.mask ≠ 0))

/-- Write `xs` over the in-bounds elements from `j` of a row of memory of `extent` elements; a packing neighbour's bits stay
(R239), the unused end of the row is 0 (R35, R36). -/
def State.storeRow (s : State) (p : Part) (f addr j extent : Nat) (xs : List (Nat × Bool)) (owner : Option (Thread × Stream)) : State :=
  let sp := eltSpan f j xs.length
  if fmtBits f = 4 ∨ fmtBits f = 12 then
    let bs := (upTo (ceilDiv (j + xs.length) 2 - j / 2)).flatMap (fun k =>
      pairBytes f j xs.length extent (fun i => xs.getD i (0, false)) (j / 2 + k))
    (linesOf (addr + sp.1) sp.2).foldl (fun s l =>
      let mine := bs.filter (fun y => decide (l ≤ addr + y.at' ∧ addr + y.at' < l + 64))
      s.writeLine p l (mine.map (fun y => (addr + y.at' - l, y.byte))) (mine.any (fun y => y.poison)) owner
        ((mine.filter (fun y => decide (y.mask ≠ 0xFF))).map (fun y => (addr + y.at' - l, y.mask)))) s
  else s.writeMarked p (addr + sp.1) (packRowP f xs) owner

/-- The ranges that a store must have read first: those it finds in a window's unused half, and host lines of which it
writes parts of bytes (R239). -/
def State.storeReads (s : State) (p : Part) (f : Nat) (ranges : List (Nat × Nat)) : List (Nat × Nat) :=
  ranges.filter (fun r => (linesOf r.1 r.2).any (fun l =>
    match s.place p l with
    | .scratch _ o => decide (o ≥ 0x200000)
    | .host _ _ => decide (fmtBits f = 4 ∨ fmtBits f = 12)
    | _ => false))

/-- Every page under the ranges may be written. -/
def State.allWritable (s : State) (p : Part) (ranges : List (Nat × Nat)) : Bool :=
  ranges.all (fun r => (linesOf r.1 r.2).all (fun l => s.writable p l))

/-! ## Issue -/

/-- End a move command whose handle fails its check, with the events of R229 and R483. -/
def State.moveHandleFail (s : State) (t : Thread) (q : QEntry) (cmd : Cmd) (h : Nat) (st : BitVec 8) (logIt : Bool) : State :=
  let src := engineSource (threadCore t) .move
  let s := s.issueDone t .move q cmd st
  let s := if logIt then s.descCheck src h else s
  if st = stPoisoned then s.poisonConsumed src t.toNat (s.stream t .move).count.toNat (s.descAddr (s.threadPart t) h) else s

/-- Issue a move command that names one tensor: its handle and slots, its format, its shape, its scratch region, then
what `k` does with the descriptor (R12, R231, R241, R254). -/
def State.issueMove (s : State) (t : Thread) (op : Nat) (needScale : Bool) (fmtOk : Nat → Bool)
    (region : MBlk → Desc → Nat × Nat) (k : QEntry → Cmd → MBlk → Desc → State → State) (slots : MBlk → List Nat := fun _ => []) : State :=
  match s.issuable t .move op with
  | none => s
  | some (q, cmd) =>
    let p := s.threadPart t
    let src := engineSource (threadCore t) .move
    let b := mblkOf (s.context t) cmd
    if s.signalBad t cmd then s.issueDone t .move q cmd stHandle
    else
      let ranges := s.handleRanges p b.handle
      if !s.ready p ranges then s.askFor t .move ranges
      else match s.checkHandle p b.handle needScale with
        | .fail st logIt => s.moveHandleFail t q cmd b.handle st logIt
        | .ok d =>
          if (slots b).any (fun n => decide (n > 23)) then s.issueDone t .move q cmd stHandle
          else if !fmtOk d.fmt then s.issueDone t .move q cmd stFormat
          else match d.overDim with
            | some dim => (s.issueDone t .move q cmd stShapeOver).shapeOver src b.handle dim (d.extent dim) (d.maxExtent dim)
            | none =>
              let r := region b d
              if r.2 > 0 ∧ r.1 + r.2 > generalEnd then s.issueDone t .move q cmd stScratch
              else k q cmd b d s

/-- Read memory for a move command: wait for lines, refuse an address in a window's upper half, then go on;
host lines are used once. -/
def State.moveRead (s : State) (t : Thread) (q : QEntry) (cmd : Cmd) (ranges : List (Nat × Nat)) (k : State → State) : State :=
  let p := s.threadPart t
  match s.upperHalf p ranges with
  | some o => (s.issueDone t .move q cmd stAbandoned).scratchRange t o
  | none => if !s.ready p ranges then s.askFor t .move ranges else (k s).dropHost p ranges

/-- Replace a core's stores after a move. -/
def State.putCore (s : State) (c : CoreId) (f : Core → Core) : State := s.setCore c (f (s.core c))

/-- Any defined element format. -/
def anyFmt (f : Nat) : Bool := f < 15

/-- The block of a load as marked bytes: `rows` rows of `width` elements padded to `pitch` bytes each;
element (i, j) comes from memory when in bounds, else it is zero. -/
def State.loadBlock (s : State) (p : Part) (d : Desc) (b : MBlk) (rows width pitch : Nat) : List (Byte × Bool) :=
  let n := d.part b b.rows b.cols
  (upTo rows).flatMap (fun i =>
    let xs := if i < n.1 then s.rowElems p d.fmt (d.blockRow b i) (b.o.getD 0 0) n.2 else []
    padTo pitch (packRowP d.fmt (xs ++ List.replicate (width - xs.length) (0, false))))

/-! ## Loads -/

/-- MLOAD (R239): the block lands row-major, each row padded to 32 bytes. -/
def execMload (t : Thread) (s : State) : Out :=
  onThread t s (fun s => s.issueMove t 0x73 false anyFmt (fun b d => (b.off, blockBytes d.fmt b.rows b.cols)) (fun q cmd b d s =>
    let p := s.threadPart t
    let n := d.part b b.rows b.cols
    if n.1 = 0 ∨ n.2 = 0 then s.issueDone t .move q cmd stEmpty
    else s.moveRead t q cmd (d.blockRanges b n.1 n.2) (fun s =>
      let bs := s.loadBlock p d b b.rows b.cols (rowPitch d.fmt b.cols)
      (s.issueDone t .move q cmd stOk).putCore (threadCore t) (fun c => c.writeMarked b.off bs))))

/-- Formats that array tiles are built from (R243). -/
def tileFmt (f : Nat) : Bool := f < 12

/-- MLOAD_A (R125, R239): a stream tile of 288 rows of 72 bytes under its header. -/
def execMloadA (t : Thread) (s : State) : Out :=
  onThread t s (fun s => s.issueMove t 0x70 false tileFmt (fun b _ => (b.off, 32 + 20736)) (fun q cmd b d s =>
    let p := s.threadPart t
    let n := d.part b b.rows b.cols
    if n.1 = 0 ∨ n.2 = 0 then s.issueDone t .move q cmd stEmpty
    else s.moveRead t q cmd (d.blockRanges b n.1 n.2) (fun s =>
      let head := (tileHeader b.handle b.w6 0 d.fmt 0 false).map (fun x => (x, false))
      let bs := s.loadBlock p d b 288 (576 / fmtBits d.fmt) 72
      (s.issueDone t .move q cmd stOk).putCore (threadCore t) (fun c => c.writeMarked b.off (head ++ bs)))))

/-- The block of a transposed read: row k, column n holds the element with indices (o0 + k, o1 + n) (R242). -/
def State.loadTransposed (s : State) (p : Part) (d : Desc) (b : MBlk) (rows width : Nat) : List (Byte × Bool) :=
  let n0 := if d.outerIn b.o then inBounds (b.o.getD 0 0) b.rows (d.extent 0) else 0
  let n1 := if d.outerIn b.o then inBounds (b.o.getD 1 0) b.cols (d.extent 1) else 0
  let lines := (upTo n1).map (fun j => s.rowElems p d.fmt (d.blockRow b j) (b.o.getD 0 0) n0)
  (upTo rows).flatMap (fun k =>
    let xs := if k < n0 then lines.map (fun l => l.getD k (0, false)) else []
    padTo 72 (packRowP d.fmt (xs ++ List.replicate (width - xs.length) (0, false))))

/-- MLOAD_B (R125, R240, R242): a stationary tile of K_eff rows of 72 bytes under its header. -/
def execMloadB (t : Thread) (s : State) : Out :=
  onThread t s (fun s => s.issueMove t 0x71 false tileFmt
    (fun b _ => (b.off, 32 + 144 / (bitsOf b.w6 17 16 + 1) * 72)) (fun q cmd b d s =>
    let p := s.threadPart t
    let keff := 144 / (bitsOf b.w6 17 16 + 1)
    let neff := 576 / fmtBits d.fmt
    let tr := cmd.bit 1 16
    let n := if tr then
        (if d.outerIn b.o then inBounds (b.o.getD 1 0) b.cols (d.extent 1) else 0, inBounds (b.o.getD 0 0) b.rows (d.extent 0))
      else d.part b b.rows b.cols
    if n.1 = 0 ∨ n.2 = 0 then s.issueDone t .move q cmd stEmpty
    else s.moveRead t q cmd (d.blockRanges b n.1 n.2) (fun s =>
      let axis := b.o.getD (if tr then 1 else 0) 0 / neff
      let head := (tileHeader b.handle axis 1 d.fmt (b.w6 % 2 ^ 16) tr).map (fun x => (x, false))
      let bs := if tr then s.loadTransposed p d b keff neff else s.loadBlock p d b keff neff 72
      (s.issueDone t .move q cmd stOk).putCore (threadCore t) (fun c => c.writeMarked b.off (head ++ bs)))))

/-- MLOAD_S (R126, R239): a scale tile into a slot, from channel axis_index × span; the slot's other entries are zero. -/
def execMloadS (t : Thread) (s : State) : Out :=
  onThread t s (fun s => s.issueMove t 0x72 true (fun _ => true) (fun _ _ => (0, 0)) (fun q cmd b d s =>
    let p := s.threadPart t
    let slot := bitsOf b.w4 20 16
    let span := b.cols
    let start := b.w6 * span
    let count := if start ≥ d.channels then 0 else min span (d.channels - start)
    if count = 0 then s.issueDone t .move q cmd stEmpty
    else
      let base := scaleAt (s.desc p d.scaleHandle) start
      s.moveRead t q cmd [(base, 16 * count)] (fun s =>
        let head := leBytes 2 count ++ leBytes 1 0 ++ leBytes 1 b.rows ++ leBytes 2 b.handle ++ leBytes 2 d.scaleHandle
          ++ leBytes 4 b.w6 ++ List.replicate 20 0
        let bs := (s.readVa p base (16 * count)).zipIdx.map (fun x => (x.1, (s.readLine p ((base + x.2) / 64 * 64)).2))
        (s.issueDone t .move q cmd stOk).putCore (threadCore t) (fun c =>
          c.writeMarked (slotAt slot) (padTo 4640 (head.map (fun x => (x, false)) ++ bs))))) (fun b => [bitsOf b.w4 20 16]))

/-- MMASK (R94, R215): a row of cols elements, cut or zero-filled to the 36 bytes of a row mask (DESIGN
CHOICE, log 18). -/
def execMmask (t : Thread) (s : State) : Out :=
  onThread t s (fun s => s.issueMove t 0x77 false anyFmt (fun b _ => (b.off, 36)) (fun q cmd b d s =>
    let p := s.threadPart t
    let n := d.part b 1 b.cols
    if n.1 = 0 ∨ n.2 = 0 then s.issueDone t .move q cmd stEmpty
    else s.moveRead t q cmd (d.blockRanges b 1 n.2) (fun s =>
      let xs := s.rowElems p d.fmt (d.blockRow b 0) (b.o.getD 0 0) n.2
      let bs := (padTo 36 (packRowP d.fmt xs)).take 36
      (s.issueDone t .move q cmd stOk).putCore (threadCore t) (fun c => c.writeMarked b.off bs))))

/-! ## Stores and copies -/

/-- MSTORE (R239): in-bounds elements only. -/
def execMstore (t : Thread) (s : State) : Out :=
  onThread t s (fun s => s.issueMove t 0x74 false anyFmt (fun b d => (b.off, blockBytes d.fmt b.rows b.cols)) (fun q cmd b d s =>
    let p := s.threadPart t
    let n := d.part b b.rows b.cols
    let ranges := d.blockRanges b n.1 n.2
    if n.1 = 0 ∨ n.2 = 0 then s.issueDone t .move q cmd stEmpty
    else if !s.allWritable p ranges then s.issueDone t .move q cmd stHandle
    else s.moveRead t q cmd (s.storeReads p d.fmt ranges) (fun s =>
      let core := s.core (threadCore t)
      let s := s.issueDone t .move q cmd stOk
      (upTo n.1).foldl (fun s i =>
        let bs := core.readMarked (b.off + i * rowPitch d.fmt b.cols) (rowBytes d.fmt b.cols)
        let row := bs.map Prod.fst
        let xs := (upTo n.2).map (fun j =>
          let sp := eltSpan d.fmt j 1
          (getElem d.fmt row j, ((bs.drop sp.1).take sp.2).any (fun x => x.2)))
        s.storeRow p d.fmt (d.blockRow b i) (b.o.getD 0 0) (d.extent 0) xs (some (t, .move))) s)))

/-- MCOPY (R239): the part in bounds on both sides; the destination handle stands in W4 bits 15:0, with the
same origins (DESIGN CHOICE, log 17). -/
def execMcopy (t : Thread) (s : State) : Out :=
  onThread t s (fun s =>
    match s.issuable t .move 0x75 with
    | none => s
    | some (q, cmd) =>
      let p := s.threadPart t
      let src := engineSource (threadCore t) .move
      let b := mblkOf (s.context t) cmd
      let h := b.w4 % 2 ^ 16
      let ranges := s.handleRanges p b.handle ++ s.handleRanges p h
      if s.signalBad t cmd then s.issueDone t .move q cmd stHandle
      else if !s.ready p ranges then s.askFor t .move ranges
      else match s.checkHandle p b.handle, s.checkHandle p h with
        | .fail st logIt, _ => s.moveHandleFail t q cmd b.handle st logIt
        | _, .fail st logIt => s.moveHandleFail t q cmd h st logIt
        | .ok d, .ok e =>
          if !anyFmt d.fmt ∨ e.fmt ≠ d.fmt then s.issueDone t .move q cmd stFormat
          else match d.overDim, e.overDim with
            | some dim, _ => (s.issueDone t .move q cmd stShapeOver).shapeOver src b.handle dim (d.extent dim) (d.maxExtent dim)
            | none, some dim => (s.issueDone t .move q cmd stShapeOver).shapeOver src h dim (e.extent dim) (e.maxExtent dim)
            | none, none =>
              let n := d.part b b.rows b.cols
              let m := e.part b b.rows b.cols
              let rows := min n.1 m.1
              let cols := min n.2 m.2
              let from' := d.blockRanges b rows cols
              let to' := e.blockRanges b rows cols
              if rows = 0 ∨ cols = 0 then s.issueDone t .move q cmd stEmpty
              else if !s.allWritable p to' then s.issueDone t .move q cmd stHandle
              else s.moveRead t q cmd (from' ++ s.storeReads p d.fmt to')
                (fun s =>
                  let data := (upTo rows).map (fun i => (i, s.rowElems p d.fmt (d.blockRow b i) (b.o.getD 0 0) cols))
                  let s := s.issueDone t .move q cmd stOk
                  data.foldl (fun s x => s.storeRow p d.fmt (e.blockRow b x.1) (b.o.getD 0 0) (e.extent 0) x.2 (some (t, .move))) s))

/-- The mesh neighbour of a core: 0 north, 1 east, 2 south, 3 west (R22, R246). -/
def neighbour (c : CoreId) (dir : Nat) : Option CoreId :=
  let n := coreNumber c
  let row := n / 10
  let col := n % 10
  let d := coreDie c
  match dir with
  | 0 => if row = 0 then none else some (coreAt d (n - 10))
  | 1 => if col = 9 then none else some (coreAt d (n + 1))
  | 2 => if row ≥ 7 then none else some (coreAt d (n + 10))
  | _ => if col = 0 then none else some (coreAt d (n - 1))

/-- MHALO (R245, R246): rows of cols bytes into the neighbour's scratch. -/
def execMhalo (t : Thread) (s : State) : Out :=
  onThread t s (fun s =>
    match s.issuable t .move 0x76 with
    | none => s
    | some (q, cmd) =>
      let rows := cmd.bits 5 31 16
      let cols := cmd.bits 5 15 0
      let pitch := ceilDiv cols 32 * 32
      let from' := cmd.bits 4 15 0 * 32
      let to' := cmd.bits 6 15 0 * 32
      if s.signalBad t cmd then s.issueDone t .move q cmd stHandle
      else match neighbour (threadCore t) (cmd.bits 1 25 24) with
        | none => s.issueDone t .move q cmd stHandle
        | some n =>
          if rows * pitch > 0 ∧ (from' + rows * pitch > generalEnd ∨ to' + rows * pitch > generalEnd) then
            s.issueDone t .move q cmd stScratch
          else if rows = 0 ∨ cols = 0 then s.issueDone t .move q cmd stEmpty
          else
            let core := s.core (threadCore t)
            let s := s.issueDone t .move q cmd stOk
            s.putCore n (fun c => (upTo rows).foldl (fun c i =>
              c.writeMarked (to' + i * pitch) (core.readMarked (from' + i * pitch) cols)) c))

/-! ## Program memory -/

/-- A running context of the core has the bank selected (R220). -/
def Core.bankInUse (c : Core) (bank : Bool) : Bool :=
  c.contexts.any (fun e => decide (e.2.run ≠ .free) && e.2.bank == bank)

/-- Write one 64-byte block, two commands, to program memory; a poisoned one is fetched as poisoned. -/
def Core.writeProgram (c : Core) (at' : Nat) (block : List (Byte × Bool)) : Core :=
  let bad := block.any (fun x => x.2)
  let bs := block.map Prod.fst
  { c with
    program := Sparse.set Cmd.zero (Sparse.set Cmd.zero c.program at' (cmdOf (bs.take 32))) (at' + 1) (cmdOf (bs.drop 32))
    programPoison := Sparse.set false (Sparse.set false c.programPoison at' bad) (at' + 1) bad }

/-- Write consecutive blocks from command index `at'` (of both banks, 0-16,383): blocks aimed at a bank in use
are dropped and logged; the answer gives the first block dropped (R220). -/
def State.writeBlocks (s : State) (core : CoreId) (at' : Nat) (blocks : List (List (Byte × Bool))) : State × Option Nat :=
  blocks.zipIdx.foldl (fun (a : State × Option Nat) x =>
    let i := (at' / 2 * 2 + 2 * x.2) % 16384
    if (a.1.core core).bankInUse (decide (i ≥ 8192)) then
      (a.1.log (coreSource core 0) 4 (f1 (i / 8192) ++ f8 (i % 8192 * 32)), some (a.2.getD x.2))
    else (a.1.putCore core (fun c => c.writeProgram i x.1), a.2)) (s, none)

/-- Cut marked bytes into 64-byte blocks, the last filled with zeros. -/
def blocksOf (bs : List (Byte × Bool)) : List (List (Byte × Bool)) :=
  (upTo (ceilDiv bs.length 64)).map (fun i => padTo 64 ((bs.drop (64 * i)).take 64))

/-- PM_LOAD (R220): the block's rows, packed one after the other, go to program memory from the command index
in W4 bits 13:0, bit 13 the bank (DESIGN CHOICE, log 16). -/
def execPmLoad (t : Thread) (s : State) : Out :=
  onThread t s (fun s => s.issueMove t 0x78 false anyFmt (fun _ _ => (0, 0)) (fun q cmd b d s =>
    let p := s.threadPart t
    let n := d.part b b.rows b.cols
    if n.1 = 0 ∨ n.2 = 0 then s.issueDone t .move q cmd stEmpty
    else s.moveRead t q cmd (d.blockRanges b n.1 n.2) (fun s =>
      let bs := s.loadBlock p d b b.rows b.cols (rowBytes d.fmt b.cols)
      let (s, dropped) := s.writeBlocks (threadCore t) (b.w4 % 2 ^ 14) (blocksOf bs)
      match dropped with
      | none => s.issueDone t .move q cmd stOk
      | some i => s.issueDone t .move q cmd stAbandoned i)))

end Sys2Proof.Machine
end

