-- ==== Sys2Proof/Machine/Reach.lean ====
section
/-! DEFINITION. Who reaches which register (R9, R486, R492, R493, R510, R511): the grants of the partition
table and the exceptions. -/

namespace Sys2Proof.Machine

/-- The management port's number as a requester (R492). -/
def mgmtPort : Requester := 4

/-- A requester that is a partition. -/
def Requester.part? (r : Requester) : Option Part := if h : r.val < 4 then some ⟨r.val, h⟩ else none

/-- The device virtual address of an MMIO offset. -/
def mmioAddr (off : Nat) : Nat := 0x220000000000 + off

/-- The copy a register is named by belongs to the partition (R493): its own instance, ring, port, die or
attestation set; registers without copies belong to all. -/
def State.ownCopy (s : State) (p : Part) (a : RegAt) : Bool :=
  let die : Bool := s.ownsDie p ⟨a.i % 4, Nat.mod_lt _ (by decide)⟩
  match a.reg.row.block with
  | 0 => s.ownsRing p a.i
  | 1 => a.reg = .partShape || a.i = p.val
  | 2 => a.i = p.val
  | 3 => if a.reg = .gauSrcBase then a.i = p.val else die
  | 4 => a.i = p.val
  | 5 => if a.reg = .govDieState then die else if a.reg = .govPhaseOp then a.i = p.val else true
  | 6 => if a.reg = .clkDie then die else true
  | 7 => if a.reg.row.base ≥ 0x1000 then s.ownsFab p a.i else true
  | 8 => a.i = p.val
  | 9 => if a.reg.row.base ≥ 0x1000 then s.ownsRcl p ⟨a.i % 4, Nat.mod_lt _ (by decide)⟩ else true
  | 10 => a.i = p.val
  | 11 => if a.reg = .evtTime then decide (a.i ≥ 4) || die else true
  | 12 => if 0x5000 ≤ a.reg.row.base ∨ a.reg = .secFwrBase ∨ a.reg = .secFwrSize then a.i = p.val else true
  | 14 => if a.reg = .dbgWaitLimit ∨ a.reg = .dbgDumpAddr then a.i = p.val else true
  | _ => true

/-- Registers a partition reaches whatever its grant (R492): its rings, its per-partition registers of
PART, its attestation set. -/
def RegAt.always (a : RegAt) : Bool :=
  decide (a.reg.row.block = 0) || (decide (a.reg.row.block = 1) && decide (a.reg ≠ .partShape))
    || (decide (a.reg.row.block = 12) && decide (0x5000 ≤ a.reg.row.base))

/-- A requester reaches a register (R492, R493). -/
def State.reaches (s : State) (r : Requester) (a : RegAt) : Bool :=
  match Requester.part? r with
  | none => true
  | some p => s.partValid p && (a.always || bitOf (s.mmioGrant p) a.reg.row.block) && s.ownCopy p a

/-- A requester may write a register at all: the management port only as R486 gives, GOV_BOARD_CAP by no
partition (R504), an event source's registers by its ring owner alone (R471). -/
def State.mayWriteReg (s : State) (r : Requester) (a : RegAt) : Bool :=
  match Requester.part? r with
  | none => decide (a.reg.row.block = 13) || decide (a.reg = .govBoardCap)
  | some p =>
    s.reaches r a && decide (a.reg ≠ .govBoardCap)
      && (decide (a.reg.row.block ≠ 11) || decide (a.reg = .evtSharedOwner) || decide (s.sourceOwner a.i = p))

/-- A write to a register with a behaviour of its own: performed when the requester may write it, else
dropped and logged with cause 0 (R9, R493). -/
def State.ownWrite (s : State) (r : Requester) (reg : RegName) (i j : Nat) (act : State → State) : State :=
  if s.mayWriteReg r ⟨reg, i, j⟩ then act s else s.accessDropped r.val 0 (mmioAddr (reg.offset i j))

/-- A partition as a requester. -/
def partReq (p : Part) : Requester := ⟨p.val, by have := p.isLt; omega⟩

/-! ## The Update Die's links (R20, R280) -/

/-- The link that carries an access to the Update Die: the one to the I/O die that is asked for, or the other while that one
is down; none with both down. -/
def State.updLink (s : State) (i : Iod) : Option Iod :=
  let other : Iod := ⟨(i.val + 1) % 2, Nat.mod_lt _ (by decide)⟩
  if !s.boot.linkFailed.getLsbD i.val then some i
  else if !s.boot.linkFailed.getLsbD other.val then some other
  else none

/-- The I/O die that a page's link leads to: the page index mod 2, of the HBM frame or the Reserve frame (R20, R235, R280). -/
def pageIod (page : Nat) : Iod := ⟨page % 2, Nat.mod_lt _ (by decide)⟩

/-- The link of an access between the Update Die and an address of a partition; a place that is neither in HBM nor in the
Reserve needs none of its own, and takes that of I/O die 0. -/
def State.lineLink (s : State) (p : Part) (va : Nat) : Option Iod :=
  match s.place p va with
  | .hbm a => s.updLink (pageIod (a / pageSize))
  | .reserve a => s.updLink (pageIod (a / pageSize))
  | _ => s.updLink 0

/-- The link of mirror traffic for a fabric port: that of the I/O die that carries the port. -/
def State.mirrorLink (s : State) (n : FPort) : Option Iod := s.updLink (fabIod n)

end Sys2Proof.Machine
end

