-- ==== Sys2Proof/Machine/Packets.lean ====
section
/-! DEFINITION. Host packets (R396-R414): reading the submission rings, well-formedness, admission, replies
and result buffers. The packet rows call `State.packetRow`; a packet's own work stands with its
chapter. -/

namespace Sys2Proof.Machine

/-- A packet just read. -/
def Packet.init (id : Nat) (ring : Ring) (bytes : List Byte) : Packet where
  id := id
  ring := ring
  bytes := bytes
  started := false
  ended := false
  status := none
  detail := 0
  detail2 := 0
  value := 0
  resource := 0
  bucket := 0
  borrowed := false
  queuedAt := none
  delayed := false
  bound := 0
  body := none
  bodyPoison := []
  placed := 0
  alive := 0
  dies := []
  loaded := []
  code := []
  pblock := []
  pending := []
  seen := false
  nest := []
  stamp := 0
  bodyOut := false

/-! ## Fields (Tables 14.3 and 14.4) -/

def pktOpcode (bs : List Byte) : Nat := field bs 0 1
def pktFlags (bs : List Byte) : Nat := field bs 1 1
def pktLength (bs : List Byte) : Nat := field bs 2 2
def pktSeq (bs : List Byte) : Nat := field bs 4 4
def pktResult (bs : List Byte) : Nat := field bs 8 6
/-- cap = result_cap × 64 (R408). -/
def pktCap (bs : List Byte) : Nat := field bs 14 2 * 64
/-- Handle h0-h3. -/
def pktHandle (bs : List Byte) (i : Nat) : Nat := field bs (16 + 2 * i) 2
/-- `n` bytes of the parameters from offset `o`. -/
def pktParam (bs : List Byte) (o n : Nat) : Nat := field bs (24 + o) n
/-- Continuation entry `i`, its 64 bytes. -/
def pktCont (bs : List Byte) (i : Nat) : List Byte := (bs.drop (64 + 64 * i)).take 64

/-- The opcodes of Table 14.4. -/
def pktOpcodes : List Nat :=
  [0x01, 0x02, 0x03, 0x04, 0x05, 0x06, 0x07, 0x08, 0x09, 0x0A, 0x0B, 0x10, 0x11, 0x12, 0x13, 0x14, 0x18, 0x19,
   0x20, 0x21, 0x22]

/-- The length an opcode and its flags require: continuation entries of a LAUNCH for its tiling plan and its
chained put (R403), else none. -/
def pktNeeds (bs : List Byte) : Nat :=
  if pktOpcode bs = 0x02 then pktParam bs 13 1 / 2 % 2 + pktParam bs 13 1 / 4 % 2 else 0

/-- A reserved bit or code of a hint word (Table 8.3). -/
def hintBad (h : Nat) : Bool := decide (hintTier h > 3) || decide (hintResidency h > 1)

/-- A put's or get's parameters (R329, Table 14.4) outside their ranges; a continuation entry has them at the places
a packet has. -/
def putBad (bs : List Byte) : Bool :=
  let v := pktParam bs
  decide (v 0 1 > 31) || decide (v 2 6 ≥ 2 ^ 40) || v 8 4 = 0 || decide (v 8 4 % 32 ≠ 0) || decide (v 8 4 > 0x1000000)
    || decide (v 12 8 ≥ 2 ^ 48)

/-- The bytes of a PUT, a GET or a LAUNCH's chained put. -/
def messageBytes (k : Packet) : Nat :=
  if pktOpcode k.bytes = 0x02 then pktParam (pktCont k.bytes (pktNeeds k.bytes - 1)) 8 4 else pktParam k.bytes 8 4

/-- Parameters with a reserved bit set, a reserved code, or a number outside the range its table gives
(R401, R530; DEDUCED, log 31: bits of a byte that a table lists in part are reserved, bytes it does not
list are ignored). -/
def pktParamBad (bs : List Byte) : Bool :=
  let v := pktParam bs
  match pktOpcode bs with
  | 0x02 => decide (v 0 8 ≠ 0) || decide (v 12 1 > 6) || decide (v 13 1 > 7) || v 8 4 = 0 || decide (v 8 4 > 20480)
      || decide (v 22 2 > 15) || decide (v 32 2 > 8192) || [14, 16, 18, 20].any (fun o => decide (v o 2 > 8191))
  | 0x04 => decide (bitsOf (v 0 8) 63 16 ≠ 0) || bitOf (v 0 8) 12 || decide (bitsOf (v 0 8) 5 4 ≠ 0)
      || bitsOf (v 0 8) 8 6 = 7 || bitsOf (v 0 8) 3 0 = 15 || hintBad (v 32 4) || decide (v 36 1 > 1)
  | 0x06 => hintBad (v 0 4)
  | 0x07 => decide (v 0 1 > 5) || decide (v 1 1 > 1)
  | 0x09 => v 2 2 = 0 || decide (v 2 2 > 4096)
  | 0x0A => decide (v 0 2 > 0x7FFF) || v 2 2 = 0 || decide (v 2 2 > 20480) || decide (v 4 1 > 1)
  | 0x0B => decide (v 0 2 > 0x7FFF) || v 2 2 = 0 || decide (v 2 2 > 20480)
  | 0x11 => decide (v 30 2 > 16384) || decide (v 32 2 > 0xFFF) || decide (v 34 2 > 7) || decide (v 36 4 ≠ 0)
  | 0x12 => decide (v 0 1 > 31) || decide (v 1 1 > 1)
  | 0x13 => decide (v 0 1 > 31)
  | 0x14 => decide (v 0 1 > 3) || decide (v 1 1 > 3) || decide (v 2 2 > 0x7FFF)
  | 0x18 => v 8 2 = 0 || decide (v 8 2 > 16384) || v 10 2 = 0 || decide (v 17 2 > 0x7FFF)
  | 0x10 => decide (v 0 2 > 0xFFF)
  | 0x20 => decide (v 1 1 > 7) || decide (v 10 2 > 0x7FFF) || decide (v 16 8 ≥ 2 ^ 48) || decide (v 24 8 > 2 ^ 40)
      || decide (v 16 8 % 32 ≠ 0) || decide (v 24 8 % 32 ≠ 0)
  | 0x21 => putBad bs
  | 0x22 => putBad bs
  | _ => false

/-- A chained put's parameters (R403). -/
def chainedBad (bs : List Byte) : Bool :=
  pktOpcode bs = 0x02 && bitOf (pktParam bs 13 1) 2 && putBad (pktCont bs (pktNeeds bs - 1))

/-- R401. -/
def malformed (bs : List Byte) : Bool :=
  !pktOpcodes.contains (pktOpcode bs) || decide (pktLength bs ≠ pktNeeds bs) || decide (pktFlags bs > 1)
    || pktParamBad bs || chainedBad bs

/-- Entries a packet takes in its ring (R401). -/
def pktEntries (bs : List Byte) : Nat := if pktLength bs ≤ 3 then 1 + pktLength bs else 1

/-! ## Reading a ring (R396-R399) -/

/-- Address of submission entry `i` (R397). -/
def State.sqAddr (s : State) (r : Nat) (i : Nat) : Nat := s.regN .hifSqBase r + i % s.regN .hifSqSize r * 64
/-- Address of reply entry `i` (R397). -/
def State.rqAddr (s : State) (r : Nat) (i : Nat) : Nat := s.regN .hifRqBase r + i % s.regN .hifRqSize r * 32

/-- Packets of a ring read and not yet replied to: each holds one reply entry reserved (R398). -/
def Partition.outstanding (q : Partition) (r : Nat) : Nat := (q.packets.filter (fun k => decide (k.ring.val = r))).length

/-- Reply entries of a ring that are free and not reserved (R398). -/
def State.freeReplies (s : State) (p : Part) (r : Nat) : Nat :=
  s.regN .hifRqSize r - ahead32 (s.regN .hifRqHead r) (s.regN .hifRqTail r) - (s.part p).outstanding r

/-- The packet at a ring's head as memory holds it. -/
def State.headPacket (s : State) (p : Part) (r : Nat) : List Byte :=
  let h := s.regN .hifSqHead r
  let first := s.readVa p (s.sqAddr r h) 64
  first ++ (upTo (pktEntries first - 1)).flatMap (fun i => s.readVa p (s.sqAddr r ((h + 1 + i) % 2 ^ 32)) 64)

/-- A packet has completed: its work has ended, and the writes of a COPY or a GET are visible at their home (R399; the
writes of the whole partition stand for them, DEDUCED, log 111). -/
def State.packetDone (s : State) (p : Part) (k : Packet) : Bool :=
  k.ended && !((pktOpcode k.bytes = 0x03 || pktOpcode k.bytes = 0x22) && s.partWaits p)

/-- Entries of a ring are posted and a reply entry is free (R398). -/
def State.ringPosted (s : State) (p : Part) (r : Nat) : Bool :=
  decide (ahead32 (s.regN .hifSqHead r) (s.regN .hifSqTail r) > 0) && decide (s.freeReplies p r > 0)

/-- The entry at a ring's head, as a range of memory. -/
def State.headLine (s : State) (r : Nat) : List (Nat × Nat) := [(s.sqAddr r (s.regN .hifSqHead r), 64)]

/-- A ring whose next packet can be read: its head entry at hand with any data a host has modified (R380, R396), packets
posted whole, a reply entry free, and with the fence flag set every earlier packet of the ring completed (R398, R399). -/
def State.ringReadable (s : State) (p : Part) (r : Nat) : Bool :=
  let posted := ahead32 (s.regN .hifSqHead r) (s.regN .hifSqTail r)
  let bs := s.readVa p (s.sqAddr r (s.regN .hifSqHead r)) 64
  s.ringPosted p r && s.ready p (s.headLine r) && decide (pktEntries bs ≤ posted)
    && (pktFlags bs % 2 = 0 || (s.part p).packets.all (fun k => decide (k.ring.val ≠ r) || s.packetDone p k))

/-- The ring a partition reads next: the first readable one after the ring read last, in rotation
(R399). -/
def State.nextRing (s : State) (p : Part) : Option Nat :=
  let n := s.ringCount p
  let last := (s.part p).lastRing
  let start := if s.ownsRing p last then last - s.ringFirst p + 1 else 0
  ((upTo n).map (fun i => s.ringFirst p + (start + i) % n)).find? (fun r => s.ringReadable p r)

/-- A STEP_END of the partition has not taken effect: later commands do not issue (R141, R143). -/
def Partition.stepEndWaits (q : Partition) : Bool := q.packets.any (fun k => decide (pktOpcode k.bytes = 0x08) && !k.ended)

/-- Packets of the partition may be read: it runs, and no draining SET_PHASE and no STEP_END waits (R141, R260, R394). -/
def State.interprets (s : State) (p : Part) : Bool :=
  s.live && s.running p && (s.part p).drainPhase.isNone && !(s.part p).stepEndWaits

/-- The memory the head packet lies in. -/
def State.headRanges (s : State) (p : Part) (r : Nat) : List (Nat × Nat) :=
  let h := s.regN .hifSqHead r
  (upTo (pktEntries (s.readVa p (s.sqAddr r h) 64))).map (fun i => (s.sqAddr r ((h + i) % 2 ^ 32), 64))

/-- Change a packet. -/
def Partition.onPacket (q : Partition) (id : Nat) (f : Packet → Packet) : Partition :=
  { q with packets := updateFirst (fun k => decide (k.id = id)) f q.packets }
/-- Change a packet of a partition. -/
def State.onPacket (s : State) (p : Part) (id : Nat) (f : Packet → Packet) : State := s.onPart p (fun q => q.onPacket id f)
/-- A packet by its number. -/
def State.packet? (s : State) (p : Part) (id : Nat) : Option Packet := (s.part p).packets.find? (fun k => decide (k.id = id))

/-! ## Ending a packet -/

/-- A packet's work has ended with a final status, unless one was already given; its admission unit is
free again (R413). -/
def State.endPacket (s : State) (p : Part) (id : Nat) (status : BitVec 8) (f : Packet → Packet := fun k => k) : State :=
  s.onPart p (fun q =>
    { q.onPacket id (fun k => { f k with ended := true, status := some (k.status.getD status) }) with
      finished := q.finished ++ [id]
      queues := q.queues.filter (fun x => decide (x.1 ≠ id))
      units := q.units.filter (fun u => decide (u.packet ≠ id)) })

/-- A packet refused for want of a resource (R406, Table 14.7). -/
def State.refuse (s : State) (p : Part) (id : Nat) (status : BitVec 8) (resource detail : Nat) : State :=
  s.endPacket p id status (fun k => { k with resource := resource, detail := detail })

/-- The 16-byte header of a result buffer (Table 14.8). -/
def resultHeader (gen seq len flags : Nat) : List Byte := leBytes 4 gen ++ leBytes 4 seq ++ leBytes 4 len ++ leBytes 4 flags

/-- Set or clear a result buffer's pending flag, its other words unchanged (R409). -/
def State.setPending (s : State) (p : Part) (addr : Nat) (on : Bool) : State :=
  if addr = 0 then s else
    let flags := leNat (s.readVa p (addr + 12) 4)
    s.writeVa p (addr + 12) (leBytes 4 (flags / 2 * 2 + b2n on)) false

/-- The number of the next packet a partition reads, above that of every packet it has. -/
def Partition.freshId (q : Partition) : Nat := q.packets.foldl (fun a k => Nat.max a (k.id + 1)) q.nextId

/-- Read the head packet of a ring: the head advances, a reply entry is reserved, and a named result buffer
is marked pending (R397, R398, R409). `act` gives the packet its effect. -/
def State.takePacket (s : State) (p : Part) (ring : Ring) (act : State → Packet → State) : State :=
  let bs := s.headPacket p ring.val
  let poison := (s.headRanges p ring.val).any (fun r => s.poisoned p r.1 r.2)
  let addr := s.sqAddr ring.val (s.regN .hifSqHead ring.val)
  let s := s.dropHost p (s.headRanges p ring.val)
  let s := s.setRegN .hifSqHead ring.val 0 ((s.regN .hifSqHead ring.val + pktEntries bs) % 2 ^ 32)
  let k := Packet.init (s.part p).freshId ring bs
  let s := s.onPart p (fun q => { q with packets := q.packets ++ [k], nextId := k.id + 1, lastRing := ring.val })
  let s := s.setPending p (pktResult bs) true
  if poison then (s.endPacket p k.id stPoisoned).poisonConsumed (surveyorSource p) 0 (pktSeq bs) addr
  else act s k

/-- One packet row (R399, R401): when `ring` is the ring its partition reads next and the packet at its head
is one that `accept` takes, the packet is read and `act` performed; `needs` names the memory `act`
reads. A head entry that a host owns is asked for first (R380). -/
def State.packetRow (s : State) (ring : Ring) (accept : State → Part → List Byte → Bool)
    (needs : State → Part → List Byte → List (Nat × Nat)) (act : Part → State → Packet → State) : State :=
  match s.partOfRing ring.val with
  | none => s
  | some p =>
    if s.interprets p && s.ringPosted p ring.val && !s.ready p (s.headLine ring.val) then s.ask p (s.headLine ring.val)
    else if s.interprets p && decide (s.nextRing p = some ring.val) then
      if !s.ready p (s.headRanges p ring.val) then s.ask p (s.headRanges p ring.val)
      else
        let bs := s.headPacket p ring.val
        if accept s p bs then
          let more := (if pktResult bs = 0 then [] else [(pktResult bs, 16)]) ++ needs s p bs
          if s.ready p more then s.takePacket p ring (act p) else s.ask p more
        else s
    else s

/-- A well-formed packet of an opcode. -/
def isPacket (op : Nat) (bs : List Byte) : Bool := pktOpcode bs = op && !malformed bs

/-- A packet row of one opcode. -/
def State.opcodeRow (s : State) (ring : Ring) (op : Nat) (needs : State → Part → List Byte → List (Nat × Nat))
    (act : Part → State → Packet → State) : State :=
  s.packetRow ring (fun _ _ bs => isPacket op bs) needs act

/-- Every packet the partition interpreted before `id` has completed. -/
def State.earlierDone (s : State) (p : Part) (id : Nat) : Bool :=
  (s.part p).packets.all (fun k => decide (k.id ≥ id) || s.packetDone p k)

/-- The oldest packet of an opcode whose work has not started. -/
def Partition.waitingPacket (q : Partition) (op : Nat) : Option Packet :=
  q.packets.find? (fun k => decide (pktOpcode k.bytes = op) && !k.started && !k.ended)

/-- Every admitted packet is refused while the cap is unreachable (R433). -/
def State.powerRefuses (s : State) : Bool := s.power.unreachable

/-! ## Admission (R411-R414) -/

/-- Keys of the shared resources: fabric port n, the Update Die and Reserve, a REQUANT_COPY destination. -/
def fabKey (n : Nat) : Nat := n
def updKey : Nat := 32
def reqKey (p h : Nat) : Nat := 64 + p * 65536 + h
/-- The code of Table 14.7. -/
def resourceCode (key : Nat) : Nat := if key < 32 then 1 else if key = 32 then 3 else 8

/-- The units a partition is guaranteed: fab_share × 16 message slots; upd_share of sixteen Update Die units
(DESIGN CHOICE, log 32: the spec counts none); one copy into a REQUANT_COPY destination. -/
def State.guarantee (s : State) (p : Part) (key : Nat) : Nat :=
  if !s.partValid p then 0
  else if key < 32 then (if s.ownsFab p key then s.fabShare p * 16 else 0)
  else if key = 32 then s.updShare p
  else 1

/-- The units of the pool: those no partition is guaranteed (Table 14.9). -/
def State.poolSize (s : State) (key : Nat) : Nat :=
  let given := allParts.foldl (fun a q => a + s.guarantee q key) 0
  if key < 32 then 256 - given else if key = 32 then 16 - given else 0

/-- Units of a partition in use on a resource, reserved or of the pool. -/
def State.unitsUsed (s : State) (p : Part) (key : Nat) (pool : Bool) : Nat :=
  ((s.part p).units.filter (fun u => decide (u.key = key ∧ u.pool = pool))).length

/-- A unit within the guarantee is free. -/
def State.ownUnitFree (s : State) (p : Part) (key : Nat) : Bool :=
  if key ≥ 64 then decide (allParts.foldl (fun a q => a + s.unitsUsed q key false) 0 = 0)
  else decide (s.unitsUsed p key false < s.guarantee p key)

/-- A pool unit is free. -/
def State.poolUnitFree (s : State) (key : Nat) : Bool :=
  decide (allParts.foldl (fun a q => a + s.unitsUsed q key true) 0 < s.poolSize key)

/-- Requests of a partition queued on a resource. -/
def State.queuedOn (s : State) (p : Part) (key : Nat) : List Nat :=
  (s.part p).queues.filterMap (fun x => if x.2 = key then some x.1 else none)

/-- Outcome of admission. -/
inductive Admit where
  | served (pool : Bool)
  | queued
  | refused (status : BitVec 8)
deriving DecidableEq, Repr

/-- R412. A request does not pass those of its own partition that wait, nor take a pool unit others wait
for. -/
def State.admission (s : State) (p : Part) (key : Nat) : Admit :=
  let mine := s.queuedOn p key
  let others := allParts.any (fun q => !(s.queuedOn q key).isEmpty)
  let blocked := if key ≥ 64 then others else !mine.isEmpty
  if s.ownUnitFree p key && !blocked then .served false
  else if s.poolUnitFree key && !others then .served true
  else if s.guarantee p key = 0 then .refused stQuota
  else if mine.length < s.queueBound p then .queued
  else .refused stQueueFull

/-- Ticks of the 100 MHz counter to a delay bucket (R407). -/
def bucketOf (ticks : Nat) : Nat :=
  if ticks = 0 then 0
  else match (upTo 14).find? (fun j => decide (ticks ≤ 100 * 2 ^ (j + 1))) with
    | some j => j + 1
    | none => 15

/-- Data rate of a fabric port mode in Gb/s (Table 11.1). -/
def modeRate (m : Nat) : Nat :=
  match m with
  | 0 => 800 | 1 => 400 | 2 => 400 | 3 => 200 | 4 => 200 | 5 => 200 | 6 => 100 | 7 => 100 | 8 => 50
  | _ => 0

/-- The delay bound B in ticks of 10 ns, rounded up (R412, Table 14.9): `ahead` bytes at rate g. A rate of 0
gives no bound. Outside the fabric ports and the Update Die the spec gives no rate: a free value (log
32). -/
def State.delayBound (s : State) (p : Part) (key ahead : Nat) : Nat :=
  if key < 32 then
    let rate := match (s.fab ⟨key % 32, Nat.mod_lt _ (by decide)⟩).mode with
      | some m => modeRate m.val
      | none => 0
    let w := s.regN .fabVcWeight
    let sum := bitsOf w 7 0 + bitsOf w 15 8 + bitsOf w 23 16 + bitsOf w 31 24
    let num := s.fabShare p * rate * 512 * bitsOf w 15 8
    if num = 0 then 2 ^ 48 else ceilDiv (ahead * 16 * 8 * 528 * sum) (num * 10)
  else if key = 32 then
    if s.updShare p = 0 then 2 ^ 48 else ceilDiv (ahead * 16) (s.updShare p * 12300)
  else Config.freeValue s.freeCount

/-- Bytes a partition has in flight on a resource, and those queued ahead. -/
def State.bytesAhead (s : State) (p : Part) (key : Nat) (bytesOf : Packet → Nat) : Nat :=
  let flight := ((s.part p).units.filter (fun u => decide (u.key = key))).foldl (fun a u => a + u.bytes) 0
  (s.queuedOn p key).foldl (fun a id => a + ((s.packet? p id).map bytesOf).getD 0) flight

/-! ## Replies (R398, R405-R407) -/

/-- The 32 bytes of a reply entry (Table 14.6). -/
def replyBytes (phase : Bool) (status : BitVec 8) (outcome why kind op seq gen detail detail2 value : Nat) : List Byte :=
  leBytes 1 (b2n phase) ++ [status] ++ leBytes 1 outcome ++ leBytes 1 why ++ leBytes 1 op ++ leBytes 1 kind ++ leBytes 2 0
    ++ leBytes 4 seq ++ leBytes 4 gen ++ leBytes 4 detail ++ leBytes 4 detail2 ++ leBytes 8 value

/-- Write one reply entry at the tail and tell the host (R385, R398). -/
def State.putReply (s : State) (p : Part) (r : Nat) (entry : Bool → List Byte) : State :=
  let i := s.regN .hifRqTail r
  let s := s.writeVa p (s.rqAddr r i) (entry (ringPhase i (s.regN .hifRqSize r))) false
  (s.setRegN .hifRqTail r 0 ((i + 1) % 2 ^ 32)).tellHost p (s.regN .hifRqBase r) (0x8000 + r)

/-- The outcome of a final reply (R406). -/
def outcomeOf (status : BitVec 8) (delayed : Bool) : Nat :=
  if (0x20 ≤ status.toNat ∧ status.toNat < 0x30) ∨ (0x50 ≤ status.toNat ∧ status.toNat < 0x60) then 2
  else if delayed then 1 else 0

/-- An interim reply (R406), written only into a free entry that is not reserved (R398). -/
def State.interimReply (s : State) (p : Part) (k : Packet) (key bound : Nat) : State :=
  if s.freeReplies p k.ring.val = 0 then s
  else s.putReply p k.ring.val (fun ph =>
    replyBytes ph stDelayed 1 (bucketOf bound + resourceCode key * 16) 1 (pktOpcode k.bytes) (pktSeq k.bytes)
      (if pktResult k.bytes = 0 then 0 else leNat (s.readVa p (pktResult k.bytes) 4))
      (if key < 32 then key else 0) 0 0)

/-- Ask for an admission unit (R412): `go` starts the request when it is served; a queued one gets its
interim reply. `bytes` is what the request moves. -/
def State.request (s : State) (p : Part) (k : Packet) (key bytes : Nat) (bytesOf : Packet → Nat)
    (go : State → State) : State :=
  match s.admission p key with
  | .served pool =>
    go (s.onPart p (fun q => { q.onPacket k.id (fun x => { x with started := true, borrowed := pool }) with
      units := q.units ++ [⟨k.id, key, pool, bytes⟩] }))
  | .queued =>
    let b := s.delayBound p key (s.bytesAhead p key bytesOf)
    let s := if key ≥ 64 then s.bumpFree else s
    let s := { s with stamps := s.stamps + 1 }
    let s := s.onPart p (fun q => { q.onPacket k.id (fun x => { x with
        queuedAt := some (s.time 4).toNat, stamp := s.stamps, delayed := true, bound := b, resource := resourceCode key
        detail := if key < 32 then key else x.detail }) with
      queues := q.queues ++ [(k.id, key)] })
    s.interimReply p k key b
  | .refused st => s.refuse p k.id st (resourceCode key) (if key < 32 then key else 0)

/-- Start the queued request `k` of a partition (R413, R414): it takes its unit, its delay is measured, and a
start beyond its bound is logged. -/
def State.startQueued (s : State) (p : Part) (k : Packet) (key bytes : Nat) (pool : Bool) : State :=
  let waited := (s.time 4).toNat - k.queuedAt.getD 0
  let s := s.onPart p (fun q => { q.onPacket k.id (fun x => { x with
      started := true, borrowed := pool, bucket := bucketOf waited }) with
    units := q.units ++ [⟨k.id, key, pool, bytes⟩]
    queues := q.queues.filter (fun x => decide (x.1 ≠ k.id)) })
  if waited > k.bound then
    s.log (surveyorSource p) 6 (f4 (pktSeq k.bytes) ++ f2 (bucketOf k.bound) ++ f2 (bucketOf waited))
  else s

/-! ## Final replies and result buffers (R405, R408, R409) -/

/-- The units of 64 bytes of a result body, each with its poison. -/
def bodyUnits (bs : List Byte) (poison : List Bool) : List (Nat × List Byte × Bool) :=
  (upTo (ceilDiv bs.length 64)).map (fun i => (i, (bs.drop (64 * i)).take 64, poison.getD i false))

/-- Where the half of a result buffer lies that the next generation takes (R408, R409). -/
def State.nextHalf (s : State) (p : Part) (k : Packet) : Nat :=
  pktResult k.bytes + 64 + (leNat (s.readVa p (pktResult k.bytes) 4) + 1) % 2 ^ 32 % 2 * pktCap k.bytes

/-- Write the body of a packet's result into the other half, once (R409). -/
def State.writeBody (s : State) (p : Part) (k : Packet) : State :=
  match k.body with
  | none => s
  | some body =>
    if pktResult k.bytes = 0 ∨ k.bodyOut = true then s
    else
      let s := (bodyUnits body k.bodyPoison).foldl (fun s u => s.writeVa p (s.nextHalf p k + 64 * u.1) u.2.1 u.2.2) s
      s.onPacket p k.id (fun x => { x with bodyOut := true })

/-- The body of a packet's result is not visible yet. -/
def State.bodyWaits (s : State) (p : Part) (k : Packet) : Bool :=
  match k.body with
  | none => false
  | some body => pktResult k.bytes ≠ 0 && s.heldWrites.any (fun h => h.claim.isNone && decide (h.part = p
      ∧ s.nextHalf p k / 64 * 64 ≤ h.va ∧ h.va < s.nextHalf p k + body.length))

/-- Write a packet's result header with the next generation, its body being visible; a packet with no result clears
pending (R409). Answers the generation the reply reports. -/
def State.finishResult (s : State) (p : Part) (k : Packet) : State × Nat :=
  let addr := pktResult k.bytes
  if addr = 0 then (s, 0)
  else
    let gen := leNat (s.readVa p addr 4)
    match k.body with
    | none => (s.setPending p addr false, gen)
    | some body =>
      let g := (gen + 1) % 2 ^ 32
      let flags := leNat (s.readVa p (addr + 12) 4)
      (s.writeVa p addr (resultHeader g (pktSeq k.bytes) body.length (flags / 2 * 2)) false, g)

/-- Write a packet's final reply and forget it (R398, R405). -/
def State.finalReply (s : State) (p : Part) (k : Packet) : State :=
  let (s, gen) := s.finishResult p k
  let st := k.status.getD stOk
  let s := s.onPart p (fun q => { q with
    packets := q.packets.filter (fun x => decide (x.id ≠ k.id))
    finished := q.finished.filter (fun x => decide (x ≠ k.id)) })
  s.putReply p k.ring.val (fun ph =>
    replyBytes ph st (outcomeOf st k.delayed) (k.bucket + k.resource * 16) (2 * b2n k.borrowed) (pktOpcode k.bytes)
      (pktSeq k.bytes) gen k.detail k.detail2 k.value)

/-- A finished packet's reply may be written: no earlier packet in work names its result buffer (R409). -/
def Partition.replyFree (q : Partition) (k : Packet) : Bool :=
  pktResult k.bytes = 0 || q.packets.all (fun x => decide (x.id ≥ k.id) || decide (pktResult x.bytes ≠ pktResult k.bytes))

/-- The finished packet whose reply comes next, in completion order (R399). -/
def State.nextReply (s : State) (p : Part) : Option Packet :=
  ((s.part p).finished.filterMap (fun id => (s.part p).packets.find? (fun k => decide (k.id = id)))).find? (fun k =>
    (s.part p).replyFree k && s.packetDone p k)

/-- PACKET_COMPLETE (R405, R409): the next completed packet gets its result body, and once that is visible its result
generation and its final reply. -/
def execPacketComplete (p : Part) (s : State) : Out :=
  .next (if s.live then
    match s.nextReply p with
    | none => s
    | some k =>
      let r := if pktResult k.bytes = 0 then [] else [(pktResult k.bytes, 16)]
      if !s.ready p r then s.ask p r
      else
        let s := s.writeBody p k
        if s.bodyWaits p k then s else (s.finalReply p k).dropHost p r
  else s)

/-- NOP_PACKET (R400): completes with value 0. -/
def execNopPacket (ring : Ring) (s : State) : Out :=
  .next (s.opcodeRow ring 0x01 (fun _ _ _ => []) (fun p s k => s.endPacket p k.id stOk))

/-- MALFORMED_PACKET (R401): nothing is executed. -/
def execMalformedPacket (ring : Ring) (s : State) : Out :=
  .next (s.packetRow ring (fun _ _ bs => malformed bs) (fun _ _ _ => []) (fun p s k => s.endPacket p k.id stMalformed))

/-- The records QUERY_STATS reads: for each handle, its record's address or none (R402). -/
def State.queryRecords (s : State) (p : Part) (bs : List Byte) : List Nat :=
  (upTo (pktParam bs 2 2)).map (fun i =>
    let h := pktParam bs 0 2 + i
    if h = 0 ∨ h ≥ 65536 then 0
    else
      let d := s.desc p h
      if d.rank = 0 then 0 else d.stats)

/-- QUERY_STATS (R402): one whole record of 64 bytes for each handle, 64 zero bytes for a handle with none; a
result larger than the buffer ends with SHAPE_OVER before any read. -/
def execQueryStats (ring : Ring) (s : State) : Out :=
  .next (s.opcodeRow ring 0x09
    (fun s p bs =>
      if pktParam bs 2 2 * 64 > (if pktResult bs = 0 then 0 else pktCap bs) then []
      else
        (upTo (pktParam bs 2 2)).map (fun i => (s.descAddr p (pktParam bs 0 2 + i), 128))
          ++ ((s.queryRecords p bs).filter (fun a => decide (a ≠ 0))).map (fun a => (a, 64)))
    (fun p s k =>
      let n := pktParam k.bytes 2 2
      if n * 64 > (if pktResult k.bytes = 0 then 0 else pktCap k.bytes) then s.endPacket p k.id stShapeOver
      else
        match (upTo n).find? (fun i => s.poisoned p (s.descAddr p (pktParam k.bytes 0 2 + i)) 128) with
        | some i =>
          (s.endPacket p k.id stPoisoned).poisonConsumed (surveyorSource p) 0 (pktSeq k.bytes)
            (s.descAddr p (pktParam k.bytes 0 2 + i))
        | none =>
          let recs := s.queryRecords p k.bytes
          s.endPacket p k.id stOk (fun x => { x with
            body := some (recs.flatMap (fun a => if a = 0 then List.replicate 64 0 else s.readVa p a 64))
            bodyPoison := recs.map (fun a => decide (a ≠ 0) && s.poisoned p a 64) })))

/-! ## Ring registers (R394, R397, R499) -/

/-- A new submission tail (R397). -/
def State.newSqTail (s : State) (ring : Ring) (value : BitVec 32) : State :=
  match s.partOfRing ring.val with
  | none => s
  | some p =>
    let head := s.regN .hifSqHead ring.val
    let ahead := ahead32 head value.toNat
    if !s.running p || decide (ahead < ahead32 head (s.regN .hifSqTail ring.val))
        || decide (ahead > s.regN .hifSqSize ring.val) then s.badDoorbell p ring.val value.toNat
    else s.setRegN .hifSqTail ring.val 0 value.toNat

/-- A new reply head (R499). -/
def State.newRqHead (s : State) (ring : Ring) (value : BitVec 32) : State :=
  match s.partOfRing ring.val with
  | none => s
  | some p =>
    let head := s.regN .hifRqHead ring.val
    if ahead32 head value.toNat > ahead32 head (s.regN .hifRqTail ring.val) then s.badDoorbell p ring.val value.toNat
    else s.setRegN .hifRqHead ring.val 0 value.toNat

/-- HIF_SQ_TAIL_WRITE (R397). -/
def execHifSqTailWrite (r : Requester) (ring : Ring) (value : BitVec 32) (s : State) : Out :=
  .next (if s.live then s.ownWrite r .hifSqTail ring.val 0 (fun s => s.newSqTail ring value) else s)

/-- HIF_RQ_HEAD_WRITE (R499). -/
def execHifRqHeadWrite (r : Requester) (ring : Ring) (value : BitVec 32) (s : State) : Out :=
  .next (if s.live then s.ownWrite r .hifRqHead ring.val 0 (fun s => s.newRqHead ring value) else s)

end Sys2Proof.Machine
end

