-- ==== Sys2Proof/Machine/Surveyor.lean ====
section
/-! DEFINITION. Surveyor's placement of tensors (R224-R236, R251-R253, R530): frames and pages, the
placement log, TENSOR_ALLOC, TENSOR_FREE and PLACE_HINT. Where the spec leaves Surveyor a choice of handle
or address, log 5 names the one taken. -/

namespace Sys2Proof.Machine

/-! ## Frames (R235, R236) -/

/-- The lowest number in `lo ..< hi` that is no key of a map whose keys rise. -/
def lowestFree : Sparse Bool → Nat → Nat → Option Nat
  | [], lo, hi => if lo < hi then some lo else none
  | (k, _) :: r, lo, hi => if k = lo then lowestFree r (lo + 1) hi else lowestFree r lo hi

/-- 2 MiB frames of a stack. -/
def stackFrames : Nat := 36864

/-- The lowest-numbered free frame of a stack (Table 8.7). -/
def State.freeHbm (s : State) (stack : Nat) : Option Nat :=
  lowestFree (s.usedHbm.filter (fun e => decide (stack * stackFrames ≤ e.1))) (stack * stackFrames) ((stack + 1) * stackFrames)

/-- The lowest-numbered free frame of a partition's Reserve share. -/
def State.freeReserve (s : State) (p : Part) : Option Nat :=
  lowestFree (s.usedReserve.filter (fun e => decide (s.reserveFirst p ≤ e.1))) (s.reserveFirst p)
    (s.reserveFirst p + s.reserveFrames p)

/-- Key of a host frame. -/
def hostKey (k : RPort) (frame : Nat) : Nat := k.val * 2 ^ 21 + frame

/-- The host frames of a partition's arena on a port: the range the host named, inside the port's window
(R262). -/
def State.arena (s : State) (p : Part) (k : RPort) : Nat × Nat :=
  let base := s.regN .survArenaBase p.val k.val
  let win := 0x100000000000 + k.val * 0x040000000000
  if s.ownsRcl p k && decide (win ≤ base) && decide (base + s.regN .survArenaSize p.val k.val ≤ win + 0x040000000000) then
    (ceilDiv (base - win) pageSize, (base - win + s.regN .survArenaSize p.val k.val) / pageSize)
  else (0, 0)

/-- The lowest free host frame of an arena. -/
def State.freeHost (s : State) (p : Part) (k : RPort) : Option Nat :=
  let a := s.arena p k
  (lowestFree (s.usedHost.filter (fun e => decide (hostKey k a.1 ≤ e.1))) (hostKey k a.1) (hostKey k a.2)).map
    (fun x => x - k.val * 2 ^ 21)

/-- Take or free a frame. -/
def State.markFrame (s : State) (t : PageTarget) (k : RPort) (frame : Nat) (used : Bool) : State :=
  match t with
  | .hbm => { s with usedHbm := Sparse.set false s.usedHbm frame used }
  | .reserve => { s with usedReserve := Sparse.set false s.usedReserve frame used }
  | .host => { s with usedHost := Sparse.set false s.usedHost (hostKey k frame) used }

/-! ## Pages -/

/-- The partitions that may read a page of a partition's shared region (R236, Table 14.2). -/
def State.readersOf (s : State) (p : Part) (page : Nat) : List Part :=
  if s.sharedBase p ≠ 0 ∧ s.sharedBase p ≤ pageVa page ∧ pageVa page < s.sharedBase p + s.sharedPages p * pageSize then
    allParts.filter (fun q => decide (q ≠ p) && bitOf (s.sharedReaders p) q.val)
  else []

/-- The readers of a page of a shared region see it where its owner does, read-only, unless they have mapped something of
their own there (R29, R236; DESIGN CHOICE, log 109: the spec gives no packet that maps a foreign page and no address for
it). -/
def State.sharePage (s : State) (p : Part) (page : Nat) : State :=
  let e := (s.part p).page page
  (s.readersOf p page).foldl (fun s q => s.onPart q (fun x =>
    if (x.page page).valid && !(x.page page).foreign then x
    else x.setPage page (if e.valid then { e with writable := false, foreign := true, migrating := false } else PageEntry.none))) s

/-- Map a page of a partition to a frame it takes, writable; the readers of a shared region see it too. -/
def State.mapPage (s : State) (p : Part) (page : Nat) (t : PageTarget) (k : RPort) (frame : Nat) : State :=
  ((s.markFrame t k frame true).onPart p (fun q => q.setPage page ⟨true, true, t, k, false, false, frame⟩)).sharePage p page

/-- Unmap a page and free its frame; a foreign one stays its owner's. -/
def State.unmapPage (s : State) (p : Part) (page : Nat) : State :=
  let e := (s.part p).page page
  if e.valid && !e.foreign then
    ((s.markFrame e.target e.port e.frame false).onPart p (fun q => q.setPage page PageEntry.none)).sharePage p page
  else s

/-- The lowest run of `n` unmapped pages from index `lo` up to `hi`. -/
def freeRun (pt : Sparse PageEntry) (n lo hi : Nat) : Option Nat :=
  let used := (pt.map Prod.fst).filter (fun k => decide (lo ≤ k))
  let start := used.foldl (fun a k => if a + n ≤ k then a else if k < a then a else k + 1) lo
  if start + n ≤ hi then some start else none

/-- The first page index small HBM allocations use, and the first of large ones (log 5). -/
def smallFirst : Nat := 64
def largeFirst : Nat := 512
/-- Page indices end. -/
def reservePages : Nat := 786432

/-- The lowest place of `len` bytes at an alignment in a page that no allocation of the page overlaps. -/
def chunkFit (chunks : List (Nat × Nat)) (base len align : Nat) : Option Nat :=
  (upTo (pageSize / align)).findSome? (fun i =>
    let a := base + i * align
    if a + len ≤ base + pageSize && chunks.all (fun c => decide (c.1 + c.2 ≤ a) || decide (a + len ≤ c.1)) then some a else none)

/-- Place a small allocation on a stack (8: in the Reserve, 9: in a host arena, the lowest with room): in the first page of its
kind with room, else in a new page (R227). Answers its address. -/
def State.allocChunk (s : State) (p : Part) (stack len align : Nat) : Option (State × Nat) :=
  let q := s.part p
  let put (s : State) (a : Nat) : State := s.onPart p (fun q => { q with chunks := q.chunks ++ [(a, len)] })
  match q.smallPages.findSome? (fun x => if x.2 = stack then chunkFit q.chunks (pageVa x.1) len align else none) with
  | some a => some (put s a, a)
  | none =>
    if stack < 8 then
      match s.freeHbm stack, freeRun q.pageTable 1 smallFirst hbmPages with
      | some f, some pg =>
        let s := (s.mapPage p pg .hbm 0 f).onPart p (fun q => { q with smallPages := q.smallPages ++ [(pg, stack)] })
        some (put s (pageVa pg), pageVa pg)
      | _, _ => none
    else if stack = 9 then
      match allRPorts.findSome? (fun k => (s.freeHost p k).map (fun f => (k, f))), freeRun q.pageTable 1 smallFirst hbmPages with
      | some (k, f), some pg =>
        let s := (s.mapPage p pg .host k f).onPart p (fun q => { q with smallPages := q.smallPages ++ [(pg, 9)] })
        some (put s (pageVa pg), pageVa pg)
      | _, _ => none
    else
      match s.freeReserve p, freeRun q.pageTable 1 hbmPages (hbmPages + reservePages) with
      | some f, some pg =>
        let s := (s.mapPage p pg .reserve 0 f).onPart p (fun q => { q with smallPages := q.smallPages ++ [(pg, 8)] })
        some (put s (pageVa pg), pageVa pg)
      | _, _ => none

/-- Free a small allocation; a page with none left is unmapped. -/
def State.freeChunk (s : State) (p : Part) (a : Nat) : State :=
  let pg := (pageIndex a).getD 0
  let s := s.onPart p (fun q => { q with chunks := q.chunks.filter (fun c => decide (c.1 ≠ a)) })
  if (s.part p).chunks.any (fun c => decide (pageIndex c.1 = some pg)) then s
  else if (s.part p).smallPages.any (fun x => decide (x.1 = pg)) then
    (s.unmapPage p pg).onPart p (fun q => { q with smallPages := q.smallPages.filter (fun x => decide (x.1 ≠ pg)) })
  else s

/-! ## The placement log (R253) -/

/-- The `where` field of Table 8.8. -/
def whereField (stackBits dies target port : Nat) : Nat := stackBits + dies * 256 + target * 4096 + port * 16384

/-- Append one entry: a full ring loses its oldest (R253). -/
def State.placeLog (s : State) (p : Part) (kind reason seq handle place pages va : Nat) : State :=
  let head := s.regN .survLogHead p.val
  let size := s.regN .survLogSize p.val
  let n := (s.part p).logSeq
  let bytes := leBytes 2 0 ++ leBytes 1 kind ++ leBytes 1 reason ++ leBytes 4 n ++ leBytes 4 (s.regN .partStep p.val)
    ++ leBytes 4 seq ++ leBytes 2 handle ++ leBytes 2 place ++ leBytes 4 pages ++ leBytes 2 0 ++ leBytes 6 va
  let s := if ahead32 (s.regN .survLogTail p.val) head ≥ size then
      s.setRegN .survLogLost p.val 0 (Nat.min (s.regN .survLogLost p.val + 1) m32) else s
  let s := s.writeVa p (s.regN .survLogBase p.val + head % size * 32) bytes false
  (s.setRegN .survLogHead p.val 0 ((head + 1) % 2 ^ 32)).onPart p (fun q => { q with logSeq := (n + 1) % 2 ^ 32 })

/-- The stack of an HBM frame. -/
def frameStack (f : Nat) : Nat := f / stackFrames

/-- A page table entry's target code (Table 8.5). -/
def PageTarget.code : PageTarget → Nat
  | .hbm => 0 | .reserve => 1 | .host => 2

/-- The `where` field of pages: the stacks and dies their HBM frames lie on, and the first page's target and
port. -/
def State.whereOf (s : State) (p : Part) (first n : Nat) : Nat :=
  let es := (upTo n).map (fun j => (s.part p).page (first + j))
  let stackBits := es.foldl (fun a e => if e.target = .hbm then a ||| 2 ^ frameStack e.frame else a) 0
  let dies := (upTo 8).foldl (fun a h => if bitOf stackBits h then a ||| 2 ^ (h / 2) else a) 0
  let e := (s.part p).page first
  whereField stackBits dies e.target.code (if e.target = .host then e.port.val else 0)

/-! ## Stack striping (Table 8.7) -/

/-- The candidate at position `h mod n`, unless a candidate holds the scale tensor's stack. -/
def pickOne (cands : List (List Nat)) (h : Nat) (scale : Option Nat) : List Nat :=
  match scale.bind (fun x => cands.find? (fun c => c.contains x)) with
  | some c => c
  | none => cands.getD (h % cands.length) []

/-- The stripe set of a hint, whether the affinity named dies outside the partition, and h0. -/
def State.stripeOf (s : State) (p : Part) (h hints footprint : Nat) (scale : Option Nat) : List Nat × Bool × Nat :=
  let dies := (upTo 4).filter (fun d => bitOf (hintAffinity hints) d)
  let mine := dies.filter (fun d => bitOf (s.dieMask p) d)
  let set := (s.stacksOf p).filter (fun x => mine.isEmpty || mine.contains (x / 2))
  let mode := if footprint < pageSize then 1 else hintStripe hints
  let set := match mode with
    | 1 => pickOne (set.map (fun x => [x])) h scale
    | 2 => pickOne (((set.map (fun x => x / 2)).eraseDups).map (fun d => set.filter (fun x => decide (x / 2 = d)))) h scale
    | _ => set
  let h0 := match scale.bind (fun x => set.findIdx? (fun y => decide (y = x))) with
    | some i => i
    | none => h % set.length
  (set, decide (dies ≠ mine), h0)

/-! ## Allocation (R530) -/

/-- Map `n` pages of a new tensor at page `first`, page j on the frame `frame j` gives. -/
def State.mapPages (s : State) (p : Part) (first : Nat) (t : PageTarget) (frame : State → Nat → Option (RPort × Nat)) :
    Nat → Option State
  | 0 => some s
  | n + 1 =>
    match State.mapPages s p first t frame n with
    | none => none
    | some s =>
      match frame s n with
      | some (k, f) => some (s.mapPage p (first + n) t k f)
      | none => none

/-- Place a tensor's bytes in a tier (1 HBM, 2 Reserve, 3 host arena): the state with its pages mapped, its
base and the pages used; none when the tier has no room. -/
def State.placeTier (s : State) (p : Part) (tier : Nat) (set : List Nat) (h0 footprint : Nat) : Option (State × Nat × Nat) :=
  let n := ceilDiv footprint pageSize
  let q := s.part p
  if footprint < pageSize then
    (s.allocChunk p (if tier = 1 then set.getD 0 0 else if tier = 2 then 8 else 9) (ceilDiv footprint 4096 * 4096) 4096).map (fun x => (x.1, x.2, 1))
  else
    let lo := if tier = 2 then hbmPages else largeFirst
    let hi := if tier = 2 then hbmPages + reservePages else hbmPages
    match freeRun q.pageTable n lo hi with
    | none => none
    | some first =>
      let frame (s : State) (j : Nat) : Option (RPort × Nat) :=
        if tier = 1 then (s.freeHbm (set.getD ((h0 + j) % set.length) 0)).map (fun f => (0, f))
        else if tier = 2 then (s.freeReserve p).map (fun f => (0, f))
        else
          let ks := allRPorts.filter (fun k => (s.freeHost p k).isSome)
          match ks.getD (j % ks.length) 0 with
          | k => (s.freeHost p k).map (fun f => (k, f))
      (s.mapPages p first (if tier = 1 then .hbm else if tier = 2 then .reserve else .host) frame n).map
        (fun s => (s, pageVa first, n))

/-- The lowest handle that names no tensor (log 5). -/
def Partition.freeHandle (q : Partition) : Option Nat :=
  lowestFree (q.tensors.map (fun e => (e.1, true))) 1 65536

/-- The stack a tensor's page 0 lies on. -/
def State.stackOfHandle (s : State) (p : Part) (h : Nat) : Option Nat :=
  match pageIndex (s.desc p h).base with
  | some i => let e := (s.part p).page i
              if e.valid && decide (e.target = .hbm) then some (frameStack e.frame) else none
  | none => none

/-- The descriptor a TENSOR_ALLOC asks for (R227, R530), without its addresses. -/
def allocDesc (h : Nat) (bs : List Byte) : Desc :=
  let control := pktParam bs 0 8
  let rank := bitsOf control 8 6
  let mx := (upTo 6).map (fun i => pktParam bs (8 + 4 * i) 4)
  let ext := (upTo 6).map (fun i => if i < rank then mx.getD i 0 else 1)
  let st := denseStrides (bitsOf control 3 0) rank mx
  { handle := h
    base := 0
    control := control % 2 ^ 48 + pktHandle bs 0 * 2 ^ 48
    ext := ext
    max := ext
    stride := (upTo 6).map (fun i => st.getD i 0)
    stats := 0
    hints := pktParam bs 32 4
    check := 0
    good := true }

/-- The shape check of TENSOR_ALLOC (R530). -/
def allocShapeBad (bs : List Byte) : Bool :=
  let rank := bitsOf (pktParam bs 0 8) 8 6
  rank = 0 || (upTo rank).any (fun i => pktParam bs (8 + 4 * i) 4 = 0 || decide (pktParam bs (8 + 4 * i) 4 > 2 ^ 31))
    || (decide (pktHandle bs 0 ≠ 0) && decide (bitsOf (pktParam bs 0 8) 11 9 ≥ rank))

/-- The tiers tried in order, and why the hint's tier is not, when it is not (Table 8.7): 4 not
offloadable. -/
def tierOrder (d : Desc) : List Nat × Option Nat :=
  match hintTier d.hints with
  | 2 => ([2, 1], none)
  | 3 => if d.offloadable then ([3, 1, 2], none) else ([1, 2], some 4)
  | _ => ([1, 2], none)

/-- Where a tensor has been placed: the tier, the state, its base and pages, and the stripe set with h0. -/
structure Placed where
  tier  : Nat
  state : State
  base  : Nat
  pages : Nat
  set   : List Nat
  h0    : Nat

/-- Place in a tier over a stripe set. -/
def State.tryTier (s : State) (p : Part) (tier : Nat) (set : List Nat) (h0 footprint : Nat) : Option Placed :=
  (s.placeTier p tier set h0 footprint).map (fun x => ⟨tier, x.1, x.2.1, x.2.2, set, h0⟩)

/-- Try tiers in order; HBM with the hinted stripe set first, then with the automatic one, `auto` (R251). -/
def State.placeFirst (s : State) (p : Part) (hinted auto : List Nat × Nat) (footprint : Nat) : List Nat → Option Placed
  | [] => none
  | t :: r =>
    match s.tryTier p t hinted.1 hinted.2 footprint with
    | some x => some x
    | none =>
      match (if t = 1 ∧ auto.1 ≠ hinted.1 then s.tryTier p t auto.1 auto.2 footprint else none) with
      | some x => some x
      | none => State.placeFirst s p hinted auto footprint r

/-- Place, write and log a new descriptor (R225, R251, R530). -/
def State.allocTensor (s : State) (p : Part) (k : Packet) (h : Nat) : State :=
  let bs := k.bytes
  let seq := pktSeq bs
  let d := allocDesc h bs
  let scale := if pktHandle bs 0 = 0 then none else s.stackOfHandle p (pktHandle bs 0)
  let (set, outside, h0) := s.stripeOf p h d.hints d.footprint scale
  let auto := s.stripeOf p h 0 d.footprint scale
  let (tiers, why) := tierOrder d
  let refused (s : State) : State :=
    (s.placeLog p 10 3 seq 0 0 (ceilDiv d.footprint pageSize) 0).refuse p k.id stQuota 7 0
  match s.placeFirst p (set, h0) (auto.1, auto.2.2) d.footprint tiers with
  | none => refused s
  | some ⟨tier, s1, base, pages, used, h0⟩ =>
    let record := if pktParam bs 36 1 % 2 = 1 then
        (s1.allocChunk p (if tier = 1 then used.getD h0 0 else (s.stacksOf p).getD 0 0) 64 64).map (fun x => (x.1, x.2))
      else some (s1, 0)
    match record with
    | none => refused s
    | some (s2, stats) =>
      let d := { d with base := base, stats := stats }
      let s2 := s2.writeVa p (s2.descAddr p h) (descBytes d) false
      let first := (pageIndex base).getD 0
      let t : Tensor :=
        { firstPage := first, pages := pages, bytes := d.footprint, base := base, record := stats, tier := tier,
          stripe := used, offset := h0, off := .resident, armed := true, leaving := false }
      let s2 := s2.onPart p (fun q => { q with tensors := Sparse.put q.tensors h t })
      let s2 := match why with
        | some r => s2.placeLog p 12 r seq h 0 pages base
        | none => if hintTier d.hints ≠ 0 ∧ hintTier d.hints < 4 ∧ tier ≠ hintTier d.hints then
            s2.placeLog p 12 1 seq h 0 pages base else s2
      let s2 := if tier = 1 ∧ used ≠ set then s2.placeLog p 12 1 seq h 0 pages base else s2
      let s2 := if outside then s2.placeLog p 12 2 seq h 0 pages base else s2
      let s2 := s2.placeLog p (if tier = 2 then 8 else 1) 0 seq h (s2.whereOf p first pages) pages base
      let s2 := match scale with
        | some x => s2.placeLog p 9 0 seq (pktHandle bs 0) (whereField (2 ^ x) (2 ^ (x / 2)) 0 0) 1 (s2.desc p (pktHandle bs 0)).base
        | none => s2
      s2.endPacket p k.id stOk (fun x => { x with value := h })

/-- TENSOR_ALLOC (R225, R530): the checks of R12 in order, then room, then the descriptor. -/
def execTensorAlloc (ring : Ring) (s : State) : Out :=
  .next (s.opcodeRow ring 0x04
    (fun s p bs => s.handleRanges p (pktHandle bs 0))
    (fun p s k =>
      let bs := k.bytes
      let scaleCheck : Checked := if pktHandle bs 0 = 0 then .ok (allocDesc 0 bs) else s.checkHandle p (pktHandle bs 0)
      match scaleCheck with
      | .fail st logDesc =>
        let s := s.endPacket p k.id st
        if logDesc then s.descCheck (surveyorSource p) (pktHandle bs 0) else s
      | .ok _ =>
        if allocShapeBad bs then s.endPacket p k.id stShapeOver
        else match (s.part p).freeHandle with
          | none => (s.placeLog p 10 3 (pktSeq bs) 0 0 0 0).refuse p k.id stQuota 7 0
          | some h => s.allocTensor p k h))

/-! ## Release (R225, R267, R277, R299) -/

/-- Every frame and page of a tensor is freed, with its record. -/
def State.dropTensor (s : State) (p : Part) (h : Nat) (t : Tensor) : State :=
  let s := if t.bytes < pageSize then s.freeChunk p t.base
    else (upTo t.pages).foldl (fun s j => s.unmapPage p (t.firstPage + j)) s
  let s := if t.record = 0 then s else s.freeChunk p t.record
  s.onPart p (fun q => { q with tensors := Sparse.erase q.tensors h })

/-- A copy into the handle runs or an UPDATE_STEP in work uses it (R277, R299). -/
def State.handleBusy (s : State) (p : Part) (h : Nat) : Bool :=
  allParts.any (fun q => (s.part q).units.any (fun u => decide (u.key = reqKey p.val h)))
    || (s.part p).update.jobs.any (fun j =>
      j.entries.any (fun e => [2, 4, 6, 8, 10, 12, 14].any (fun o => decide (field e.raw o 2 = h))))

/-- The tensor's migrations that have started. -/
def Partition.moving (q : Partition) (h : Nat) : Bool := q.migrations.any (fun m => decide (m.handle = h) && m.started)

/-- A tensor is released: its descriptor reads free, pages in flight finish first (R225, R267). -/
def State.releaseTensor (s : State) (p : Part) (h seq : Nat) : State :=
  match Sparse.find? (s.part p).tensors h with
  | none => s
  | some t =>
    let s := s.placeLog p 2 0 seq h (s.whereOf p t.firstPage t.pages) t.pages t.base
    let s := s.writeVa p (s.descAddr p h) (List.replicate 128 0) false
    -- frames set aside for migrations that will not start are free again
    let s := ((s.part p).migrations.filter (fun m => decide (m.handle = h) && !m.started && m.toHost)).foldl
      (fun s m => s.markFrame .host m.newPort m.newFrame false) s
    let s := s.onPart p (fun q => { q with
      migrations := q.migrations.filter (fun m => decide (m.handle ≠ h) || m.started)
      decided := q.decided.filter (fun x => decide (x.handle ≠ h) || x.done) })
    if (s.part p).moving h then
      s.onPart p (fun q => { q with tensors := Sparse.put q.tensors h { t with leaving := true } })
    else s.dropTensor p h t

/-- TENSOR_FREE (R225): the handle is checked; the release waits for earlier commands. -/
def execTensorFree (ring : Ring) (s : State) : Out :=
  .next (s.opcodeRow ring 0x05 (fun s p bs => s.handleRanges p (pktHandle bs 0)) (fun p s k =>
    match s.checkHandle p (pktHandle k.bytes 0) with
    | .fail st logDesc =>
      let s := s.endPacket p k.id st
      if logDesc then s.descCheck (surveyorSource p) (pktHandle k.bytes 0) else s
    | .ok _ => s))

/-- TENSOR_FREE_TAKES_EFFECT (R225). -/
def execTensorFreeTakesEffect (p : Part) (s : State) : Out :=
  .next (if s.live && s.running p then
    match (s.part p).waitingPacket 0x05 with
    | none => s
    | some k =>
      let h := pktHandle k.bytes 0
      if s.earlierDone p k.id && !s.handleBusy p h then
        match Sparse.find? (s.part p).tensors h with
        | none => s.endPacket p k.id stHandle
        | some t => if t.leaving then s.endPacket p k.id stHandle else (s.releaseTensor p h (pktSeq k.bytes)).endPacket p k.id stOk
      else s
  else s)

/-- PLACE_HINT (R229): writes the hint word. -/
def execPlaceHint (ring : Ring) (s : State) : Out :=
  .next (s.opcodeRow ring 0x06 (fun s p bs => s.handleRanges p (pktHandle bs 0)) (fun p s k =>
    match s.checkHandle p (pktHandle k.bytes 0) with
    | .fail st logDesc =>
      let s := s.endPacket p k.id st
      if logDesc then s.descCheck (surveyorSource p) (pktHandle k.bytes 0) else s
    | .ok _ =>
      (s.writeVa p (s.descAddr p (pktHandle k.bytes 0) + 120) (leBytes 4 (pktParam k.bytes 0 4)) false).endPacket p k.id stOk))

/-- A new placement log tail (R501). The event's ring field, which the spec does not state here, is a free
value (log 2). -/
def State.newLogTail (s : State) (p : Part) (value : BitVec 32) : State :=
  let tail := s.regN .survLogTail p.val
  if ahead32 tail value.toNat > ahead32 tail (s.regN .survLogHead p.val) then
    (s.badDoorbell p (Config.freeValue s.freeCount) value.toNat).bumpFree
  else s.setRegN .survLogTail p.val 0 value.toNat

/-- SURV_LOG_TAIL_WRITE (R501). -/
def execSurvLogTailWrite (p : Part) (value : BitVec 32) (s : State) : Out :=
  .next (if s.live then s.ownWrite (partReq p) .survLogTail p.val 0 (fun s => s.newLogTail p value) else s)

/-! ## What Surveyor sets up (log 5) -/

/-- Map `n` HBM pages from page `first`, one after the other over the partition's stacks. -/
def State.mapArea (s : State) (p : Part) (first n : Nat) : State :=
  (upTo n).foldl (fun s j =>
    let st := s.stacksOf p
    match s.freeHbm (st.getD (j % st.length) 0) with
    | some f => s.mapPage p (first + j) .hbm 0 f
    | none => s) s

/-- The host area of a partition: VA pages 0-15, mapped when the lock is set. -/
def State.mapHostArea (s : State) (p : Part) : State := if s.partValid p then s.mapArea p 0 16 else s

/-- Erase a byte range of a memory: it reads 0. -/
def Memory.clear (m : Memory) (a n : Nat) : Memory := m.filter (fun e => decide (e.1 < a) || decide (e.1 ≥ a + n))

/-- Write zeros over whole HBM pages. -/
def State.zeroPages (s : State) (p : Part) (first n : Nat) : State :=
  (upTo n).foldl (fun s j =>
    let a := ((s.part p).page (first + j)).frame * pageSize
    { s with hbm := Memory.clear s.hbm a pageSize,
             hbmPoison := s.hbmPoison.filter (fun e => decide (e.1 < a / 64) || decide (e.1 ≥ (a + pageSize) / 64)) }) s

/-- The descriptor table (pages 16-19), the slot table (page 20) and Gauger's source buffer (pages 21-22), mapped
and cleared at the partition's first start; SURV_DESC_BASE, SURV_SLOT_BASE and GAU_SRC_BASE say where. -/
def State.openTables (s : State) (p : Part) : State :=
  if s.regN .survDescBase p.val ≠ 0 then s
  else
    let s := s.mapArea p 16 7
    let s := s.zeroPages p 16 7
    ((s.setRegN .survDescBase p.val 0 (16 * pageSize)).setRegN .survSlotBase p.val 0 (20 * pageSize)).setRegN
      .gauSrcBase p.val 0 (21 * pageSize)

end Sys2Proof.Machine
end

