-- ==== Sys2Proof/Machine/Migrate.lean ====
section
/-! DEFINITION. Pages that move and activation offload (R237, R262-R267), phase tags (R259, R260). -/

namespace Sys2Proof.Machine

/-! ## Decisions -/

/-- Append OFFLOAD_DONE and PREFETCH_DONE entries for completions, each in the order of the starts, as the tensor stood when
it completed (R253). `fuel` bounds the entries. -/
def State.logDone (s : State) (p : Part) : Nat → State
  | 0 => s
  | fuel + 1 =>
    match (s.part p).decided with
    | [] => s
    | x :: rest =>
      if x.done then
        let s := s.onPart p (fun q => { q with decided := rest })
        State.logDone (s.placeLog p (if x.prefetch then 7 else 5) 0 x.seq x.handle x.place x.pages x.base) p fuel
      else s

/-- Change a tensor's record. -/
def State.onTensor (s : State) (p : Part) (h : Nat) (f : Tensor → Tensor) : State :=
  s.onPart p (fun q => match Sparse.find? q.tensors h with
    | some t => { q with tensors := Sparse.put q.tensors h (f t) }
    | none => q)

/-- A migration just decided. -/
def Migration.init (h page : Nat) (toHost : Bool) (k : RPort) (frame : Nat) (old : PageEntry) : Migration where
  handle := h
  page := page
  toHost := toHost
  started := false
  newFrame := frame
  newPort := k
  newTarget := if toHost then .host else .hbm
  oldFrame := old.frame
  oldTarget := old.target
  oldPort := old.port
  toRead := 0
  inFlight := 0

/-- Arena frames for `n` pages, round-robin over the arenas with room from the lowest letter (R266); none when
they do not fit (R262). -/
def State.arenaFrames (s : State) (p : Part) : Nat → Option (State × List (RPort × Nat))
  | 0 => some (s, [])
  | n + 1 =>
    match State.arenaFrames s p n with
    | none => none
    | some (s, l) =>
      let last := match l.getLast? with
        | some x => x.1.val + 1
        | none => 0
      let ks := (upTo 4).map (fun i => (⟨(last + i) % 4, Nat.mod_lt _ (by decide)⟩ : RPort))
      match ks.findSome? (fun k => (s.freeHost p k).map (fun f => (k, f))) with
      | some (k, f) => some (s.markFrame .host k f true, l ++ [(k, f)])
      | none => none

/-- A tensor that may be offloaded (R262): no page of it lies in an enabled coherent region (R377). -/
def State.offloadable (s : State) (p : Part) (h : Nat) (t : Tensor) : Bool :=
  let d := s.desc p h
  d.offloadable && decide (hintResidency d.hints ≠ 1) && decide (t.tier ≠ 2) && decide (t.bytes ≥ pageSize)
    && (upTo t.pages).all (fun j => !s.pageEnabled p (t.firstPage + j))

/-- The LAUNCH that meets the offload trigger of layer `l` (R264): in FORWARD, one of a layer above it, interpreted since the
tag was entered, before which every FORWARD launch of layer `l` has completed. -/
def Partition.offloadCause (q : Partition) (l : Nat) : Option LaunchSeen :=
  if q.phase = 1 then
    q.launches.find? (fun x => !x.past && decide (x.layer > l) && decide (x.layer ≠ 0xFFFF) &&
      q.launches.all (fun y => decide (y.id ≥ x.id) || decide (y.layer ≠ l) || decide (y.tag ≠ 1)
        || q.packets.all (fun k => decide (k.id ≠ y.id) || k.ended)))
  else none

/-- The offload trigger of layer `l` is met (R264). -/
def Partition.offloadTrigger (q : Partition) (l : Nat) : Bool := (q.offloadCause l).isSome

/-- The last migration of a tensor's decision has ended: its state follows, the decision's completion is
logged in order, and a tensor freed meanwhile is dropped (R263, R267). -/
def State.migrationEnded (s : State) (p : Part) (h : Nat) : State :=
  if (s.part p).migrations.any (fun m => decide (m.handle = h)) then s
  else match Sparse.find? (s.part p).tensors h with
    | none => s
    | some t =>
      if t.leaving then s.dropTensor p h t
      else
        let s := s.onTensor p h (fun t => { t with off := if t.off = .offloading then .host else .resident })
        let place := s.whereOf p t.firstPage t.pages
        let s := s.onPart p (fun q => { q with
          decided := updateFirst (fun x => decide (x.handle = h) && !x.done)
            (fun x => { x with done := true, place := place, pages := t.pages, base := t.base }) q.decided })
        s.logDone p (s.part p).decided.length

/-- OFFLOAD_TRIGGER (R264-R266): an armed eligible tensor's pages start moving to host frames; with no arena room it
stays and HINT_IGNORED says so. A tensor that tier 3 placed has no page to move, and is offloaded at once. -/
def execOffloadTrigger (p : Part) (h : Handle) (s : State) : Out :=
  .next (if s.live && s.running p then
    match Sparse.find? (s.part p).tensors h.toNat with
    | none => s
    | some t =>
      let d := s.desc p h.toNat
      match (s.part p).offloadCause (hintLayer d.hints) with
      | none => s
      | some x =>
        if t.armed && !t.leaving && decide (t.off = .resident) && s.offloadable p h.toNat t then
          let moving := ((upTo t.pages).map (fun j => t.firstPage + j)).filter
            (fun i => decide (((s.part p).page i).target ≠ .host))
          match s.arenaFrames p moving.length with
          | none => (s.placeLog p 12 1 x.seq h.toNat 0 t.pages t.base).onTensor p h.toNat (fun t => { t with armed := false })
          | some (s, frames) =>
            let k := match frames with
              | f :: _ => f.1
              | [] => ((s.part p).page t.firstPage).port
            let s := s.placeLog p 4 0 x.seq h.toNat (whereField 0 0 2 k.val) t.pages t.base
            let s := s.onTensor p h.toNat (fun t => { t with armed := false, off := .offloading })
            let s := s.onPart p (fun q => { q with
              decided := q.decided ++ [⟨h.toNat, false, x.seq, false, 0, 0, 0⟩]
              migrations := q.migrations ++ (moving.zip frames).map (fun y =>
                Migration.init h.toNat y.1 true y.2.1 y.2.2 (q.page y.1)) })
            s.migrationEnded p h.toNat
        else s
  else s)

/-- Start bringing a tensor back (R265): of an offload still running, pages not yet moved stay, the others
come back after they have gone. A completion that waits in line keeps its place (R253). -/
def State.prefetch (s : State) (p : Part) (h seq : Nat) (t : Tensor) : State :=
  if t.off = .offloading ∨ t.off = .host then
    let waiting := (s.part p).migrations.filter (fun m => decide (m.handle = h) && !m.started && m.toHost)
    let s := waiting.foldl (fun s m => s.markFrame .host m.newPort m.newFrame false) s
    let s := s.onPart p (fun q => { q with
      migrations := q.migrations.filter (fun m => decide (m.handle ≠ h) || m.started)
      decided := q.decided.filter (fun x => decide (x.handle ≠ h) || x.done) })
    let gone := (upTo t.pages).filter (fun j =>
      decide (((s.part p).page (t.firstPage + j)).target = .host)
        || (s.part p).migrations.any (fun m => decide (m.page = t.firstPage + j)))
    let s := s.placeLog p 6 0 seq h (s.whereOf p t.firstPage t.pages) t.pages t.base
    let s := s.onTensor p h (fun t => { t with off := .prefetching })
    let s := s.onPart p (fun q => { q with
      decided := q.decided ++ [⟨h, true, seq, false, 0, 0, 0⟩]
      migrations := q.migrations ++ gone.map (fun j =>
        Migration.init h (t.firstPage + j) false 0 0 (q.page (t.firstPage + j))) })
    s.migrationEnded p h
  else s

/-- The lead of a tensor's prefetch (R265). -/
def State.leadOf (s : State) (p : Part) (hints : Nat) : Nat :=
  if hintLead hints = 0 then s.regN .survPrefetchLead p.val else hintLead hints

/-- What the interpretation of a LAUNCH triggers (R257, R264, R265): the launch is recorded with the tag in force; in BACKWARD
the tensors of layers within their lead come back; a named operand that is not resident comes back late. -/
def State.seeLaunch (s : State) (p : Part) (id seq layer : Nat) (handles : List Nat) : State :=
  let s := s.onPart p (fun q => { q.onPacket id (fun k => { k with seen := true }) with
    launches := q.launches ++ [⟨id, seq, layer, q.phase, false⟩] })
  let s := handles.foldl (fun s h =>
    match Sparse.find? (s.part p).tensors h with
    | some t =>
      if t.off = .resident then s
      else (s.prefetch p h seq t).log (surveyorSource p) 2 (f2 h ++ f2 layer)
    | none => s) s
  if (s.part p).phase = 2 ∧ layer ≠ 0xFFFF then
    (s.part p).tensors.foldl (fun s e =>
      let d := s.desc p e.1
      if layer ≤ hintLayer d.hints + s.leadOf p d.hints then s.prefetch p e.1 seq e.2 else s) s
  else s

/-! ## Page migration (R237, R266) -/

/-- Pages in flight. -/
def Partition.flying (q : Partition) : Nat := (q.migrations.filter (fun m => m.started)).length

/-- The frame a prefetched page goes to: the lowest free one of its own stack, else of another stack of the
stripe set. -/
def State.prefetchFrame (s : State) (p : Part) (m : Migration) : Option Nat :=
  match Sparse.find? (s.part p).tensors m.handle with
  | none => none
  | some t =>
    let n := t.stripe.length
    let j := m.page - t.firstPage
    ((upTo n).map (fun i => t.stripe.getD ((t.offset + j + i) % n) 0)).findSome? (fun st => s.freeHbm st)

/-- The migration that starts next: prefetches before offloads, each in the order decided; a page whose other
migration runs waits, and so does a prefetch with no free frame (R266); a page of an enabled coherent region never moves
(R377). -/
def State.nextMigration (s : State) (p : Part) : Option Migration :=
  let q := s.part p
  let free (m : Migration) : Bool := !m.started && !s.pageEnabled p m.page && !q.migrations.any (fun x => x.started && decide (x.page = m.page))
  match q.migrations.find? (fun m => free m && !m.toHost && (s.prefetchFrame p m).isSome) with
  | some m => some m
  | none => q.migrations.find? (fun m => free m && m.toHost)

/-- Change the migration of a page that has started. -/
def State.onMigration (s : State) (p : Part) (page : Nat) (f : Migration → Migration) : State :=
  s.onPart p (fun q => { q with migrations := updateFirst (fun m => m.started && decide (m.page = page)) f q.migrations })

/-- Read further lines of a page that comes back from the host, as far as tags go; a port that carries nothing
gives poisoned lines (R371, R389). `fuel` bounds the lines. -/
def State.pumpPage (s : State) (p : Part) (page : Nat) : Nat → State
  | 0 => s
  | fuel + 1 =>
    match (s.part p).migrations.find? (fun m => m.started && decide (m.page = page)) with
    | none => s
    | some m =>
      if m.toHost || m.toRead = 0 then s
      else
        let line := 32768 - m.toRead
        let q := s.rclPort m.oldPort
        if !q.carries then
          let s := s.storeHbm (m.newFrame * pageSize + line * 64) ((upTo 64).map (fun i => (i, 0))) true
          State.pumpPage (s.onMigration p page (fun m => { m with toRead := m.toRead - 1 })) p page fuel
        else if q.reads.length < 4096 then
          let s := s.postRead m.oldPort (m.oldFrame * pageSize + line * 64) (.page p page line)
          State.pumpPage (s.onMigration p page (fun m => { m with toRead := m.toRead - 1, inFlight := m.inFlight + 1 })) p page fuel
        else s

/-- PAGE_MIGRATION_START (R237, R266): migrating is set and the copy of the frame begins; at most 64 pages of a
partition are in flight. -/
def execPageMigrationStart (p : Part) (s : State) : Out :=
  .next (if s.live && decide ((s.part p).flying < 64) then
    match s.nextMigration p with
    | none => s
    | some m =>
      let e := (s.part p).page m.page
      let f := if m.toHost then m.newFrame else (s.prefetchFrame p m).getD 0
      let s := if m.toHost then s else s.markFrame .hbm 0 f true
      let s := s.onPart p (fun q => { q.setPage m.page { e with migrating := true } with
        migrations := updateFirst (fun x => decide (x = m)) (fun x => { x with
          started := true, newFrame := f, oldFrame := e.frame, oldTarget := e.target, oldPort := e.port,
          toRead := if m.toHost then 0 else 32768 }) q.migrations })
      if m.toHost then s else s.pumpPage p m.page 4096
  else s)

/-- Lines of an HBM frame that some host owns. -/
def State.ownedLines (s : State) (frame : Nat) : List Nat :=
  ((s.filters.map (fun e => e.1 / 2)).eraseDups).filter (fun l =>
    decide (l / 32768 = frame) && !(s.owners l).isEmpty)

/-- Post every line of an HBM frame to a host frame. -/
def State.sendPage (s : State) (m : Migration) : State :=
  (upTo 32768).foldl (fun s i =>
    let (bs, poison) := s.loadHbm (m.oldFrame * pageSize + i * 64)
    s.postHost m.newPort (m.newFrame * pageSize + i * 64) (bs.zipIdx.map (fun x => (x.2, x.1))) poison true) s

/-- The new frame's entry replaces the old one, for the readers of a shared region too, and the old frame waits to be freed;
the change of place is logged (R237, R253; DEDUCED, log 110: a REMAP entry for each page). -/
def State.remapPage (s : State) (p : Part) (m : Migration) : State :=
  let e : PageEntry := ⟨true, ((s.part p).page m.page).writable, m.newTarget, m.newPort, false, false, m.newFrame⟩
  let s := (s.onPart p (fun q => { q.setPage m.page e with
    migrations := q.migrations.filter (fun x => decide (x ≠ m))
    retired := q.retired ++ [(m.page, m.oldTarget, m.oldPort.val, m.oldFrame)] })).sharePage p m.page
  let seq := match (s.part p).decided.find? (fun x => decide (x.handle = m.handle) && !x.done) with
    | some x => x.seq
    | none => 0
  s.placeLog p 11 0 seq m.handle (s.whereOf p m.page 1) 1 (pageVa m.page)

/-- PAGE_COPY_COMPLETE (R237): once the frame is copied whole, writes that had reached it before included, the entry
takes the new frame, migrating clears, and the writes held meanwhile go there. The old frame waits to be freed. -/
def execPageCopyComplete (p : Part) (page : BitVec 21) (s : State) : Out :=
  .next (if s.live then
    match (s.part p).migrations.find? (fun m => m.started && decide (m.page = page.toNat)) with
    | none => s
    | some m =>
      if m.toRead > 0 then s.pumpPage p page.toNat 4096
      else if m.inFlight > 0 || (m.toHost && s.frameWaits m.oldFrame) then s
      else
        let owned := if m.toHost then s.ownedLines m.oldFrame else []
        if !owned.isEmpty then owned.foldl (fun s l => (s.owners l).foldl (fun s k => s.sendSnoop k l false) s) s
        else
          let s := if m.toHost then s.sendPage m else s
          let s := s.remapPage p m
          (s.releasePage p page.toNat (if m.toHost then some m.oldFrame else none)).flushAll.migrationEnded p m.handle
  else s)

/-- Lines of an HBM frame that some host still holds. -/
def State.heldLines (s : State) (frame : Nat) : List Nat :=
  ((s.filters.map (fun e => e.1 / 2)).eraseDups).filter (fun l =>
    decide (l / 32768 = frame) && !(s.holders l).isEmpty)

/-- OLD_FRAME_FREE (R237): the old frame is free once nothing reached through the old entry is left: a line a
host still holds is recalled first. -/
def execOldFrameFree (p : Part) (page : BitVec 21) (s : State) : Out :=
  .next (if s.live then
    match (s.part p).retired.find? (fun r => decide (r.1 = page.toNat)) with
    | none => s
    | some r =>
      let held := if r.2.1 = .hbm then s.heldLines r.2.2.2 else []
      if !held.isEmpty then held.foldl (fun s l => (s.holders l).foldl (fun s k => s.sendSnoop k l true) s) s
      else
        let k : RPort := ⟨r.2.2.1 % 4, Nat.mod_lt _ (by decide)⟩
        (s.markFrame r.2.1 k r.2.2.2 false).onPart p (fun q => { q with retired := q.retired.erase r })
  else s)

/-! ## Phase tags (R259-R261, R263) -/

/-- The partition's tag changes; an entry into FORWARD re-arms every tensor's offload (R263). Of the launches seen, those not
complete still count as earlier ones (R264). -/
def State.enterPhase (s : State) (p : Part) (tag : Nat) : State :=
  s.onPart p (fun q =>
    if tag = 1 ∧ q.phase ≠ 1 then
      let open' (x : LaunchSeen) : Bool := q.packets.any (fun k => decide (k.id = x.id) && !k.ended)
      { q with
        phase := tag
        launches := (q.launches.filter open').map (fun x => { x with past := true })
        tensors := q.tensors.map (fun e => (e.1, { e.2 with armed := true })) }
    else { q with phase := tag })

/-- SET_PHASE (R259, R260): at once, or after a drain, the partition's later packets waiting. -/
def execSetPhase (ring : Ring) (s : State) : Out :=
  .next (s.opcodeRow ring 0x07 (fun _ _ _ => []) (fun p s k =>
    let tag := pktParam k.bytes 0 1
    if pktParam k.bytes 1 1 = 0 then (s.enterPhase p tag).endPacket p k.id stOk
    else s.onPart p (fun q => { q with drainPhase := some (k.id, tag) })))

/-- SET_PHASE_TAKES_EFFECT (R260). -/
def execSetPhaseTakesEffect (p : Part) (s : State) : Out :=
  .next (if s.live && s.running p then
    match (s.part p).drainPhase with
    | none => s
    | some (id, tag) =>
      if s.earlierDone p id then
        ((s.enterPhase p tag).onPart p (fun q => { q with drainPhase := none })).endPacket p id stOk
      else s
  else s)

end Sys2Proof.Machine
end

