-- ==== Sys2Proof/Machine/Slots.lean ====
section
/-! DEFINITION. Sequence slots and key/value pages (R268-R273). -/

namespace Sys2Proof.Machine

/-- Bytes of a pool page. -/
def poolPage : Nat := 65536
/-- Entries of a slot's page table. -/
def slotEntries : Nat := 16384

/-- The slot of a number; none when it is free. -/
def State.slot? (s : State) (p : Part) (n : Nat) : Option Slot := Sparse.find? (s.part p).slots n

/-- The address of a slot's record (R268). -/
def State.slotAddr (s : State) (p : Part) (n : Nat) : Nat := s.regN .survSlotBase p.val + 64 * (n - s.slotFirst p)

/-- Reference counts of pool pages: key of a page of a pool. -/
def poolKey (pool page : Nat) : Nat := pool * 2 ^ 24 + page

/-- Pages of a pool tensor. -/
def State.poolPages (s : State) (p : Part) (pool : Nat) : Nat := (s.desc p pool).footprint / poolPage

/-- The lowest page of a pool that nothing refers to. -/
def State.freePoolPage (s : State) (p : Part) (pool : Nat) : Option Nat :=
  (lowestFree ((((s.part p).poolRefs.filter (fun e => decide (e.1 / 2 ^ 24 = pool))).map (fun e => (e.1 % 2 ^ 24, true))))
    0 (s.poolPages p pool))

/-- Change a page's reference count. -/
def State.refPage (s : State) (p : Part) (pool page : Nat) (up : Bool) : State :=
  s.onPart p (fun q =>
    let k := poolKey pool page
    let n := Sparse.get 0 q.poolRefs k
    { q with poolRefs := Sparse.set 0 q.poolRefs k (if up then n + 1 else n - 1) })

/-- Entry `e` of a slot's page table (Table 9.6). -/
def State.slotEntry (s : State) (p : Part) (x : Slot) (e : Nat) : Nat := leNat (s.readVa p (x.table + 4 * e) 4)

/-- Write entry `e`. -/
def State.setSlotEntry (s : State) (p : Part) (x : Slot) (e v : Nat) : State := s.writeVa p (x.table + 4 * e) (leBytes 4 v) false

/-- Change a slot and the `mapped` field of its record. -/
def State.setBlocks (s : State) (p : Part) (n : Nat) (x : Slot) : State :=
  let s := s.onPart p (fun q => { q with slots := Sparse.put q.slots n x })
  s.writeVa p (s.slotAddr p n + 32) (leBytes 4 (x.blocks * x.layers)) false

/-- Map one block of a slot, all its layers at once (R269); none when the pool has too few free pages. `left`
counts the layers to map. -/
def State.mapBlock (s : State) (p : Part) (x : Slot) : Nat → Option State
  | 0 => some s
  | left + 1 =>
    match s.freePoolPage p x.pool with
    | none => none
    | some g =>
      let e := x.blocks * x.layers + (x.layers - (left + 1))
      State.mapBlock ((s.refPage p x.pool g true).setSlotEntry p x e (2 ^ 31 + g)) p x left

/-- Map blocks of a slot until `target` or its limit; a dry pool is logged once, until it serves a
block again (R271, R272). `fuel` bounds the
blocks. Answers the blocks added. -/
def State.mapBlocks (s : State) (p : Part) (n target : Nat) : Nat → State × Nat
  | 0 => (s, 0)
  | fuel + 1 =>
    match s.slot? p n with
    | none => (s, 0)
    | some x =>
      if x.blocks ≥ Nat.min target (slotEntries / x.layers) then (s, 0)
      else match s.mapBlock p x x.layers with
        | some s =>
          let s := (s.setBlocks p n { x with blocks := x.blocks + 1 }).onPart p (fun q =>
            { q with poolDry := q.poolDry.filter (fun h => decide (h ≠ x.pool)) })
          let r := State.mapBlocks s p n target fuel
          (r.1, r.2 + 1)
        | none =>
          if (s.part p).poolDry.contains x.pool then (s, 0)
          else ((s.log (surveyorSource p) 4 (f4 n)).onPart p (fun q => { q with poolDry := q.poolDry ++ [x.pool] }), 0)

/-- Map a slot's wanted blocks and signal mapped_obj by the entries added; a slot that wants more than its
limit is logged once (R269, R271). -/
def State.growSlot (s : State) (p : Part) (n target : Nat) : State :=
  match s.slot? p n with
  | none => s
  | some x =>
    let target := Nat.max target x.wanted
    let limit := slotEntries / x.layers
    let past := decide (target > limit) && !x.fullLogged
    let s := s.onPart p (fun q => { q with slots := Sparse.put q.slots n { x with
      wanted := target, fullLogged := x.fullLogged || past } })
    let s := if past then s.log (surveyorSource p) 3 (f4 n) else s
    let (s, added) := s.mapBlocks p n target slotEntries
    if added = 0 then s else s.signalObj x.obj (added * x.layers) (firmwareSource 0)

/-- The blocks a slot wants by its tokens (R271). -/
def State.slotTarget (s : State) (p : Part) (n : Nat) (x : Slot) : Nat :=
  ceilDiv (leNat (s.readVa p (s.slotAddr p n + 36) 4)) x.perPage + x.ahead

/-- Grow every open slot in ascending order. -/
def State.growSlots (s : State) (p : Part) : State :=
  (s.part p).slots.foldl (fun s e => s.growSlot p e.1 (s.slotTarget p e.1 e.2)) s

/-- The record of a slot as it opens (Table 9.5). -/
def slotRecord (bs : List Byte) (x : Slot) (shared : Nat) : List Byte :=
  [1, 0, 0, 0] ++ leBytes 4 (pktSeq bs) ++ leBytes 6 x.table ++ List.replicate 6 0 ++ leBytes 2 shared
    ++ leBytes 2 x.ahead ++ leBytes 2 x.perPage ++ leBytes 2 x.layers ++ leBytes 2 x.pool ++ leBytes 2 x.obj.toNat
    ++ leBytes 4 0 ++ leBytes 4 0 ++ leBytes 8 (pktParam bs 0 8) ++ List.replicate 16 0

/-- Copy the shared blocks of a parent with `shared` set, counting each page once more (R270). -/
def State.shareBlocks (s : State) (p : Part) (n : Nat) (x parent : Slot) (shared : Nat) : State :=
  let k := shared * x.layers
  let s := (upTo k).foldl (fun s e =>
    let v := s.slotEntry p parent e % 2 ^ 24
    (s.refPage p x.pool v true).setSlotEntry p x e (2 ^ 31 + 2 ^ 30 + v)) s
  let s := s.setBlocks p n { x with blocks := shared }
  if k = 0 then s else s.signalObj x.obj k (firmwareSource 0)

/-- The lowest free slot of a partition's range (R270). -/
def State.freeSlot (s : State) (p : Part) : Option Nat :=
  lowestFree ((((s.part p).slots.filter (fun e => decide (s.slotFirst p ≤ e.1)))).map (fun e => (e.1, true))) (s.slotFirst p)
    (s.slotFirst p + s.slotCount p)

/-- A named parent is open with enough blocks; with no shared block none is needed (R270). -/
def State.parentOk (s : State) (p : Part) (parent shared : Nat) : Bool :=
  shared = 0 || (match s.slot? p parent with
    | some y => decide (shared ≤ y.blocks)
    | none => false)

/-- Take 64 KiB of the partition's HBM for a slot's page table: from the first of its stacks that has room (R268). -/
def State.allocTable (s : State) (p : Part) : Option (State × Nat) :=
  (s.stacksOf p).findSome? (fun st => s.allocChunk p st poolPage poolPage)

/-- SLOT_OPEN (R12, R270): a free slot and room for its page table, then the handle and the parent. -/
def execSlotOpen (ring : Ring) (s : State) : Out :=
  .next (s.opcodeRow ring 0x18 (fun s p bs => s.handleRanges p (pktHandle bs 0)) (fun p s k =>
    let bs := k.bytes
    match s.freeSlot p, s.allocTable p with
    | none, _ => s.refuse p k.id stQuota 6 0
    | some _, none => s.refuse p k.id stQuota 7 0
    | some n, some (s1, table) =>
      let obj : SyncObj := BitVec.ofNat 15 (pktParam bs 17 2)
      let shared := pktParam bs 13 2
      let layers := pktParam bs 8 2
      match s.checkHandle p (pktHandle bs 0) with
      | .fail st logDesc =>
        let s := s.endPacket p k.id st
        if logDesc then s.descCheck (surveyorSource p) (pktHandle bs 0) else s
      | .ok _ =>
        if !s.ownsSync p obj || !s.parentOk p (pktParam bs 15 2) shared || decide (shared * layers > slotEntries) then
          s.endPacket p k.id stHandle
        else
          let x : Slot := ⟨pktHandle bs 0, layers, pktParam bs 10 2, pktParam bs 12 1, obj, 0, shared + pktParam bs 12 1, table, false⟩
          let s := s1.sendSync ⟨obj, .reset 0, none, firmwareSource 0⟩
          let s := s.writeVa p table (List.replicate poolPage 0) false
          let s := s.writeVa p (s.slotAddr p n) (slotRecord bs x shared) false
          let s := s.onPart p (fun q => { q with slots := Sparse.put q.slots n x })
          let s := match s.slot? p (pktParam bs 15 2) with
            | some y => if shared = 0 then s else s.shareBlocks p n x y shared
            | none => s
          (s.growSlot p n x.wanted).endPacket p k.id stOk (fun k => { k with value := n })))

/-- SLOT_CLOSE (R273): the slot must be open; the close waits for earlier commands. -/
def execSlotClose (ring : Ring) (s : State) : Out :=
  .next (s.opcodeRow ring 0x19 (fun _ _ _ => []) (fun p s k =>
    match s.slot? p (pktParam k.bytes 0 2) with
    | none => s.endPacket p k.id stHandle
    | some _ => s))

/-- Close a slot: every entry's valid bit clears, its pages' counts fall, and the slot is free (R273). -/
def State.closeSlot (s : State) (p : Part) (n : Nat) (x : Slot) : State :=
  let s := (upTo (x.blocks * x.layers)).foldl (fun s e =>
    let v := s.slotEntry p x e
    (s.refPage p x.pool (v % 2 ^ 24) false).setSlotEntry p x e (v % 2 ^ 31)) s
  let s := s.writeVa p (s.slotAddr p n) [0] false
  let s := s.onPart p (fun q => { q with slots := Sparse.erase q.slots n })
  s.freeChunk p x.table

/-- SLOT_CLOSE_TAKES_EFFECT (R272, R273): freed pages let waiting slots grow. -/
def execSlotCloseTakesEffect (p : Part) (s : State) : Out :=
  .next (if s.live && s.running p then
    match (s.part p).waitingPacket 0x19 with
    | none => s
    | some k =>
      if s.earlierDone p k.id then
        match s.slot? p (pktParam k.bytes 0 2) with
        | none => s.endPacket p k.id stHandle
        | some x => ((s.closeSlot p (pktParam k.bytes 0 2) x).growSlots p).endPacket p k.id stOk
      else s
  else s)

/-- KV_GROW_SIGNAL (R271): Surveyor answers one signal of the growth object. -/
def execKvGrowSignal (p : Part) (s : State) : Out :=
  .next (if s.live && s.running p && decide ((s.part p).growSignals > 0) then
    (s.onPart p (fun q => { q with growSignals := q.growSignals - 1 })).growSlots p
  else s)

end Sys2Proof.Machine
end

