-- ==== Sys2Proof/Machine/Launch.lean ====
section
/-! DEFINITION. Grids and contexts: LAUNCH (R168, R169, R248-R251, R403), END (R169), PREEMPT and RESUME
(R170), stop units and dumps (R222, R223). -/

namespace Sys2Proof.Machine

/-! ## Where a grid goes (R251) -/

/-- The stack that page `j` of a tensor belongs to: for one that HBM was given to, where its stripe set puts the page, also
while the page is away in host memory, since no decision depends on how far an offload has come (R252; DEDUCED, log 113);
for a descriptor that Surveyor did not write, the stack of the page's frame. -/
def State.homeStack (s : State) (p : Part) (h j va : Nat) : Option Nat :=
  match Sparse.find? (s.part p).tensors h with
  | some t => if t.tier = 1 then some (t.stripe.getD ((t.offset + j) % t.stripe.length) 0) else none
  | none =>
    match s.place p va with
    | .hbm f => some (frameStack (f / pageSize))
    | _ => none

/-- Bytes of a tensor on each die. -/
def State.bytesOnDie (s : State) (p : Part) (h d : Nat) : Nat :=
  let x := s.desc p h
  let n := x.footprint
  let first := x.base / pageSize * pageSize
  (upTo (ceilDiv (x.base % pageSize + n) pageSize)).foldl (fun a j =>
    if (s.homeStack p h j (first + j * pageSize)).map (fun k => k / 2) = some d then
      a + Nat.min pageSize (n - j * pageSize) else a) 0

/-- The dies a grid may run on: that with the most bytes of the named operands, ties to the lower, then the others in
ascending order. -/
def State.gridOrder (s : State) (p : Part) (handles : List Nat) : List Nat :=
  let dies := (s.diesOf p).map (fun d => d.val)
  let score (d : Nat) : Nat := handles.foldl (fun a h => a + s.bytesOnDie p h d) 0
  let best := dies.foldl (fun (b : Option Nat) d => match b with
    | none => some d
    | some x => if score d > score x then some d else some x) none
  match best with
  | none => []
  | some b => b :: dies.filter (fun d => decide (d ≠ b))

/-- The grid's dies: as many, in that order, as its threads need at `allot` to a core, whatever runs there (R251, R252). -/
def State.gridDies (s : State) (p : Part) (handles : List Nat) (threads allot : Nat) : List Nat :=
  (s.gridOrder p handles).take (Nat.max 1 (ceilDiv threads (80 * allot)))

/-! ## Starting threads (R168, R169, R403) -/

/-- Fields of a LAUNCH (Table 14.5). -/
def launchT (bs : List Byte) : Nat := 2 ^ (pktParam bs 12 1 % 8)
def launchBank (bs : List Byte) : Bool := bitOf (pktParam bs 13 1) 0
def launchTiled (bs : List Byte) : Bool := bitOf (pktParam bs 13 1) 1
def launchChained (bs : List Byte) : Bool := bitOf (pktParam bs 13 1) 2
def launchLayer (bs : List Byte) : Nat := pktParam bs 24 2
def launchHandles (bs : List Byte) : List Nat := ((upTo 4).map (pktHandle bs)).filter (fun h => decide (h ≠ 0))

/-- A stream at the start of a context. -/
def StreamState.start (entry : Nat) : StreamState := { StreamState.init with pc := entry }

/-- A context as a launch starts it (R169): entry points, p0 alone true, the numeric control word, parameter
registers 0-14 from the block and 15 the thread's number. Its scalar registers keep their values. -/
def Context.launch (c : Context) (bs pblock : List Byte) (id j : Nat) : Context :=
  { c with
    run := .running
    halt := none
    preempt := none
    bank := launchBank bs
    preds := 1
    ncw := BitVec.ofNat 16 (pktParam bs 22 2)
    params := (upTo 15).foldl (fun m i => Sparse.set 0 m i (BitVec.ofNat 64 (field pblock (8 * i) 8)))
      (Sparse.set 0 [] 15 (BitVec.ofNat 64 j))
    scalar := StreamState.start (pktParam bs 20 2)
    vector := StreamState.start (pktParam bs 18 2)
    matrix := StreamState.start (pktParam bs 16 2)
    move := StreamState.start (pktParam bs 14 2)
    grid := some id }

/-- A core with no running context takes the launch's allotment (R168). -/
def Core.allot (c : Core) (t : Nat) : Core :=
  if c.contexts.any (fun e => decide (e.2.run ≠ .free)) then c else { c with allotment := t }

/-- Free contexts of a core below its allotment. -/
def Core.freeContexts (c : Core) : List Nat := (upTo c.allotment).filter (fun i => decide ((c.context i).run = .free))

/-- The cores of a grid in order. -/
def gridCores (dies : List Nat) : List CoreId := dies.flatMap (fun d => (upTo 80).map (fun n => BitVec.ofNat 9 (d * 128 + n)))

/-- The contexts the next `n` threads take, core by core in increasing number, the lowest free ones. -/
def State.planThreads (s : State) (cores : List CoreId) (n : Nat) : List (CoreId × Nat) :=
  (cores.foldl (fun (a : List (CoreId × Nat) × Nat) c =>
    let mine := ((s.core c).freeContexts).take (n - a.2)
    (a.1 ++ mine.map (fun i => (c, i)), a.2 + mine.length)) ([], 0)).1

/-- Load a launch's image on a core (R220). -/
def State.loadImage (s : State) (k : Packet) (c : CoreId) : State × Option Nat :=
  s.writeBlocks c (if launchBank k.bytes then 8192 else 0) (blocksOf k.code)

/-- A STEP_END the partition posted before a packet has not taken effect (R141). -/
def Partition.stepEndBefore (q : Partition) (id : Nat) : Bool :=
  q.packets.any (fun k => decide (k.id < id) && decide (pktOpcode k.bytes = 0x08) && !k.ended)

/-- Start what threads of a LAUNCH can start (R403): a dropped block of the image ends the LAUNCH with ABANDONED
and the block's index, with no further thread. -/
def State.placeThreads (s : State) (p : Part) (k : Packet) : State :=
  let cores := gridCores k.dies
  let s := cores.foldl (fun s c => s.putCore c (fun x => x.allot (launchT k.bytes))) s
  let plan := s.planThreads cores (launchThreads k.bytes - k.placed)
  let fresh := ((plan.map Prod.fst).eraseDups).filter (fun c => !k.loaded.contains c.toNat)
  let (s, drop) := fresh.foldl (fun (a : State × Option Nat) c =>
    if k.code.isEmpty || a.2.isSome then a else a.1.loadImage k c) (s, none)
  match drop with
  | some i =>
    if k.alive = 0 then s.endPacket p k.id stAbandoned (fun x => { x with detail := if x.status.isNone then i else x.detail })
    else s.onPacket p k.id (fun x => { x with
      placed := launchThreads x.bytes
      status := some (x.status.getD stAbandoned), detail := if x.status.isNone then i else x.detail })
  | none =>
    let s := plan.zipIdx.foldl (fun s x =>
      s.putCore x.1.1 (fun c => c.setContext x.1.2 ((c.context x.1.2).launch k.bytes k.pblock k.id (k.placed + x.2)))) s
    (s.onPacket p k.id (fun x => { x with
      placed := x.placed + plan.length, alive := x.alive + plan.length
      loaded := x.loaded ++ fresh.map (fun c => c.toNat) })).trimNest p k.id

/-- Grids that wait for contexts go on (R403); none starts before an earlier STEP_END has taken effect. -/
def State.startWaiting (s : State) (p : Part) : State :=
  ((s.part p).packets.map (fun k => k.id)).foldl (fun s id =>
    match s.packet? p id with
    | none => s
    | some k =>
      if pktOpcode k.bytes = 0x02 ∧ k.started = true ∧ k.ended = false ∧ k.placed < launchThreads k.bytes
          ∧ (s.part p).stepEndBefore id = false then s.placeThreads p k else s) s

/-! ## Explicit tiling (R249, R250) -/

/-- A level of a tiling plan: tM, tN, tK and the order code, level l at byte 16 l of the plan (DESIGN CHOICE,
log 33). -/
def planLevel (plan : List Byte) (l : Nat) : List Nat := (upTo 4).map (fun i => field plan (16 * l + 4 * i) 4)

/-- A plan is refused (R250), for operands A and B of these formats. -/
def planBad (plan : List Byte) (fa fb : Nat) : Bool :=
  let hbm := planLevel plan 0
  let dc := planLevel plan 1
  let sp := planLevel plan 2
  let g (l : List Nat) (i : Nat) : Nat := l.getD i 0
  let bytes (f n : Nat) : Nat := ceilDiv (n * fmtBits f) 8
  let p := tileUnits fa
  let q := tileUnits fb
  [hbm, dc, sp].any (fun l => decide (g l 3 > 5) || (upTo 3).any (fun i => g l i = 0))
    || (upTo 3).any (fun i => decide (g hbm i % g dc i ≠ 0) || decide (g dc i % g sp i ≠ 0))
    || decide (bytes fa (g dc 0 * g dc 2) + bytes fb (g dc 2 * g dc 1) > 80 * 2 ^ 20)
    || decide (g sp 0 > 288) || decide (g sp 1 > 144 / q) || decide (g sp 2 > 8 * (144 / p))

/-! ## LAUNCH -/

/-- The memory a LAUNCH reads: operands' descriptors, the image, the parameter block, the chained put's
descriptor. -/
def State.launchRanges (s : State) (p : Part) (bs : List Byte) : List (Nat × Nat) :=
  (launchHandles bs).flatMap (fun h => s.handleRanges p h)
    ++ (if launchChained bs then s.handleRanges p (field (pktCont bs (pktNeeds bs - 1)) 16 2) else [])
    ++ (if pktParam bs 34 6 = 0 then [] else [(pktParam bs 34 6, pktParam bs 32 2 * 32)])
    ++ (if pktParam bs 26 6 = 0 then [] else [(pktParam bs 26 6, 120)])

/-- The first handle of a list that fails its check (R12, R231). -/
def State.firstBad (s : State) (p : Part) (hs : List Nat) : Option (Nat × BitVec 8 × Bool) :=
  hs.findSome? (fun h => match s.checkHandle p h with
    | .fail st d => some (h, st, d)
    | .ok _ => none)

/-- End a packet on a failed handle. -/
def State.failHandle (s : State) (p : Part) (k : Packet) (h : Nat) (st : BitVec 8) (logDesc : Bool) : State :=
  let s := s.endPacket p k.id st
  let s := if logDesc then s.descCheck (surveyorSource p) h else s
  if st = stPoisoned then s.poisonConsumed (surveyorSource p) 0 (pktSeq k.bytes) (s.descAddr p h) else s

/-- Bytes of a range with each one's poison. -/
def State.readMarked (s : State) (p : Part) (va n : Nat) : List (Byte × Bool) :=
  ((linesOf va n).flatMap (fun l => (s.readLine p l).1.map (fun b => (b, (s.readLine p l).2)))).drop (va % 64) |>.take n

/-- The nest of an explicitly tiled LAUNCH on its dies, over the shape of its operands: M and K are A's dimensions 1 and 0,
N is B's dimension 0 (R249). -/
def launchNest (bs : List Byte) (a b : Desc) (dies : List Nat) : List NestTile :=
  if launchTiled bs then
    let plan := pktCont bs 0
    buildNest (planLevel plan 0) (planLevel plan 1) (planLevel plan 2) [(0, a.extent 1), (0, b.extent 0), (0, a.extent 0)]
      dies (launchThreads bs) (launchT bs)
  else []

/-- Surveyor acts on a LAUNCH when it interprets it, once (R257). -/
def State.noteLaunch (s : State) (p : Part) (id : Nat) : State :=
  match s.packet? p id with
  | none => s
  | some k => if k.seen then s else s.seeLaunch p id (pktSeq k.bytes) (launchLayer k.bytes) (launchHandles k.bytes)

/-- An admitted LAUNCH begins (R403): its checks, Surveyor's choice of dies, its triggers, its threads. -/
def State.beginLaunch (s : State) (p : Part) (k : Packet) : State :=
  let bs := k.bytes
  let hs := launchHandles bs ++ (if launchChained bs then [field (pktCont bs (pktNeeds bs - 1)) 16 2] else [])
  let codeAt := pktParam bs 34 6
  let codeLen := pktParam bs 32 2 * 32
  let blockAt := pktParam bs 26 6
  let a := s.desc p (pktHandle bs 0)
  let b := s.desc p (pktHandle bs 1)
  match s.firstBad p hs with
  | some (h, st, d) => s.failHandle p k h st d
  | none =>
    if (codeAt ≠ 0 && !s.mapped p codeAt codeLen) || (blockAt ≠ 0 && !s.mapped p blockAt 120)
        || (launchTiled bs && (pktHandle bs 0 = 0 || pktHandle bs 1 = 0)) then s.endPacket p k.id stHandle
    else if blockAt ≠ 0 && s.poisoned p blockAt 120 then
      (s.endPacket p k.id stPoisoned).poisonConsumed (surveyorSource p) 0 (pktSeq bs) blockAt
    else if launchTiled bs && planBad (pktCont bs 0) a.fmt b.fmt then s.endPacket p k.id stShapeOver
    else if launchTiled bs && (a.extent 1 = 0 || b.extent 0 = 0) then s.endPacket p k.id stEmpty
    else
      let dies := s.gridDies p (launchHandles bs) (launchThreads bs) (launchT bs)
      let code := if codeAt = 0 then [] else s.readMarked p codeAt codeLen
      let block := if blockAt = 0 then [] else s.readVa p blockAt 120
      let s := s.onPacket p k.id (fun x => { x with 
        started := true, dies := dies, code := code, pblock := block, nest := launchNest bs a b dies })
      let s := s.placeLog p 3 0 (pktSeq bs) 0 (whereField 0 (dies.foldl (fun m d => m + 2 ^ d) 0) 0 0) 0 0
      let s := s.noteLaunch p k.id
      if (s.part p).stepEndBefore k.id then s
      else match s.packet? p k.id with
        | some x => s.placeThreads p x
        | none => s

/-- LAUNCH (R403): refused while the cap is unreachable (R433); a chained put asks for its message slot with
it, and while it waits for that Surveyor has already recorded the launch and acted on it (R257). -/
def execLaunch (ring : Ring) (s : State) : Out :=
  .next (s.opcodeRow ring 0x02 (fun s p bs => s.launchRanges p bs) (fun p s k =>
    if s.powerRefuses then s.refuse p k.id stPower 5 0
    else if launchChained k.bytes then
      let c := pktCont k.bytes (pktNeeds k.bytes - 1)
      if !s.ownsFab p (field c 24 1) then s.refuse p k.id stQuota 1 (field c 24 1)
      else
        let s := s.request p k (fabKey (field c 24 1)) (messageBytes k) messageBytes (fun s => s.beginLaunch p k)
        if (s.part p).queues.any (fun x => decide (x.1 = k.id)) then s.noteLaunch p k.id else s
    else s.beginLaunch p k))

/-! ## END -/

/-- END (R169): the stream retires its END and fetches no more; after the fourth the context is done, and a
grid that waits for contexts goes on. -/
def execEndStream (t : Thread) (st : Stream) (s : State) : Out :=
  onThread t s (fun s =>
    match s.issuable t st 0x01 with
    | none => s
    | some (q, cmd) =>
      let bad := s.signalBad t cmd
      let s := s.issueDone t st q cmd (if bad then stHandle else stOk)
      let r := { s.running0 t st q cmd with ended := true, status := if bad then stHandle else stOk }
      let s := s.complete t st r
      let x := s.stream t st
      ((s.setStream t st { x with ended := true }).checkDone t).startWaiting (s.threadPart t))

/-! ## Pre-emption (R170) -/

/-- The threads a PREEMPT or RESUME names; none when one lies outside the partition. -/
def State.namedThreads (s : State) (p : Part) (bs : List Byte) : Option (List Thread) :=
  let first := pktParam bs 0 2
  let n := pktParam bs 2 2
  if first + n > 0x8000 then none
  else
    let ts : List Thread := (upTo n).map (fun i => BitVec.ofNat 15 (first + i))
    if ts.all (fun t => coreExists (threadCore t) && decide (s.partOfCore (threadCore t) = some p)) then some ts else none

/-- A context a PREEMPT affects: in use, and not halted by an earlier PREEMPT. -/
def Context.preemptible (c : Context) : Bool :=
  decide (c.run ≠ .free) && !(match c.halt with
    | some h => decide (h.reason = 2)
    | none => false)

/-- PREEMPT of either action: the named contexts issue no further command; the reply waits until all are
halted or freed. A context that a stop unit holds is pre-empted when it is resumed (R222): the reply waits for that and
counts it (DESIGN CHOICE, log 108: the spec leaves open whether a context already halted so counts). -/
def State.preemptPacket (s : State) (p : Part) (k : Packet) (ends : Bool) : State :=
  match s.namedThreads p k.bytes with
  | none => s.endPacket p k.id stHandle
  | some ts =>
    let hit := ts.filter (fun t => (s.context t).preemptible)
    if hit.isEmpty then s.endPacket p k.id stOk
    else
      let s := hit.foldl (fun s t =>
        let c := s.context t
        s.setContext t { c with preempt := some (k.id, ends || (match c.preempt with
          | some x => x.2
          | none => false)) }) s
      s.onPacket p k.id (fun x => { x with started := true, pending := hit.map (fun t => t.toNat) })

/-- A PREEMPT packet of an action. -/
def isPreempt (ends : Bool) (bs : List Byte) : Bool := isPacket 0x0A bs && bitOf (pktParam bs 4 1) 0 == ends

/-- PREEMPT_HALT (R170). -/
def execPreemptHalt (ring : Ring) (s : State) : Out :=
  .next (s.packetRow ring (fun _ _ bs => isPreempt false bs) (fun _ _ _ => []) (fun p s k => s.preemptPacket p k false))

/-- PREEMPT_END (R170). -/
def execPreemptEnd (ring : Ring) (s : State) : Out :=
  .next (s.packetRow ring (fun _ _ bs => isPreempt true bs) (fun _ _ _ => []) (fun p s k => s.preemptPacket p k true))

/-- The PREEMPT packets that wait for a thread hear of it; one that waits for no more ends (R170). -/
def State.preemptHeard (s : State) (p : Part) (t : Thread) : State :=
  let ids := ((s.part p).packets.filter (fun k => decide (pktOpcode k.bytes = 0x0A) && k.pending.contains t.toNat)).map (fun k => k.id)
  ids.foldl (fun s id =>
    let s := s.onPacket p id (fun k => { k with pending := k.pending.filter (fun x => decide (x ≠ t.toNat)), value := k.value + 1 })
    match s.packet? p id with
    | some k => if k.pending.isEmpty && !k.ended then s.endPacket p id stOk else s
    | none => s) s

/-- CONTEXT_HALTED (R170): nothing of the context is in flight; it is halted in place, or freed with its LAUNCH
PREEMPTED. -/
def execContextHalted (t : Thread) (s : State) : Out :=
  onThread t s (fun s =>
    let c := s.context t
    match c.preempt with
    | none => s
    | some (_, ends) =>
      if !s.live || c.halt.isSome || c.busy then s
      else
        let p := s.threadPart t
        let s :=
          if ends then (s.threadFault t stPreempted (c.matrix.count).toNat 0).freeCtx t
          else (s.setContext t { c with preempt := none }).haltCtx t ⟨2, none, .scalar, 0, true⟩
        (s.preemptHeard p t).startWaiting p)

/-- RESUME (R170): contexts that a PREEMPT halted go on. -/
def execResume (ring : Ring) (s : State) : Out :=
  .next (s.opcodeRow ring 0x0B (fun _ _ _ => []) (fun p s k =>
    match s.namedThreads p k.bytes with
    | none => s.endPacket p k.id stHandle
    | some ts =>
      let hit := ts.filter (fun t => match (s.context t).halt with
        | some h => decide (h.reason = 2)
        | none => false)
      let s := hit.foldl (fun s t => s.setContext t { s.context t with halt := none }) s
      s.endPacket p k.id stOk (fun x => { x with value := hit.length })))

/-! ## Stop units (R222, R223, R514) -/

/-- The thread and stream a stop control word names. -/
def stopThread (ctrl : Nat) : Thread := BitVec.ofNat 15 (bitsOf ctrl 14 0)
def stopStream (ctrl : Nat) : Stream := streamOf (bitsOf ctrl 17 16)

/-- The partition of a thread a stop word names. -/
def State.stopPart (s : State) (ctrl : Nat) : Option Part :=
  if coreExists (threadCore (stopThread ctrl)) then s.partOfCore (threadCore (stopThread ctrl)) else none

/-- A partition may write a stop unit: it is not enabled, or the partition enabled it (R514). -/
def State.stopWritable (s : State) (p : Part) (u : Fin 16) : Bool :=
  let c := s.regN .dbgStopCtrl u.val
  !bitOf c 31 || decide (s.stopPart c = some p)

/-- Write a stop unit's control (R222, R514): a thread outside the writer's partition, or a unit another
partition enabled, drops it; arming a unit whose count is already reached halts the thread at once. -/
def State.writeStopCtrl (s : State) (p : Part) (u : Fin 16) (value : Nat) : State :=
  let off := mmioAddr (RegName.dbgStopCtrl.offset u.val 0)
  if !s.stopWritable p u || decide (s.stopPart value ≠ some p) then s.accessDropped p.val 0 off
  else
    let s := s.setRegN .dbgStopCtrl u.val 0 (RegName.dbgStopCtrl.row.written 0 value)
    let t := stopThread value
    let n := s.regN .dbgStopCount u.val
    if bitOf value 31 && decide ((s.context t).run ≠ .free) && decide ((s.stream t (stopStream value)).count.toNat ≥ n) then
      s.haltCtx t ⟨0, some u, stopStream value, BitVec.ofNat 32 n, false⟩
    else s

/-- DBG_STOP_ARM (R222). -/
def execDbgStopArm (p : Part) (unit : Fin 16) (ctrl : BitVec 32) (s : State) : Out :=
  .next (if s.live then s.ownWrite (partReq p) .dbgStopCtrl unit.val 0 (fun s => s.writeStopCtrl p unit ctrl.toNat) else s)

/-- A unit's thread is halted, by a stop unit or an illegal command (Table 18.22). -/
def State.stopHalted (s : State) (u : Fin 16) : Bool :=
  match (s.context (stopThread (s.regN .dbgStopCtrl u.val))).halt with
  | some h => decide (h.reason < 2)
  | none => false

/-- Resume a unit's halted thread; it has no effect while the thread is not halted (R223, R514). -/
def State.resumeStop (s : State) (p : Part) (u : Fin 16) : State :=
  if !s.stopWritable p u then s.accessDropped p.val 0 (mmioAddr (RegName.dbgStopResume.offset u.val 0))
  else if s.stopHalted u && decide (s.stopPart (s.regN .dbgStopCtrl u.val) = some p) then
    let t := stopThread (s.regN .dbgStopCtrl u.val)
    s.setContext t { s.context t with halt := none }
  else s

/-- DBG_STOP_RESUME (R223). -/
def execDbgStopResume (p : Part) (unit : Fin 16) (s : State) : Out :=
  .next (if s.live then s.ownWrite (partReq p) .dbgStopResume unit.val 0 (fun s => s.resumeStop p unit) else s)

/-- A stream's program counter in a dump: its next command to issue. -/
def StreamState.nextPc (x : StreamState) : Nat :=
  match x.queue with
  | q :: _ => q.pc.toNat
  | [] => x.pc

/-- The 768 bytes of a dump (Table 7.16); the order of the fields within its first and fifth rows and of
the loop levels, outermost first, is the model's (DESIGN CHOICE, log 34). -/
def State.dumpBytes (s : State) (t : Thread) (h : HaltInfo) : List Byte :=
  let c := s.context t
  let p := s.threadPart t
  let core := s.core (threadCore t)
  let xs := [c.scalar, c.vector, c.matrix, c.move]
  let pad (n : Nat) (bs : List Byte) : List Byte := bs ++ List.replicate (n - bs.length) 0
  pad 64 (leBytes 4 t.toNat ++ leBytes 4 h.stream.code ++ leBytes 4 h.n.toNat ++ leBytes 4 h.reason
      ++ leBytes 8 (s.regN .partStep p.val) ++ leBytes 8 (s.time (coreDie (threadCore t)).val).toNat)
    ++ core.readScratch (ctxArea (threadCtx t)) 64
    ++ core.readScratch (ctxArea (threadCtx t) + 64) 64
    ++ xs.flatMap (fun x => leBytes 4 x.nextPc ++ leBytes 4 x.count.toNat)
    ++ pad 32 (leBytes 4 c.preds.toNat ++ leBytes 4 c.ncw.toNat ++ leBytes 4 (b2n c.bank)
        ++ xs.flatMap (fun x => leBytes 4 x.loops.length))
    ++ xs.flatMap (fun x => pad 32 (x.loops.reverse.flatMap (fun l => leBytes 4 l.count.toNat ++ leBytes 4 l.iter.toNat)))
    ++ (upTo 32).flatMap (fun i => leBytes 8 (c.sreg i).toNat)
    ++ (upTo 16).flatMap (fun i => leBytes 8 (c.param i).toNat)

/-- THREAD_DUMP (R223): once nothing of a halted thread is in flight, its dump goes to DBG_DUMP_ADDR, an address in
a host window, and DEBUG_HALT is logged. The event's stop unit after an illegal command is a free value. -/
def execThreadDump (t : Thread) (s : State) : Out :=
  onThread t s (fun s =>
    let c := s.context t
    match c.halt with
    | none => s
    | some h =>
      if !s.live || h.dumped || c.busy || decide (h.reason ≥ 2) then s
      else
        let p := s.threadPart t
        let va := s.regN .dbgDumpAddr p.val / 256 * 256
        let s := match s.place p va with
          | .host _ _ => s.writeVa p va (s.dumpBytes t h) false
          | _ => s
        let unit := match h.unit with
          | some u => u.val
          | none => Config.freeValue s.freeCount
        let s := if h.unit.isNone then s.bumpFree else s
        let s := s.log (coreSource (threadCore t) 0) 2 (f4 t.toNat ++ f1 unit ++ f1 h.reason)
        s.setContext t { s.context t with halt := some { h with dumped := true } })

end Sys2Proof.Machine
end

