-- ==== Sys2Proof/Machine/Copies.lean ====
section
/-! DEFINITION. COPY (R400, Table 8.10) and REQUANT_COPY (R274-R277): a tensor copied whole, and a scaled
integer tensor converted into a destination handle. -/

namespace Sys2Proof.Machine

/-! ## Rows of a tensor -/

/-- The indices of row `r` of a tensor by its run-time extents, dimension 0 at 0. -/
def Desc.rowIndex (d : Desc) (r : Nat) : List Nat :=
  let step (a : List Nat × Nat) (i : Nat) : List Nat × Nat :=
    (a.1 ++ [a.2 % d.extent (i + 1)], a.2 / d.extent (i + 1))
  ((upTo 5).foldl step ([0], r)).1

/-- The rows of a tensor by its run-time extents. -/
def Desc.rowCount (d : Desc) : Nat := (upTo 5).foldl (fun a i => a * d.extent (i + 1)) 1

/-- An extent of a tensor is zero. -/
def Desc.isEmpty (d : Desc) : Bool := (upTo d.rank).any (fun i => decide (d.extent i = 0))

/-- The memory under a tensor's elements. -/
def Desc.dataRanges (d : Desc) : List (Nat × Nat) :=
  if d.isEmpty then [] else (upTo d.rowCount).map (fun r => (d.rowAddr (d.rowIndex r), (eltSpan d.fmt 0 (d.extent 0)).2))

/-- The lowest dimension in which a source's extent passes the destination's maximum (Table 8.10). -/
def overDest (src dst : Desc) : Option Nat := (upTo 6).find? (fun i => decide (src.extent i > dst.maxExtent i))

/-- The destination's extents become the source's (Table 8.10); its descriptor lies in partition `p`. -/
def State.setExtents (s : State) (p : Part) (src dst : Desc) : State :=
  (upTo dst.rank).foldl (fun s i =>
    s.writeVa p (s.descAddr p dst.handle + 16 * i + 16) (leBytes 4 (src.extent i)) false) s

/-- A write to a tensor waits for a host cache or a page in migration. -/
def State.writesWait (s : State) (p : Part) (d : Desc) : Bool :=
  s.heldWrites.any (fun h => decide (h.part = p ∧ d.base / 64 * 64 ≤ h.va ∧ h.va < d.base + d.footprint))

/-- A page of a tensor lies in the Reserve. -/
def State.inReserve (s : State) (p : Part) (d : Desc) : Bool :=
  (upTo (ceilDiv (d.base % pageSize + d.footprint) pageSize)).any (fun j =>
    match s.place p (d.base / pageSize * pageSize + j * pageSize) with
    | .reserve _ => true
    | _ => false)

/-- The bytes of a tensor's elements. -/
def Desc.dataBytes (d : Desc) : Nat := d.dataRanges.foldl (fun a r => a + r.2) 0

/-! ## COPY -/

/-- The memory a COPY reads. -/
def State.copyRanges (s : State) (p : Part) (bs : List Byte) : List (Nat × Nat) :=
  s.handleRanges p (pktHandle bs 0) ++ s.handleRanges p (pktHandle bs 1)
    ++ (match s.checkHandle p (pktHandle bs 0) with
        | .ok d => d.dataRanges
        | .fail _ _ => [])

/-- An admitted COPY does its work: poison is carried, not consumed (R482). -/
def State.beginCopy (s : State) (p : Part) (k : Packet) : State :=
  let h0 := pktHandle k.bytes 0
  let h1 := pktHandle k.bytes 1
  match s.checkHandle p h0 with
  | .fail st d => s.failHandle p k h0 st d
  | .ok src => match s.checkHandle p h1 with
    | .fail st d => s.failHandle p k h1 st d
    | .ok dst =>
      if !s.mappedRw p dst.base dst.footprint then s.endPacket p k.id stHandle
      else if !anyFmt src.fmt || decide (src.fmt ≠ dst.fmt) then s.endPacket p k.id stFormat
      else match overDest src dst with
        | some i => (s.endPacket p k.id stShapeOver).shapeOver (surveyorSource p) h1 i (src.extent i) (dst.maxExtent i)
        | none =>
          let s := s.setExtents p src dst
          if src.isEmpty then s.endPacket p k.id stEmpty
          else
            let rows := (upTo src.rowCount).map (fun r =>
              (dst.rowAddr (src.rowIndex r), s.rowElems p src.fmt (src.rowAddr (src.rowIndex r)) 0 (src.extent 0)))
            let s := rows.foldl (fun s r => s.storeRow p dst.fmt r.1 0 (src.extent 0) r.2 none) s
            (s.dropHost p src.dataRanges).endPacket p k.id stOk

/-- A COPY touches the Reserve. -/
def State.copyOnReserve (s : State) (p : Part) (bs : List Byte) : Bool :=
  [pktHandle bs 0, pktHandle bs 1].any (fun h => match s.checkHandle p h with
    | .ok d => s.inReserve p d
    | .fail _ _ => false)

/-- The bytes a COPY moves. -/
def State.copyBytes (s : State) (p : Part) (k : Packet) : Nat :=
  match s.checkHandle p (pktHandle k.bytes 0) with
  | .ok d => d.dataBytes
  | .fail _ _ => 0

/-- COPY (R400): refused while the cap is unreachable (R433); one that touches the Reserve asks for an Update Die
unit (Table 14.9). -/
def execCopy (ring : Ring) (s : State) : Out :=
  .next (s.opcodeRow ring 0x03 (fun s p bs => s.copyRanges p bs) (fun p s k =>
    if s.powerRefuses then s.refuse p k.id stPower 5 0
    else if s.copyOnReserve p k.bytes then
      s.request p k updKey (s.copyBytes p k) (fun x => s.copyBytes p x) (fun s => s.beginCopy p k)
    else s.beginCopy p k))

/-! ## REQUANT_COPY (R274-R277) -/

/-- Fields of a REQUANT_COPY (Table 14.4). -/
def requantDest (bs : List Byte) : Part := ⟨pktParam bs 0 1 % 4, Nat.mod_lt _ (by decide)⟩
def requantMeasured (bs : List Byte) : Bool := !bitOf (pktParam bs 1 1) 0
def requantClass (bs : List Byte) : Rnd := if bitOf (pktParam bs 1 1) 1 then .away else .even
def requantObj (bs : List Byte) : SyncObj := BitVec.ofNat 15 (pktParam bs 2 2)
def requantVersion (bs : List Byte) : Nat := pktParam bs 4 4

/-- A partition may copy into another: itself, or a handover target its entry grants (R274). -/
def State.handoverTo (s : State) (p q : Part) : Bool := decide (p = q) || bitOf (s.handover p) q.val

/-- The copy may go where its packet says: to a partition that may receive it, signalling an object of that partition's
(R274, R276). -/
def State.requantAllowed (s : State) (p : Part) (bs : List Byte) : Bool :=
  s.handoverTo p (requantDest bs) && s.ownsSync (requantDest bs) (requantObj bs)

/-- REQUANT_COPY (R274): refused, or waiting for the partition's earlier commands and for the earlier copies into its
destination (R277). The destination partition's state and the place in its queue come before the handles (R12). -/
def execRequantCopy (ring : Ring) (s : State) : Out :=
  .next (s.opcodeRow ring 0x14 (fun _ _ _ => []) (fun p s k =>
    let q := requantDest k.bytes
    let key := reqKey q.val (pktHandle k.bytes 1)
    if s.powerRefuses then s.refuse p k.id stPower 5 0
    else if s.handoverTo p q && !s.running q then s.refuse p k.id stPartState 4 0
    else match s.admission p key with
      | .refused _ => s.request p k key 0 (fun _ => 0) (fun s => s)
      | _ =>
        if s.requantAllowed p k.bytes then s.request p k key 0 (fun _ => 0) (fun s => s)
        else s.endPacket p k.id stHandle))

/-- The largest |q| × s of a channel, truncated to FP32; NaN where the scale is no number (log 38). -/
def requantAmax (f scale : Nat) (qs : List Nat) : Nat :=
  match v32 scale with
  | .fin _ m e => qs.foldl (fun a q => maxMag a (truncMag (match decodeVal f q with
      | .fin _ n _ => .fin false (n * m) e
      | x => x))) 0
  | _ => fmtNan fp32

/-- RNE of a positive FP32 value times a / b. -/
def scaleRatio (bits a b : Nat) : Nat :=
  match v32 bits with
  | .fin neg m e => (if neg then fmtSign fp32 else 0) + divExact fp32 (m * a) e b 0
  | .inf neg => (if neg then fmtSign fp32 else 0) + fmtInf fp32
  | .nan _ => fmtNan fp32

/-- RNE of 1 / x. -/
def recipExact (bits : Nat) : Nat :=
  match v32 bits with
  | .fin neg m e =>
    (if neg then fmtSign fp32 else 0) + (if m = 0 then fmtInf fp32 else divExact fp32 1 0 m e)
  | .inf neg => if neg then fmtSign fp32 else 0
  | .nan _ => fmtNan fp32

/-- The destination's entry of a channel (R275): measured by R119 with kind 2, or proportional with kind 1. -/
def requantEntry (measured : Bool) (fs fd amax : Nat) (src old : ScaleEntry) : ScaleEntry :=
  if measured then
    let e := (formEntry fd { old with amax := amax, flags := 2 }).1
    { e with amax := amax }
  else
    let sc := scaleRatio src.scale (fmtQmax fs) (fmtQmax fd)
    { old with scale := sc, recip := recipExact sc, flags := 1 + 4 + 8 * b2n src.null + 256 * fd }

/-- One element converted (R275, R117): the code, whether it was clamped, and what the record observes. -/
def requantElem (fs fd : Nat) (mode : Rnd) (src dst : ScaleEntry) (q index : Nat) : Nat × Bool × Obs :=
  let y := (timesExact (decodeVal fs q) (v32 src.scale)).1
  let seen : Val := match y with
    | .fin n _ _ => (match v32 (truncMag y) with
      | .fin _ m e => .fin n m e
      | x => x)
    | x => x
  if dst.null then (0, false, { val := seen, zero := true, sat := false, index := index })
  else if unusable dst.scale || unusable dst.recip then
    (0, false, { val := seen, zero := true, sat := false, unusable := true, index := index })
  else
    let r := toInteger fd mode true (timesExact y (v32 dst.recip)).1
    (r.bits, r.sat, { val := seen, zero := r.bits = 0, sat := r.sat, index := index })

/-- The memory a REQUANT_COPY reads, in its own partition and in the destination's. -/
def State.requantRanges (s : State) (p : Part) (bs : List Byte) : List (Nat × Nat) :=
  s.handleRanges p (pktHandle bs 0) ++ (match s.checkHandle p (pktHandle bs 0) true with
    | .ok d => d.dataRanges ++ s.entryRange p d 0 d.channels
    | .fail _ _ => [])

/-- The destination's descriptor and scale entries. -/
def State.requantDestRanges (s : State) (q : Part) (bs : List Byte) : List (Nat × Nat) :=
  s.handleRanges q (pktHandle bs 1) ++ (match s.checkHandle q (pktHandle bs 1) true with
    | .ok d => s.entryRange q d 0 d.channels
    | .fail _ _ => [])

/-- The first poisoned line a copy reads. -/
def State.firstPoisoned (s : State) (p : Part) (ranges : List (Nat × Nat)) : Option Nat :=
  ranges.findSome? (fun r => (linesOf r.1 r.2).find? (fun l => (s.readLine p l).2))

/-- The copy itself, its checks passed: entries, then elements (R275). A source entry that may not be used ends it with
SCALE_SKEW (R110, R132; DEDUCED, log 38: the event's core is a free value, and its ring that of the die whose Gauger the copy
collects into). -/
def State.requantRun (s : State) (p q : Part) (k : Packet) (src dst : Desc) : State :=
  let bs := k.bytes
  let axis := src.scaleAxis
  let n := src.extent axis
  let rows := (upTo src.rowCount).map (fun r =>
    (src.rowIndex r, (s.rowElems p src.fmt (src.rowAddr (src.rowIndex r)) 0 (src.extent 0)).map Prod.fst))
  let cells := rows.flatMap (fun r => r.2.zipIdx.map (fun x => (r.1.set 0 x.2, x.1)))
  let es := (upTo n).map (fun c =>
    let e := s.memEntry p src c
    let amax := requantAmax src.fmt e.scale ((cells.filter (fun x => decide (x.1.getD axis 0 = c))).map Prod.snd)
    (e, requantEntry (requantMeasured bs) src.fmt dst.fmt amax e (s.memEntry q dst c)))
  match es.findIdx? (fun x => !entryOk x.1 (some src.fmt) src.firstPass) with
  | some c =>
    (s.endPacket p k.id stSkew).bumpFree.logSkewOn (s.partialDie q (mkPartial q dst 0 true false [] none))
      (Config.freeValue s.freeCount % 2 ^ 16) (pktSeq bs) 0 ⟨2, 4, none, tagOf src.handle axis, c⟩
  | none =>
    let s := s.setExtents q src dst
    let s := es.zipIdx.foldl (fun s x =>
      let w := s.entryWrite q dst x.2 x.1.2
      s.writeVa q w.1 w.2 false) s
    let out := rows.map (fun r => (dst.rowAddr r.1, r.2.zipIdx.map (fun x =>
      let i := r.1.set 0 x.2
      let e := es.getD (i.getD axis 0) (⟨0, 0, 0, 0⟩, ⟨0, 0, 0, 0⟩)
      requantElem src.fmt dst.fmt (requantClass bs) e.1 e.2 x.1 (dst.elementIndex i))))
    let s := out.foldl (fun s r => s.storeRow q dst.fmt r.1 0 (src.extent 0) (r.2.map (fun x => (x.1, false))) none) s
    let obs := out.flatMap (fun r => r.2.map (fun x => x.2.2))
    let sat := out.any (fun r => r.2.any (fun x => x.2.1))
    let nulls := if requantMeasured bs then (es.filter (fun x => x.2.null)).length else 0
    let s := s.sendPartial { mkPartial q dst 0 true false obs none with nulls := nulls }
    s.onPacket p k.id (fun x => { x with status := some (if sat then stSaturated else stOk) })

/-- A copy starts (R274, R275): its checks by R12, the destination partition's state first, then its work; it then waits
until every element is visible. -/
def State.requantBegin (s : State) (p : Part) (k : Packet) : State :=
  let q := requantDest k.bytes
  let h0 := pktHandle k.bytes 0
  let h1 := pktHandle k.bytes 1
  if !s.running q then s.refuse p k.id stPartState 4 0
  else if !s.requantAllowed p k.bytes then s.endPacket p k.id stHandle
  else
  match s.checkHandle p h0 true with
  | .fail st d => s.failHandle p k h0 st d
  | .ok src => match s.checkHandle q h1 true with
    | .fail st d => s.failHandle p k h1 st d
    | .ok dst =>
      if !s.mappedRw q dst.base dst.footprint then s.endPacket p k.id stHandle
      else if src.fmt ≥ 8 ∨ dst.fmt ≥ 8 ∨ src.scaleAxis ≠ dst.scaleAxis then s.endPacket p k.id stFormat
      else match overDest src dst with
        | some i => (s.endPacket p k.id stShapeOver).shapeOver (surveyorSource p) h1 i (src.extent i) (dst.maxExtent i)
        | none =>
          if src.isEmpty then (s.setExtents q src dst).onPacket p k.id (fun x => { x with status := some stEmpty, placed := 1 })
          else match s.firstPoisoned p (s.requantRanges p k.bytes) with
            | some a => (s.endPacket p k.id stPoisoned).poisonConsumed (surveyorSource p) 0 (pktSeq k.bytes) a
            | none =>
              (s.requantRun p q k src dst).onPacket p k.id (fun x => { x with placed := 1 })

/-- The partition's oldest copy that holds its destination and has not begun. -/
def Partition.requantNext (q : Partition) : Option Packet :=
  q.packets.find? (fun k => decide (pktOpcode k.bytes = 0x14) && k.started && !k.ended && decide (k.placed = 0))

/-- Gauger's queue on the die that a copy collects into is full: a collection point there starts nothing (R142). -/
def State.requantHeld (s : State) (q : Part) (bs : List Byte) : Bool :=
  match s.checkHandle q (pktHandle bs 1) true with
  | .ok d => decide ((s.die (s.partialDie q (mkPartial q d 0 true false [] none))).held.length ≥ 4096)
  | .fail _ _ => false

/-- REQUANT_COPY_START (R274, R275). -/
def execRequantCopyStart (p : Part) (s : State) : Out :=
  .next (if s.live && s.running p then
    match (s.part p).requantNext with
    | none => s
    | some k =>
      let q := requantDest k.bytes
      if !s.earlierDone p k.id then s
      else if !s.ready p (s.requantRanges p k.bytes) then s.ask p (s.requantRanges p k.bytes)
      else if !s.ready q (s.requantDestRanges q k.bytes) then s.ask q (s.requantDestRanges q k.bytes)
      else if s.requantHeld q k.bytes then s
      else (s.requantBegin p k).dropHost p (s.requantRanges p k.bytes)
  else s)

/-- The partition's copy whose elements are written. -/
def Partition.requantDone (q : Partition) : Option Packet :=
  q.packets.find? (fun k => decide (pktOpcode k.bytes = 0x14) && k.started && !k.ended && decide (k.placed = 1))

/-- A partial that the device's own copies sent for a tensor has not reached Gauger's records or queue (R142). -/
def State.partialsOut (s : State) (q : Part) (h : Nat) : Bool :=
  allDies.any (fun d => (s.die d).arrivals.any (fun m => m.owner.isNone && decide (m.part = q) && decide (m.handle.toNat = h)))

/-- HANDOVER_DONE (R142, R276): every element is visible and Gauger has taken every partial of the copy; the destination object is signalled by 1 and HANDOVER_DONE
logged in the destination's Surveyor ring. -/
def execHandoverDone (p : Part) (s : State) : Out :=
  .next (if s.live && s.running p then
    match (s.part p).requantDone with
    | none => s
    | some k =>
      let q := requantDest k.bytes
      if s.writesWait q (s.desc q (pktHandle k.bytes 1)) || s.partialsOut q (pktHandle k.bytes 1) then s
      else
        let s := s.signalObj (requantObj k.bytes) 1 (surveyorSource q)
        let s := s.log (surveyorSource q) 5 (f1 p.val ++ f4 (requantVersion k.bytes))
        s.endPacket p k.id stOk
  else s)

/-! ## A copy that stops (R277) -/

/-- `n` free bytes (log 2). -/
def State.freeBytes (s : State) (n : Nat) : List Byte × State :=
  ((upTo n).map (fun i => BitVec.ofNat 8 (Config.freeValue (s.freeCount + i))), { s with freeCount := s.freeCount + n })

/-- A tensor's elements become undefined: free bytes. -/
def State.scramble (s : State) (p : Part) (d : Desc) : State :=
  d.dataRanges.foldl (fun s r =>
    let (bs, s) := s.freeBytes r.2
    s.writeVa p r.1 bs false) s

/-- The state region of a partition becomes undefined: free bytes (R301, R308). -/
def State.scrambleRegion (s : State) (p : Part) : State :=
  let (bs, s) := s.freeBytes (s.regN .updStateSize p.val)
  s.writeVa p (s.regN .updStateBase p.val) bs false

/-- A running copy stops with ABANDONED and sends no signal: its destination's elements are undefined. When it is
the issuing partition that is reset, the formed bits of the destination's entries are cleared and
HANDOVER_ABANDONED is logged there. -/
def State.stopRequant (s : State) (p : Part) (k : Packet) (byIssuer : Bool) : State :=
  let q := requantDest k.bytes
  let s :=
    if k.placed = 0 then s
    else match s.checkHandle q (pktHandle k.bytes 1) true with
      | .fail _ _ => s
      | .ok d =>
        let s := s.scramble q d
        if byIssuer then (upTo d.channels).foldl (fun s c =>
            let e := s.memEntry q d c
            let w := s.entryWrite q d c { e with flags := e.flags - b2n e.formed * 4 }
            s.writeVa q w.1 w.2 false) s
        else s
  let s := if byIssuer && decide (k.placed = 1) then
      s.log (surveyorSource q) 8 (f1 p.val ++ f4 (requantVersion k.bytes)) else s
  (s.onPacket p k.id (fun x => { x with status := none })).endPacket p k.id stAbandoned

/-- The copies into a partition's handles stop as it is reset (R277, R395). -/
def State.stopCopiesInto (s : State) (q : Part) : State :=
  allParts.foldl (fun s p =>
    ((s.part p).packets.filter (fun k => decide (pktOpcode k.bytes = 0x14) && k.started && !k.ended
      && decide (requantDest k.bytes = q) && decide (p ≠ q))).foldl (fun s k => s.stopRequant p k false) s) s

end Sys2Proof.Machine
end

