-- ==== Sys2Proof/Machine/FabLink.lean ====
section
/-! DEFINITION. Sending and consuming cells on a fabric port (R319-R324): channels, credits, replay, the order
of transmission, violations. -/

namespace Sys2Proof.Machine

/-! ## Cells (Tables 11.3-11.6) -/

def tyNull : BitVec 5 := 0x00
def tyLinkCtrl : BitVec 5 := 0x01
def tyParam : BitVec 5 := 0x02
def tyHello : BitVec 5 := 0x03
def tyIsolate : BitVec 5 := 0x04
def tyPutOpen : BitVec 5 := 0x08
def tyPutData : BitVec 5 := 0x09
def tyPutAck : BitVec 5 := 0x0A
def tyGetReq : BitVec 5 := 0x0B
def tyGetResp : BitVec 5 := 0x0C
def tyCollData : BitVec 5 := 0x10
def tyCollCtrl : BitVec 5 := 0x11
def tyMirrorWrite : BitVec 5 := 0x14
def tyMirrorAck : BitVec 5 := 0x15
def tyMirrorRead : BitVec 5 := 0x16
def tyMirrorData : BitVec 5 := 0x17
def tyMgmt : BitVec 5 := 0x18

/-- The channel of a type (Table 11.5); none for a reserved type. -/
def cellVc (t : BitVec 5) : Option Nat :=
  if t.toNat ≤ 4 then some 7
  else if t = tyPutOpen ∨ t = tyPutData ∨ t = tyGetReq then some 2
  else if t = tyPutAck ∨ t = tyGetResp then some 5
  else if t = tyCollData then some 0
  else if t = tyCollCtrl then some 1
  else if t = tyMirrorWrite ∨ t = tyMirrorRead then some 3
  else if t = tyMirrorAck ∨ t = tyMirrorData then some 6
  else if t = tyMgmt then some 4
  else none

/-- Receive buffers of a channel (Table 11.6). -/
def vcBuffers (vc : Nat) : Nat :=
  match vc with
  | 0 => 512 | 1 => 32 | 2 => 192 | 3 => 96 | 4 => 48 | 5 => 96 | 6 => 48 | _ => 0

/-- The type requires a payload of 32 bytes (Table 11.5). -/
def cellShort (t : BitVec 5) : Bool :=
  t = tyPutOpen || t = tyPutAck || t = tyGetReq || t = tyCollCtrl || t = tyMirrorAck || t = tyMirrorRead

/-- A cell's len is the length its type requires, and its payload is that long (R332). -/
def cellLenOk (c : Cell) : Bool :=
  decide (c.payload.length = (c.len.toNat + 1) * 32) && (!cellShort c.type || c.len = 0)

/-- A cell to be sent; its sequence number is given as it goes out. -/
def mkCell (t : BitVec 5) (tag : BitVec 16) (target : Nat) (first last poison : Bool) (payload : List Byte) : Cell where
  vc := BitVec.ofNat 3 ((cellVc t).getD 7)
  type := t
  poison := poison
  last := last
  first := first
  len := BitVec.ofNat 4 (payload.length / 32 - 1)
  seq := 0
  tag := tag
  target := BitVec.ofNat 48 target
  payload := payload

/-- A payload filled with zeros up to a length. -/
def padPayload (n : Nat) (bs : List Byte) : List Byte := bs ++ List.replicate (n - bs.length) 0

/-- The 16 header bytes of a cell (Tables 11.3 and 11.4). -/
def cellHeader (c : Cell) : List Byte :=
  let control := c.vc.toNat * 2 ^ 29 + c.type.toNat * 2 ^ 24 + b2n c.poison * 2 ^ 23 + b2n c.last * 2 ^ 22
    + b2n c.first * 2 ^ 21 + c.len.toNat * 2 ^ 17 + c.seq.toNat * 2 ^ 5
  let head := leBytes 4 control ++ leBytes 2 c.tag.toNat ++ leBytes 6 c.target.toNat
  head ++ leBytes 4 (crc32c (head ++ c.payload))

/-- Bytes with a poison mark each, cut into cells of one message of at most 512 bytes a cell: `target` gives
each cell's target from the offset of its first byte. -/
def messageCells (t : BitVec 5) (tag : BitVec 16) (first last : Bool) (target : Nat → Nat) (bs : List (Byte × Bool)) : List Cell :=
  let n := ceilDiv bs.length 512
  (upTo n).map (fun i =>
    let part := (bs.drop (512 * i)).take 512
    mkCell t tag (target (512 * i)) (first && i = 0) (last && i + 1 = n) (part.any (fun x => x.2))
      (padPayload (ceilDiv part.length 32 * 32) (part.map Prod.fst)))

/-! ## Credits and transmission (R322-R324) -/

/-- Credits held for a channel. -/
def FabPort.credit (q : FabPort) (vc : Nat) : Nat :=
  (vcBuffers vc + q.granted.getD vc 0 + 65536 - q.used.getD vc 0 % 65536) % 65536

/-- The port may send on a channel now: UP carries all, LIMITED VC4 alone (Table 11.2). -/
def FabPort.opens (q : FabPort) (vc : Nat) : Bool :=
  (decide (q.state = .up) || (decide (q.state = .limited) && vc = 4)) && decide (q.credit vc > 0)
    && q.waiting.any (fun c => decide (c.cell.vc.toNat = vc))

/-- The weight of a channel in FAB_VC_WEIGHT (Table 18.12). -/
def vcWeight (w vc : Nat) : Nat :=
  match vc with
  | 0 => bitsOf w 7 0 | 2 => bitsOf w 15 8 | 3 => bitsOf w 23 16 | _ => bitsOf w 31 24

/-- A list turned so that it begins after an item. -/
def turnAfter (l : List Nat) (x : Nat) : List Nat :=
  match l.findIdx? (fun y => decide (y = x)) with
  | some i => l.drop (i + 1) ++ l.take (i + 1)
  | none => l

/-- The channel that sends next, and the port's turns after it (R324): VC1, VC5, VC6 in rotation, then VC0, VC2,
VC3, VC4 by weighted rotation, each up to its weight in a row. -/
def FabPort.nextVc (q : FabPort) (w : Nat) : Option (Nat × FabPort) :=
  match (turnAfter [1, 5, 6] q.turnHigh).find? (fun v => q.opens v) with
  | some v => some (v, { q with turnHigh := v })
  | none =>
    if q.turnLeft > 0 && q.opens q.turnLow then some (q.turnLow, { q with turnLeft := q.turnLeft - 1 })
    else ((turnAfter [0, 2, 3, 4] q.turnLow).find? (fun v => q.opens v)).map (fun v =>
      (v, { q with turnLow := v, turnLeft := vcWeight w v - 1 }))

/-- An owner has a cell waiting on a channel. -/
def FabPort.waits (q : FabPort) (vc owner : Nat) : Bool :=
  q.waiting.any (fun c => decide (c.cell.vc.toNat = vc ∧ c.owner = owner))

/-- The owner whose cell goes next on a channel, and the turns it has left (R411): weighted rotation, each up to its
share in a row; an owner with no share goes when no other waits. -/
def FabPort.nextOwner (q : FabPort) (shares : List Nat) (vc : Nat) : Nat × Nat :=
  let last := q.shareTurn.getD vc 4
  let left := q.shareLeft.getD vc 0
  if left > 0 && q.waits vc last then (last, left - 1)
  else
    let turn := (turnAfter [0, 1, 2, 3, 4] last).filter (fun o => q.waits vc o)
    let o := (turn.find? (fun o => decide (shares.getD o 0 > 0))).getD (turn.headD 4)
    (o, shares.getD o 0 - 1)

/-- Send what credits and the replay buffer of 1,536 cells allow. `fuel` bounds the number. -/
def FabPort.pump (w : Nat) (shares : List Nat) : Nat → FabPort → FabPort
  | 0, q => q
  | fuel + 1, q =>
    if q.replay.length ≥ 1536 then q
    else match q.nextVc w with
      | none => q
      | some (v, q) =>
        let o := q.nextOwner shares v
        match takeFirst (fun c => decide (c.cell.vc.toNat = v ∧ c.owner = o.1)) q.waiting with
        | none => q
        | some (c, rest) =>
          FabPort.pump w shares fuel { q with
            waiting := rest
            replay := q.replay ++ [{ c.cell with seq := q.nextSeq }]
            nextSeq := q.nextSeq + 1
            used := q.used.set v ((q.used.getD v 0 + 1) % 65536)
            shareTurn := q.shareTurn.set v o.1
            shareLeft := q.shareLeft.set v o.2 }

/-- The shares of the four partitions in a port's cells, and of the device's own traffic (R411; the last DESIGN CHOICE,
log 48). -/
def State.fabShares (s : State) (n : FPort) : List Nat :=
  (upTo 4).map (fun i => let p : Part := ⟨i % 4, Nat.mod_lt _ (by decide)⟩
                         if s.ownsFab p n.val then s.fabShare p else 0) ++ [1]

/-- The owner of a partition's cells, and of cells of no partition. -/
def ownerOf (p : Option Part) : Nat :=
  match p with
  | some p => p.val
  | none => 4

/-- Put cells into a port's queue and send what may go. -/
def State.fabQueue (s : State) (n : FPort) (put : List OutCell → List OutCell) : State :=
  s.onFab n (fun q =>
    let l := put q.waiting
    FabPort.pump (s.regN .fabVcWeight) (s.fabShares n) l.length { q with waiting := l })

/-- Queue cells on a port behind those waiting. -/
def State.fabSend (s : State) (n : FPort) (p : Option Part) (cs : List Cell) : State :=
  s.fabQueue n (fun l => l ++ cs.map (fun c => ⟨c, ownerOf p, 0⟩))

/-- A chunk's cells go ahead of the chunks of later rounds of the partition that are not yet begun (R340). -/
def putChunk (owner order : Nat) (cs : List Cell) (l : List OutCell) : List OutCell :=
  let i := (l.findIdx? (fun x =>
    x.cell.first && decide (x.cell.vc = 0 ∧ x.owner = owner ∧ order < x.order))).getD l.length
  l.take i ++ cs.map (fun c => ⟨c, owner, order⟩) ++ l.drop i

/-- Queue the cells of a collective chunk. -/
def State.fabChunk (s : State) (n : FPort) (p : Part) (order : Nat) (cs : List Cell) : State :=
  s.fabQueue n (putChunk p.val order cs)

/-- Send what may go now. -/
def State.fabPump (s : State) (n : FPort) : State := s.fabQueue n (fun l => l)

/-- Send a link-maintenance cell: VC7, unsequenced. -/
def State.fabLink (s : State) (n : FPort) (t : BitVec 5) (payload : List Byte) : State :=
  s.onFab n (fun q => { q with link := q.link ++ [mkCell t 0 0 true true false payload] })

/-- Send a LINK_CTRL (Table 11.5): the credits returned, ack_seq and nak; a nak is sent once for each gap. -/
def State.sendLinkCtrl (s : State) (n : FPort) : State :=
  let q := s.fab n
  let payload := padPayload 32 ((upTo 7).flatMap (fun v => leBytes 2 (q.returned.getD v 0)) ++ leBytes 2 0
    ++ leBytes 2 ((q.expectSeq - 1).toNat + b2n q.sendNak * 2 ^ 15))
  (s.onFab n (fun q => { q with sendNak := false })).fabLink n tyLinkCtrl payload

/-- The oldest received cell of a channel, when it is of this type: what a step of the type acts on. -/
def State.headCell (s : State) (n : FPort) (t : BitVec 5) : Option Cell :=
  match (s.fab n).rx.find? (fun c => decide (some c.vc.toNat = cellVc t)) with
  | some c => if c.type = t then some c else none
  | none => none

/-- Consume the oldest received cell of a channel: its buffer frees and its credit is returned (R322). -/
def State.consume (s : State) (n : FPort) (vc : Nat) : State :=
  let s := s.onFab n (fun q =>
    match takeFirst (fun c => decide (c.vc.toNat = vc)) q.rx with
    | some (_, rest) => { q with rx := rest, returned := q.returned.set vc ((q.returned.getD vc 0 + 1) % 65536) }
    | none => q)
  s.sendLinkCtrl n

/-! ## Violations (R332) -/

/-- The causes of R332, in its order (numbered by Config.code 0, log 41). -/
def vioType : Nat := 0
def vioLen : Nat := 1
def vioCredit : Nat := 2
def vioOutside : Nat := 3
def vioTarget : Nat := 4
def vioVersion : Nat := 5
def vioRefused : Nat := 6
def vioMirror : Nat := 7

/-- The I/O die's time on a port. -/
def State.fabTime (s : State) (n : FPort) : Nat := (s.time (4 + (fabIod n).val)).toNat

/-- Times within the last millisecond. -/
def lastMilli (now : Nat) (l : List Nat) : List Nat := l.filter (fun t => decide (now - t ≤ 100000))

/-- Add to a saturating 64-bit count. -/
def State.countUp (s : State) (r : RegName) (i n : Nat) : State := s.setRegN r i 0 (Nat.min (s.regN r i + n) m64)

/-- A violating cell is counted and logged, and not acted on (R332). -/
def State.fabViolation (s : State) (n : FPort) (cause : Nat) (c : Cell) : State :=
  let s := s.countUp .fabViolCount n.val 1
  let s := s.log (fabSource n) 8 (f4 c.type.toNat ++ f1 (Config.code 0 cause) ++ cellHeader c)
  let now := s.fabTime n
  s.onFab n (fun q => { q with violations := lastMilli now q.violations ++ [now] })

end Sys2Proof.Machine
end

