-- ==== Sys2Proof/Machine/Rounds.lean ====
section
/-! DEFINITION. A collective round on one member (R338-R359): its key and order, its tree, how chunks are
combined, sent up, formed, checked and passed down, and how it ends or fails. The rows that drive it stand in
Machine/Collectives.lean. -/

namespace Sys2Proof.Machine

/-! ## What a round combines (R346, R348, Tables 5.3 and 5.4) -/

/-- Combine one field: `n` bytes at `o` of both units. -/
def joinField (x y : List Byte) (o n : Nat) (f : Nat → Nat → Nat) : List Byte := leBytes n (f (field x o n) (field y o n))

/-- Saturating sum of `n` bytes. -/
def satSum (n a b : Nat) : Nat := Nat.min (a + b) (2 ^ (8 * n) - 1)
/-- The operand of larger FP32 magnitude. -/
def largerMag (a b : Nat) : Nat := if a % 2 ^ 31 < b % 2 ^ 31 then b else a
/-- Signed bytes: the lesser and the greater. -/
def signedMin (a b : Nat) : Nat := if signed 8 b < signed 8 a then b else a
def signedMax (a b : Nat) : Nat := if signed 8 a < signed 8 b then b else a

/-- The header of a statistics bucket (Table 5.3). -/
def joinHeader (x y : List Byte) : List Byte :=
  List.replicate 8 0 ++ joinField x y 8 8 Nat.min ++ joinField x y 16 8 Nat.max ++ joinField x y 24 4 Nat.min
    ++ joinField x y 28 4 Nat.max ++ joinField x y 32 4 (fun a b => a + b) ++ joinField x y 36 4 (fun a b => a + b)
    ++ List.replicate 24 0

/-- Bytes 63:0 of a summary entry (Table 5.4). -/
def joinLow (x y : List Byte) : List Byte :=
  joinField x y 0 8 (satSum 8) ++ joinField x y 8 8 (satSum 8) ++ joinField x y 16 8 (satSum 8)
    ++ joinField x y 24 8 (satSum 8) ++ joinField x y 32 4 (satSum 4) ++ joinField x y 36 4 largerMag
    ++ joinField x y 40 8 (satSum 8) ++ joinField x y 48 1 signedMin ++ joinField x y 49 1 signedMax
    ++ joinField x y 50 1 Nat.min ++ joinField x y 51 1 Nat.max ++ joinField x y 52 4 (fun a b => a ||| b)
    ++ List.replicate 4 0 ++ joinField x y 60 2 Nat.min ++ joinField x y 62 2 Nat.max

/-- Bytes 127:64 of a summary entry: the bins. -/
def joinHigh (x y : List Byte) : List Byte := (upTo 16).flatMap (fun i => joinField x y (4 * i) 4 (satSum 4))

/-- A round reduces the statistics bucket or its header. -/
def Round.ofStats (r : Round) : Bool := r.cls = 0 || r.cls = 2

/-- Combine two items of a round; `i` is the item's place in the bucket. -/
def Round.join (r : Round) (i : Nat) (x y : Item) : Item :=
  let b :=
    if r.ofStats then (if i = 0 then joinHeader x.1 y.1 else if i % 2 = 1 then joinLow x.1 y.1 else joinHigh x.1 y.1)
    else leBytes 4 (add32 (leNat x.1) (leNat y.1))
  (b, x.2 || y.2)

/-- Bytes of an item on the wire. -/
def Round.itemSize (r : Round) (b : Bucket) : Nat := if r.ofStats then 64 else if b.wireBf16 then 2 else 4
/-- An item in wire format, rounded to nearest, ties to even. -/
def Round.toWire (r : Round) (b : Bucket) (x : Item) : List Byte :=
  if !r.ofStats && b.wireBf16 then leBytes 2 (toFloat bf16 .even (v32 (leNat x.1))).bits else x.1
/-- An item from the wire, widened exactly. -/
def Round.ofWire (r : Round) (b : Bucket) (bs : List Byte) : List Byte :=
  if !r.ofStats && b.wireBf16 then leBytes 4 (leNat bs * 65536) else bs

/-- Items of a round, of a full chunk, and its chunks. -/
def Round.items (r : Round) (b : Bucket) : Nat := r.size / r.itemSize b
def Round.perChunk (r : Round) (b : Bucket) : Nat := 65536 / r.itemSize b
def Round.chunks (r : Round) : Nat := ceilDiv r.size 65536
/-- Items in chunk `c`. -/
def Round.itemsIn (r : Round) (b : Bucket) (c : Nat) : Nat := Nat.min (r.perChunk b) (r.items b - c * r.perChunk b)

/-- The items of a received chunk, each with the poison of its cell. -/
def Round.decode (r : Round) (b : Bucket) (c : Nat) (k : Chunk) : List Item :=
  let w := r.itemSize b
  (upTo (r.itemsIn b c)).map (fun i => (r.ofWire b ((k.bytes.drop (i * w)).take w), k.marks.getD (i * w / 512) false))

/-- A chunk of wire bytes, each marked with its item's poison. -/
def Round.wireBytes (r : Round) (b : Bucket) (xs : List Item) : List (Byte × Bool) :=
  xs.flatMap (fun x => (r.toWire b x).map (fun y => (y, x.2)))

/-- This member's own items of a chunk. -/
def Round.own (r : Round) (b : Bucket) (c : Nat) : List Item := (r.source.drop (c * r.perChunk b)).take (r.itemsIn b c)

/-- The chunks a round checks (R352). -/
def Round.checked (r : Round) : List Nat :=
  let hit := (upTo r.chunks).filter (fun c => decide (c % r.stride = (r.step + r.bucket) % r.stride))
  if hit.isEmpty then [r.chunks - 1] else hit

/-! ## Keys and order (R339, R340) -/

/-- A round's place in the partition's order. -/
def Round.before (x y : Round) : Bool :=
  decide (x.step < y.step) || (decide (x.step = y.step) && (decide (x.cls < y.cls) || (decide (x.cls = y.cls) && decide (x.bucket < y.bucket))))

/-- The same round. -/
def Round.same (x y : Round) : Bool := decide (x.bucket = y.bucket ∧ x.cls = y.cls ∧ x.step = y.step)

/-- Change a round. -/
def State.onRound (s : State) (p : Part) (r : Round) (f : Round → Round) : State :=
  s.onPart p (fun q => { q with rounds := updateFirst (fun x => x.same r) f q.rounds })
/-- A round as it is now. -/
def State.round? (s : State) (p : Part) (r : Round) : Option Round := (s.part p).rounds.find? (fun x => x.same r)
/-- A declared bucket. -/
def Partition.bucket? (q : Partition) (b : Nat) : Option Bucket := Sparse.find? q.buckets b
/-- The round of a bucket that is under way, if one is. -/
def Partition.openRound (q : Partition) (b : Nat) : Option Round :=
  q.rounds.find? (fun r => decide (r.bucket = b) && decide (r.state ≠ .pending))

/-- A round expected and not activated. -/
def Round.pending (bucket cls step size : Nat) (engine : Iod) (position : Nat) : Round where
  bucket := bucket
  cls := cls
  step := step
  state := .pending
  ready := false
  size := size
  engine := engine
  position := position
  ports := List.replicate 6 none
  stride := 1
  source := []
  upLeft := []
  upRight := []
  mupLeft := []
  mupRight := []
  down := []
  nextUp := 0
  nextMirror := 0
  gotDown := 0
  creditUp := 0
  mcreditUp := 0
  kept := []
  mkept := []
  compared := []
  result := []
  ended := false
  flags := 0
  mismatch := 0xFFFF

/-- Ports of a round's edges (Table 12.1). -/
def Round.parent (r : Round) : Option FPort := r.ports.getD 0 none
def Round.left (r : Round) : Option FPort := r.ports.getD 1 none
def Round.right (r : Round) : Option FPort := r.ports.getD 2 none
def Round.mparent (r : Round) : Option FPort := r.ports.getD 3 none
def Round.mleft (r : Round) : Option FPort := r.ports.getD 4 none
def Round.mright (r : Round) : Option FPort := r.ports.getD 5 none

/-- Which children a member has (R338). -/
def Bucket.hasLeft (b : Bucket) : Bool := decide (2 * b.position + 1 < b.ranks.length)
def Bucket.hasRight (b : Bucket) : Bool := decide (2 * b.position + 2 < b.ranks.length)
/-- Number of children. -/
def Bucket.children (b : Bucket) : Nat := b2n b.hasLeft + b2n b.hasRight

/-! ## Messages (Table 12.5, R351) -/

/-- The target of a collective cell. -/
def collTarget (dir bucket step chunk cell : Nat) : Nat :=
  dir * 2 ^ 46 + bucket * 2 ^ 34 + step % 16 * 2 ^ 30 + chunk * 2 ^ 16 + cell * 2 ^ 9

/-- A control message: type 1 CREDIT, 2 RESULT_END, 3 ABORT. A mirror engine's CREDIT travels under dir 2, all
other messages under the direction they take (DESIGN CHOICE, log 43). -/
def collCtrl (b : Bucket) (r : Round) (dir type count : Nat) : Cell :=
  let payload := leBytes 8 r.step ++ leBytes 1 type ++ leBytes 1 0 ++ leBytes 2 count ++ leBytes 2 r.flags
    ++ leBytes 2 r.mismatch ++ leBytes 2 b.position
  mkCell tyCollCtrl b.groupTag (collTarget dir r.bucket r.step 0 0) true true false (padPayload 32 payload)

/-- Send a control message on a port that a round has. -/
def State.sendOn (s : State) (p : Part) (n : Option FPort) (m : Cell) : State :=
  match n with
  | some n => s.fabSend n (some p) [m]
  | none => s

/-- A round's place in the order of R340, as one number. -/
def Round.order (r : Round) : Nat := (r.step * 4 + r.cls) * 4096 + r.bucket

/-- Send a chunk, ahead of those of later rounds (R340). -/
def State.sendChunk (s : State) (p : Part) (n : Option FPort) (b : Bucket) (r : Round) (dir c : Nat)
    (bs : List (Byte × Bool)) : State :=
  match n with
  | some n => s.fabChunk n p r.order
      (messageCells tyCollData b.groupTag true true (fun o => collTarget dir r.bucket r.step c (o / 512)) bs)
  | none => s

/-- Grant both children what the primary engine has freed so far (R344). -/
def State.grantPrimary (s : State) (p : Part) (b : Bucket) (r : Round) : State :=
  let m := collCtrl b r 1 1 (b.credits + r.nextUp)
  (s.sendOn p r.left m).sendOn p r.right m
/-- The same for the mirror engine, one buffer for each child (R342). -/
def State.grantMirror (s : State) (p : Part) (b : Bucket) (r : Round) : State :=
  let m := collCtrl b r 2 1 (1 + r.nextMirror)
  (s.sendOn p r.mleft m).sendOn p r.mright m

/-! ## Results -/

/-- The indices of the element at a byte offset of a tensor's footprint; none in row padding. -/
def Desc.indexAt (d : Desc) (o : Nat) : Option (List Nat) :=
  let step (a : List Nat × Nat) (i : Nat) : List Nat × Nat :=
    let dim := 5 - i
    let st := d.stride.getD dim 0
    if st = 0 then (0 :: a.1, a.2) else (a.2 / st :: a.1, a.2 % st)
  let r := (upTo 5).foldl step ([], o)
  let j := r.2 * 8 / fmtBits d.fmt
  if j < d.maxExtent 0 then some (j :: r.1) else none

/-- Write a result chunk of a gradient round to its tensor, where every member collects (Table 5.2). -/
def State.writeResult (s : State) (p : Part) (b : Bucket) (r : Round) (c : Nat) (bs : List (Byte × Bool)) : State :=
  let d := s.desc p b.dst.toNat
  let w := r.itemSize b
  let f := if b.wireBf16 then bf16 else fp32
  let bytes := bs.map Prod.fst
  let obs := (upTo (bs.length / w)).filterMap (fun i =>
    (d.indexAt (c * 65536 + i * w)).map (fun idx =>
      let bits := leNat ((bytes.drop (i * w)).take w)
      let v := decodeVal f bits
      ({ val := v, zero := v.isZero, sat := false, index := d.elementIndex idx } : Obs)))
  let s := s.writeMarked p (d.base + c * 65536) bs none
  s.sendPartial (mkPartial p d (s.scaleBase p d) true true obs none)

/-- A result chunk reaches this member: it is written, or kept for Assize or the Update Die, and passed to the
children unchanged (R346, R356). -/
def State.takeResult (s : State) (p : Part) (b : Bucket) (r : Round) (c : Nat) (bs : List (Byte × Bool)) : State :=
  let s := if r.cls = 1 then s.writeResult p b r c bs
    else s.onRound p r (fun x => { x with result := Sparse.put x.result c ⟨bs.map Prod.fst, [bs.any (fun y => y.2)], true⟩ })
  let s := if bs.any (fun y => y.2) then s.onRound p r (fun x => { x with flags := x.flags ||| 8 }) else s
  (s.sendChunk p r.left b r 1 c bs).sendChunk p r.right b r 1 c bs

/-! ## The end of a round (Table 12.4, R357) -/

/-- Address of a bucket's entry (R336). -/
def State.bucketAddr (s : State) (p : Part) (b : Nat) : Nat := s.regN .colBucketBase p.val + 64 * b

/-- A round's result bytes, chunk after chunk. -/
def Round.resultBytes (r : Round) : List Byte := r.result.flatMap (fun e => e.2.bytes)

/-- Hand a statistics, agreement or norm result to Assize or the Update Die (R356, R359). A statistics result with a
poisoned line counts as suspect (DESIGN CHOICE, log 115). -/
def State.deliver (s : State) (p : Part) (r : Round) : State :=
  let failed := bitOf r.flags 1
  if r.cls = 0 ∨ r.cls = 2 then
    s.onAssize p (fun a => { a with arrived := a.arrived ++
      [⟨r.resultBytes, r.flags % 2 = 1 || bitOf r.flags 3, decide (r.cls = 0), r.step⟩] })
  else if r.cls = 3 then
    let take (j : UpdJob) : UpdJob := { j with
      norm := some (BitVec.ofNat 32 (if failed then fmtNan fp32 else leNat r.resultBytes))
      normSuspect := r.flags % 2 = 1
      normPoison := bitOf r.flags 3 }
    let waits (j : UpdJob) : Bool := decide (j.boundStep = r.step) && !j.rewrite && j.norm.isNone
    s.onUpdate p (fun u => { u with jobs := updateFirst waits take u.jobs })
  else s

/-- The chunk of the last REDUCE_MISMATCH of a bucket once a round of it is done (Table 12.1). -/
def Bucket.lastMismatch (b : Bucket) (r : Round) : Nat := if r.mismatch = 0xFFFF then b.mismatch else r.mismatch

/-- The round is over on this member: device fields, done_obj, its result; the bucket's next round is
expected (R336, R338, R339). -/
def State.closeRound (s : State) (p : Part) (b : Bucket) (r : Round) : State :=
  let e := s.bucketAddr p r.bucket
  let s := s.writeVa p (e + 48)
    (leBytes 2 r.flags ++ leBytes 2 (b.lastMismatch r) ++ leBytes 4 (b.rounds + 1) ++ leBytes 8 r.step) false
  let s := s.deliver p r
  let s := s.onPart p (fun q => { q with
    rounds := q.rounds.filter (fun x => !x.same r)
    buckets := Sparse.put q.buckets r.bucket { b with
      rounds := b.rounds + 1
      lastStep := if r.cls = 0 then b.lastStep else some r.step
      flags := r.flags
      mismatch := b.lastMismatch r } })
  let s := if r.cls = 1 ∨ r.cls = 2 then
      s.onPart p (fun q => { q with rounds := q.rounds ++ [Round.pending r.bucket r.cls (r.step + 1) b.size b.engine b.position] }) else s
  s.signalObj b.doneObj 1 (colSource r.engine)

/-- The event of a round that ends well. -/
def State.roundDone (s : State) (p : Part) (b : Bucket) (r : Round) : State :=
  (s.closeRound p b r).log (colSource r.engine) 1 (f2 r.bucket ++ f4 r.step ++ f4 r.flags)

/-- A port's number in a round's events: 0xFF for none, as the ports field has it. -/
def portByte (n : Option FPort) : Nat :=
  match n with
  | some x => x.val
  | none => 0xFF

/-- A round fails with a cause of Table 12.3: ABORT goes over every primary port still up (R357). -/
def State.failRound (s : State) (p : Part) (r : Round) (cause : Nat) (port : Option FPort) : State :=
  match s.round? p r, (s.part p).bucket? r.bucket with
  | some r, some b =>
    let up (n : Option FPort) : Option FPort := n.filter (fun x => decide ((s.fab x).state = .up))
    let r := { r with flags := r.flags % 16 / 4 * 4 + 3 + 16 * cause }
    let s := s.sendOn p (up r.parent) (collCtrl b r 0 3 0)
    let s := s.sendOn p (up r.left) (collCtrl b r 1 3 0)
    let s := s.sendOn p (up r.right) (collCtrl b r 1 3 0)
    (s.closeRound p b r).log (colSource r.engine) 5 (f2 r.bucket ++ f4 r.step ++ f1 cause ++ f1 (portByte port))
  | _, _ => s

/-- End a round whose every part is done (Table 12.4): at the root RESULT_END goes to the children once every
checked chunk is compared or skipped (R354). -/
def State.finishRound (s : State) (p : Part) (r : Round) : State :=
  match s.round? p r, (s.part p).bucket? r.bucket with
  | some r, some b =>
    if r.state = .draining then
      if b.position = 0 then
        if r.checked.all (fun c => r.compared.contains c) then
          let m := collCtrl b r 1 2 0
          ((s.sendOn p r.left m).sendOn p r.right m).roundDone p b r
        else s
      else if r.ended && decide (r.gotDown = r.chunks) then s.roundDone p b r
      else s
    else s
  | _, _ => s

/-! ## Combining (R346, R353, R354) -/

/-- The first place where two lists of items differ. -/
def firstDiffer (x y : List Item) : Option Nat :=
  (upTo (Nat.max x.length y.length)).find? (fun i => decide ((x.getD i ([], false)).1 ≠ (y.getD i ([], false)).1))

/-- At the root, compare the chunk whose two accumulators are both there. -/
def State.compareChunk (s : State) (p : Part) (r : Round) (c : Nat) : State :=
  match s.round? p r, (s.part p).bucket? r.bucket with
  | some r, some b =>
    match Sparse.find? r.kept c, Sparse.find? r.mkept c with
    | some x, some y =>
      let done (f : Round → Round) : State := s.onRound p r (fun z => f { z with
        compared := z.compared ++ [c], kept := Sparse.erase z.kept c, mkept := Sparse.erase z.mkept c })
      match firstDiffer x y with
      | none => done (fun z => z)
      | some i =>
        (done (fun z => { z with flags := (if bitOf z.flags 1 then z.flags else z.flags % 16 + 16) ||| 1, mismatch := c })).log
          (colSource r.engine) 2 (f2 r.bucket ++ f4 r.step ++ f4 c ++ f8 (c * r.perChunk b + i))
    | _, _ => s
  | _, _ => s

/-- Combine own items with the children's chunks, left before right. -/
def Round.combine (r : Round) (b : Bucket) (c : Nat) (left right : Option Chunk) : List Item :=
  let add (acc : List Item) (k : Option Chunk) : List Item :=
    match k with
    | none => acc
    | some k => (acc.zip (r.decode b c k)).zipIdx.map (fun x => r.join (c * r.perChunk b + x.2) x.1.1 x.1.2)
  add (add (r.own b c) left) right

/-- A child's chunk is needed and there, or not needed. -/
def chunkReady (needed : Bool) (m : Sparse Chunk) (c : Nat) : Bool :=
  !needed || (match Sparse.find? m c with
    | some k => k.whole
    | none => false)

/-- A child's chunk, if the child exists. -/
def childChunk (needed : Bool) (m : Sparse Chunk) (c : Nat) : Option Chunk := if needed then Sparse.find? m c else none

/-- Combine and send up what is ready, in chunk order (R344, R346). `fuel` bounds the chunks. -/
def State.pumpUp (s : State) (p : Part) (r : Round) : Nat → State
  | 0 => s
  | fuel + 1 =>
    match s.round? p r, (s.part p).bucket? r.bucket with
    | some r, some b =>
      let c := r.nextUp
      if r.state = .reducing ∧ c < r.chunks ∧ chunkReady b.hasLeft r.upLeft c ∧ chunkReady b.hasRight r.upRight c
          ∧ (b.position = 0 ∨ c < r.creditUp) then
        let acc := r.combine b c (childChunk b.hasLeft r.upLeft c) (childChunk b.hasRight r.upRight c)
        let bs := r.wireBytes b acc
        let s := if b.position = 0 then s.takeResult p b r c bs else s.sendChunk p r.parent b r 0 c bs
        let s := s.onRound p r (fun x => { x with
          upLeft := Sparse.erase x.upLeft c
          upRight := Sparse.erase x.upRight c
          nextUp := c + 1
          state := if c + 1 = x.chunks then .draining else x.state
          kept := if b.position = 0 && x.checked.contains c && !x.compared.contains c then Sparse.put x.kept c acc else x.kept })
        let s := match s.round? p r with
          | some r => s.grantPrimary p b r
          | none => s
        State.pumpUp (s.compareChunk p r c) p r fuel
      else s
    | _, _ => s

/-- The mirror engine's turn at the next checked chunk (R353). -/
def State.pumpMirror (s : State) (p : Part) (r : Round) : Nat → State
  | 0 => s
  | fuel + 1 =>
    match s.round? p r, (s.part p).bucket? r.bucket with
    | some r, some b =>
      match r.checked[r.nextMirror]? with
      | none => s
      | some c =>
        if (r.state = .reducing ∨ r.state = .draining) ∧ (b.hasLeft → r.mleft.isSome) ∧ (b.hasRight → r.mright.isSome)
            ∧ chunkReady b.hasLeft r.mupLeft c ∧ chunkReady b.hasRight r.mupRight c
            ∧ (b.position = 0 ∨ (r.mparent.isSome ∧ r.nextMirror < r.mcreditUp)) then
          let acc := r.combine b c (childChunk b.hasLeft r.mupLeft c) (childChunk b.hasRight r.mupRight c)
          let s := if b.position = 0 then s else s.sendChunk p r.mparent b r 2 c (r.wireBytes b acc)
          let s := s.onRound p r (fun x => { x with
            mupLeft := Sparse.erase x.mupLeft c
            mupRight := Sparse.erase x.mupRight c
            nextMirror := x.nextMirror + 1
            mkept := if b.position = 0 && !x.compared.contains c then Sparse.put x.mkept c acc else x.mkept })
          let s := match s.round? p r with
            | some r => s.grantMirror p b r
            | none => s
          State.pumpMirror (s.compareChunk p r c) p r fuel
        else s
    | _, _ => s

/-- Result chunks that have come whole from the parent, in order (R346). -/
def State.pumpDown (s : State) (p : Part) (r : Round) : Nat → State
  | 0 => s
  | fuel + 1 =>
    match s.round? p r, (s.part p).bucket? r.bucket with
    | some r, some b =>
      match Sparse.find? r.down r.gotDown with
      | some k =>
        if k.whole then
          let w := r.itemSize b
          let bs := (k.bytes.take (r.itemsIn b r.gotDown * w)).zipIdx.map (fun x => (x.1, k.marks.getD (x.2 / 512) false))
          let s := s.takeResult p b r r.gotDown bs
          State.pumpDown (s.onRound p r (fun x => { x with
            down := Sparse.erase x.down r.gotDown, gotDown := x.gotDown + 1 })) p r fuel
        else s
      | none => s
    | _, _ => s

/-- Do everything a round can do now. -/
def State.pumpRound (s : State) (p : Part) (r : Round) : State :=
  let n := r.chunks + 1
  (((s.pumpUp p r n).pumpMirror p r n).pumpDown p r n).finishRound p r

/-- A checked chunk, by its place among them, that a mirror port still has to carry: this member's mirror engine has
not combined it, and it has not come whole over that port. -/
def Round.stillMirrored (r : Round) (port : Option FPort) (i c : Nat) : Bool :=
  let whole (edge : Option FPort) (m : Sparse Chunk) : Bool := decide (edge = port) && chunkReady true m c
  decide (r.nextMirror ≤ i) && !r.compared.contains c
    && (port.isNone || !(whole r.mleft r.mupLeft || whole r.mright r.mupRight))

/-- The checked chunks that a missing or lost mirror port would carry are skipped (R355): the round is marked, uses the
port no more, and the root compares them no more. -/
def State.skipChecks (s : State) (p : Part) (r : Round) (port : Option FPort) : State :=
  match s.round? p r with
  | none => s
  | some r =>
    let left := (r.checked.zipIdx.filter (fun x => r.stillMirrored port x.2 x.1)).map Prod.fst
    let s := left.foldl (fun s c => s.log (colSource r.engine) 3 (f2 r.bucket ++ f4 r.step ++ f4 c ++ f1 (portByte port))) s
    let root := decide (r.position = 0)
    s.onRound p r (fun x => { x with
      flags := if left.isEmpty then x.flags else x.flags ||| 4
      ports := x.ports.take 3 ++ (x.ports.drop 3).map (fun y => if y = port then none else y)
      compared := if root then x.compared ++ left else x.compared
      kept := if root then x.kept.filter (fun e => !left.contains e.1) else x.kept
      mkept := if root then x.mkept.filter (fun e => !left.contains e.1) else x.mkept })

end Sys2Proof.Machine
end

