-- ==== Sys2Proof/Machine/FabLost.lean ====
section
/-! DEFINITION. A fabric port that loses its messages (R307, R318, R333): how puts, gets, rounds, checkpoints and
restores on it end, and isolation after too many violations. -/

namespace Sys2Proof.Machine

/-- A put or get this module initiated ends with a status (R331): its unit is free; a chained put's LAUNCH has
already ended. -/
def State.finishMessage (s : State) (m : TxMessage) (status : BitVec 8) : State :=
  match s.packet? m.part m.packet with
  | some k =>
    if !k.ended ∧ (pktOpcode k.bytes = 0x21 ∨ pktOpcode k.bytes = 0x22) then s.endPacket m.part m.packet status
    else s.onPart m.part (fun q => { q with units := q.units.filter (fun u => decide (u.packet ≠ m.packet)) })
  | none => s.onPart m.part (fun q => { q with units := q.units.filter (fun u => decide (u.packet ≠ m.packet)) })

/-- A window is named by a message in progress. -/
def State.windowBusy (s : State) (w : Nat) : Bool :=
  allFPorts.any (fun n => (s.fab n).rxPuts.any (fun m => decide (m.window = w ∧ m.status = 0)))

/-- Windows whose deregistration waits are removed once no message in progress names them (R328). -/
def State.settleWindows (s : State) : State :=
  s.windows.foldl (fun s e =>
    match e.2.leaving with
    | some id =>
      if s.windowBusy e.1 then s
      else ({ s with windows := Sparse.erase s.windows e.1 }).endPacket e.2.part id stOk
    | none => s) s

/-- A CHECKPOINT ends before its time (R307): the count of granules acknowledged, and MIRROR_FAIL. -/
def State.failCheckpoint (s : State) (p : Part) : State :=
  match (s.part p).update.ckpt with
  | none => s
  | some j =>
    let s := s.onUpdate p (fun u => { u with ckpt := none })
    let s := s.endPacket p j.packet stAbandoned (fun k => { k with value := j.number + j.acked * 2 ^ 32 })
    s.log updSource 5 (f4 j.number ++ f1 (j.number % 2) ++ f4 j.acked ++ f1 j.port.val)

/-- A RESTORE whose reads fail ends with ABANDONED; once the slot was being copied, the state region is undefined (R308). -/
def State.failRestore (s : State) (p : Part) : State :=
  match (s.part p).update.restore with
  | none => s
  | some j =>
    let s := if j.chosen.isSome then s.scrambleRegion p else s
    (s.onUpdate p (fun u => { u with restore := none })).endPacket p j.packet stAbandoned

/-- Checkpoints and restores on a port end (R307, R308, R318). -/
def State.mirrorLost (s : State) (n : FPort) : State :=
  allParts.foldl (fun s p =>
    let u := (s.part p).update
    let s := if u.ckpt.any (fun j => decide (j.port = n)) then s.failCheckpoint p else s
    if u.restore.any (fun j => decide (j.port = n)) then s.failRestore p else s) s

/-- Rounds on a port: its primary tree fails, its mirror tree's checks are skipped (R355, R357). -/
def State.roundsLost (s : State) (n : FPort) : State :=
  allParts.foldl (fun s p =>
    ((s.part p).rounds.filter (fun r => decide (r.state ≠ .pending))).foldl (fun s r =>
      if (r.ports.take 3).contains (some n) then s.failRound p r 3 (some n)
      else if (r.ports.drop 3).contains (some n) then (s.skipChecks p r (some n)).finishRound p r
      else s) s) s

/-- The port's sequence numbers, credits, buffers and messages begin anew (R318). -/
def FabPort.fresh (q : FabPort) : FabPort :=
  { q with
    granted := List.replicate 7 0
    used := List.replicate 7 0
    returned := List.replicate 7 0
    waiting := []
    replay := []
    nextSeq := 0
    expectSeq := 0
    sendNak := false
    gap := false
    rx := []
    rxPuts := []
    rxMirror := []
    txMessages := []
    known := false
    away := false }

/-- Every message in progress on a port ends (R318). -/
def State.portLost (s : State) (n : FPort) : State :=
  let q := s.fab n
  let s := s.onFab n FabPort.fresh
  let s := q.txMessages.foldl (fun s m => s.finishMessage m stAbandoned) s
  let s := (q.rxPuts.filter (fun m => decide (m.status = 0))).foldl (fun s m =>
    s.log (fabSource n) 11 (f4 m.window ++ f2 m.tag.toNat ++ f4 m.written)) s
  ((s.settleWindows).roundsLost n).mirrorLost n

/-- A port that has counted more than FAB_VIOL_LIMIT violations within 1 ms is isolated (R333); a retrain in
progress is abandoned (R334). -/
def State.isolateCheck (s : State) (n : FPort) : State :=
  let q := s.fab n
  let v := lastMilli (s.fabTime n) q.violations
  if v.length > s.regN .fabViolLimit ∧ q.state ≠ .isolated then
    let s := (s.log (fabSource n) 9 (f4 v.length)).raiseAlert 7
    let s := s.onFab n (fun q => { q with state := .isolated, violations := [] })
    s.portLost n
  else s

end Sys2Proof.Machine
end

