-- ==== Sys2Proof/Machine/FabPut.lean ====
section
/-! DEFINITION. Put, get and windows (R328-R331): registration, the receiver's checks, the data, and the PUT and GET
packets. -/

namespace Sys2Proof.Machine

/-- Bytes of memory, each with the poison of its line. -/
def State.markedBytes (s : State) (p : Part) (va n : Nat) : List (Byte × Bool) :=
  (((linesOf va n).flatMap (fun l => let r := s.readLine p l; r.1.map (fun b => (b, r.2)))).drop (va % 64)).take n

/-! ## Windows (R328, Table 11.8) -/

/-- The checks of Table 11.8 on a message that opens on a port. -/
def State.windowStatus (s : State) (n : FPort) (put : Bool) (w offset length : Nat) : Nat :=
  match Sparse.find? s.windows w with
  | none => 1
  | some x =>
    if offset + length > x.size then 2
    else if (x.rank ≠ 0xFFFFFFFF ∧ x.rank ≠ (s.fab n).nbrRank) ∨ !bitOf x.ports.toNat n.val then 3
    else if !(if put then x.write else x.read) then 4
    else if !s.running x.part then 5
    else 0

/-- The initiator's final status (Table 11.8). -/
def putFinal (status : Nat) : BitVec 8 := if status = 0 then stOk else if status = 5 then stPartState else stHandle

/-- WINDOW_REGISTER (R328): a number already registered, memory the partition does not have, or an object outside
its subset gives HANDLE_INVALID. -/
def execWindowRegister (ring : Ring) (s : State) : Out :=
  .next (s.packetRow ring (fun _ _ bs => isPacket 0x20 bs && !bitOf (pktParam bs 1 1) 2) (fun _ _ _ => []) (fun p s k =>
    let v := pktParam k.bytes
    let w := v 0 1
    let obj : SyncObj := BitVec.ofNat 15 (v 10 2)
    let write := bitOf (v 1 1) 1
    if (Sparse.find? s.windows w).isSome || (v 10 2 ≠ 0x7FFF && !s.ownsSync p obj)
        || !(if write then s.mappedRw p (v 16 8) (v 24 8) else s.mapped p (v 16 8) (v 24 8)) then s.endPacket p k.id stHandle
    else
      let x : Window := {
        part := p
        base := v 16 8
        size := v 24 8
        read := bitOf (v 1 1) 0
        write := write
        rank := BitVec.ofNat 32 (v 2 4)
        ports := BitVec.ofNat 32 (v 6 4)
        obj := if v 10 2 = 0x7FFF then none else some obj
        leaving := none }
      ({ s with windows := Sparse.put s.windows w x }).endPacket p k.id stOk))

/-- WINDOW_DEREGISTER (R328): it takes effect once every message in progress on the window has completed. -/
def execWindowDeregister (ring : Ring) (s : State) : Out :=
  .next (s.packetRow ring (fun _ _ bs => isPacket 0x20 bs && bitOf (pktParam bs 1 1) 2) (fun _ _ _ => []) (fun p s k =>
    let w := pktParam k.bytes 0 1
    match Sparse.find? s.windows w with
      | none => s.endPacket p k.id stHandle
      | some x =>
        if x.part ≠ p ∨ x.leaving.isSome then s.endPacket p k.id stHandle
        else
          let s := s.onPacket p k.id (fun y => { y with started := true })
          ({ s with windows := Sparse.put s.windows w { x with leaving := some k.id } }).settleWindows))

/-! ## Receiving a put (R329) -/

/-- A length R329 allows. -/
def putLenOk (n : Nat) : Bool := decide (32 ≤ n ∧ n ≤ 0x1000000 ∧ n % 32 = 0)

/-- Change a put being received. -/
def State.onPut (s : State) (n : FPort) (tag : BitVec 16) (f : RxPut → RxPut) : State :=
  s.onFab n (fun q => { q with rxPuts := updateFirst (fun m => decide (m.tag = tag)) f q.rxPuts })

/-- The status that answers a put or get whose cell is a violation (R332; the code DESIGN CHOICE, log 116). -/
def vioStatus : Nat := 2

/-- A put after one more cell that is not written. -/
def RxPut.skip (m : RxPut) (c : Cell) : RxPut :=
  let w := m.written + c.payload.length
  { m with written := w, done := c.last || decide (w ≥ m.length) }

/-- A put whose cell is a violation is answered with a refusal: what it has written stays, the rest is dropped. -/
def State.refusePut (s : State) (n : FPort) (c : Cell) : State :=
  s.onPut n c.tag (fun m => if m.done then m else { m.skip c with status := if m.status = 0 then vioStatus else m.status })

/-- A mirror message being received, with whether it has had no violation (R332); its last cell ends it. -/
def State.mirrorMark (s : State) (n : FPort) (c : Cell) (ok : Bool) : State :=
  let keep (l : List (BitVec 16 × Bool)) : List (BitVec 16 × Bool) :=
    l.filter (fun m => decide (m.1 ≠ c.tag)) ++ (if c.last then [] else [(c.tag, ok)])
  s.onFab n (fun q => { q with rxMirror := keep q.rxMirror })

/-- A new put with its status. -/
def State.addPut (s : State) (n : FPort) (c : Cell) (st : Nat) : State :=
  let m : RxPut := { tag := c.tag, window := bitsOf c.target.toNat 47 40, offset := bitsOf c.target.toNat 39 0,
                     length := field c.payload 0 4, written := 0, status := st, done := c.last && decide (st ≠ 0) }
  s.onFab n (fun q => { q with rxPuts := q.rxPuts ++ [m] })

/-- Messages of the peer in progress on a port (R331): puts not acknowledged, gets whose answer is not out. -/
def FabPort.inbound (q : FabPort) : Nat :=
  q.rxPuts.length + (q.waiting.filter (fun x => decide (x.cell.type = tyGetResp) && x.cell.last)).length

/-- A PUT_OPEN is checked whole before anything is written. Only a refused put is over with its PUT_OPEN: an admitted
one waits for its bytes (log 50). -/
def State.openPut (s : State) (n : FPort) (c : Cell) : State :=
  let w := bitsOf c.target.toNat 47 40
  let offset := bitsOf c.target.toNat 39 0
  let length := field c.payload 0 4
  let q := s.fab n
  if q.rxPuts.any (fun m => decide (m.tag = c.tag)) then (s.refusePut n c).fabViolation n vioOutside c
  else if !c.first || decide (q.inbound ≥ 256) then (s.addPut n c vioStatus).fabViolation n vioOutside c
  else
    let st := if putLenOk length then s.windowStatus n true w offset length else 2
    let s := s.addPut n c st
    if st = 0 then s else s.fabViolation n vioRefused c

/-- PUT_OPEN (R329). -/
def execPutOpen (port : FPort) (s : State) : Out :=
  .next (if s.live then
    match s.headCell port tyPutOpen with
    | none => s
    | some c => ((s.consume port 2).openPut port c).isolateCheck port
  else s)

/-- A PUT_DATA's bytes are written at base + target; those of a refused put are dropped. -/
def State.takePut (s : State) (n : FPort) (c : Cell) : State :=
  match (s.fab n).rxPuts.find? (fun m => decide (m.tag = c.tag)) with
  | none => s.fabViolation n vioOutside c
  | some m =>
    let len := c.payload.length
    if m.done || c.first then (s.refusePut n c).fabViolation n vioOutside c
    else if m.status ≠ 0 then s.onPut n c.tag (fun m => m.skip c)
    else if c.target.toNat < m.offset ∨ c.target.toNat + len > m.offset + m.length
        ∨ c.last ≠ decide (m.written + len = m.length) then (s.refusePut n c).fabViolation n vioTarget c
    else
      let s := s.onPut n c.tag (fun m => { m with written := m.written + len, done := c.last })
      match Sparse.find? s.windows m.window with
      | some x => s.writeVa x.part (x.base + c.target.toNat) c.payload c.poison
      | none => s

/-- PUT_DATA (R329). -/
def execPutData (port : FPort) (s : State) : Out :=
  .next (if s.live then
    match s.headCell port tyPutData with
    | none => s
    | some c => ((s.consume port 2).takePut port c).isolateCheck port
  else s)

/-- A write to a range waits for a host cache or a page in migration. -/
def State.rangeWaits (s : State) (p : Part) (va n : Nat) : Bool :=
  s.heldWrites.any (fun h => decide (h.part = p ∧ va / 64 * 64 ≤ h.va ∧ h.va < va + n))

/-- PUT_COMPLETE (R329): the oldest put of the port has ended; an admitted one is visible, its window's object is
signalled, and then it is acknowledged. -/
def execPutComplete (port : FPort) (s : State) : Out :=
  .next (if s.live then
    match (s.fab port).rxPuts with
    | [] => s
    | m :: rest =>
      let ack := mkCell tyPutAck m.tag m.status true true false (List.replicate 32 0)
      let win := Sparse.find? s.windows m.window
      let wait := m.status = 0 && (match win with
        | some x => s.rangeWaits x.part (x.base + m.offset) m.length
        | none => false)
      if !m.done || wait then s
      else
        let s := s.onFab port (fun q => { q with rxPuts := rest })
        let s := match m.status, win with
          | 0, some x => (match x.obj with
            | some o => s.signalObj o 1 (fabSource port)
            | none => s)
          | _, _ => s
        (s.fabSend port (win.map (fun x => x.part)) [ack]).settleWindows
  else s)

/-! ## Get (R330) -/

/-- The one GET_RESP that refuses a get. -/
def State.refuseGet (s : State) (n : FPort) (c : Cell) (st : Nat) : State :=
  let p := (Sparse.find? s.windows (bitsOf c.target.toNat 47 40)).map (fun x => x.part)
  s.fabSend n p [mkCell tyGetResp c.tag (st * 2 ^ 40) true true false (List.replicate 32 0)]

/-- A cell that is a violation as it arrives is answered where its message can be identified (R332). -/
def State.answerFault (s : State) (n : FPort) (c : Cell) : State :=
  if c.type = tyPutData then s.refusePut n c
  else if c.type = tyPutOpen then
    if (s.fab n).rxPuts.any (fun m => decide (m.tag = c.tag)) then s.refusePut n c else s.addPut n c vioStatus
  else if c.type = tyGetReq then s.refuseGet n c vioStatus
  else if c.type = tyMirrorWrite then s.mirrorMark n c false
  else s

/-- GET_REQ (R330): refused with one GET_RESP, or answered in order. -/
def execGetReq (port : FPort) (s : State) : Out :=
  .next (if s.live then
    match s.headCell port tyGetReq with
    | none => s
    | some c =>
      let w := bitsOf c.target.toNat 47 40
      let offset := bitsOf c.target.toNat 39 0
      let length := field c.payload 0 4
      let st := if decide ((s.fab port).inbound ≥ 256) || !putLenOk length then vioStatus
        else s.windowStatus port false w offset length
      match Sparse.find? s.windows w, st with
      | some x, 0 =>
        let range := [(x.base + offset, length)]
        if !s.ready x.part range then s.ask x.part range
        else
          let cells := messageCells tyGetResp c.tag true true (fun o => o) (s.markedBytes x.part (x.base + offset) length)
          ((s.dropHost x.part range).consume port 2).fabSend port (some x.part) cells
      | _, _ =>
        (((s.consume port 2).fabViolation port vioRefused c).refuseGet port c st).isolateCheck port
  else s)

/-- Forget an initiated message and give its packet its status. -/
def State.endMessage (s : State) (n : FPort) (m : TxMessage) (status : Nat) : State :=
  let s := s.onFab n (fun q => { q with txMessages := q.txMessages.filter (fun x => decide (x.tag ≠ m.tag)) })
  let s := if status = 5 then s.onPacket m.part m.packet (fun k => { k with resource := 4 }) else s
  s.finishMessage m (putFinal status)

/-- A GET_RESP's data lands in the local tensor, unless a partition reset has ended the GET (R395). -/
def State.takeGet (s : State) (n : FPort) (c : Cell) : State :=
  match (s.fab n).txMessages.find? (fun m => decide (m.tag = c.tag) && m.isGet) with
  | none => s.fabViolation n vioOutside c
  | some m =>
    let st := bitsOf c.target.toNat 47 40
    let len := c.payload.length
    if st ≠ 0 then s.endMessage n m st
    else if bitsOf c.target.toNat 39 0 ≠ m.landed ∨ m.landed + len > m.length ∨ c.last ≠ decide (m.landed + len = m.length)
        ∨ c.first ≠ decide (m.landed = 0) then s.fabViolation n vioTarget c
    else
      let s := if (s.packet? m.part m.packet).any (fun k => !k.ended) then s.writeVa m.part (m.va + m.landed) c.payload c.poison else s
      if c.last then s.endMessage n m 0
      else
        let more (x : TxMessage) : TxMessage := { x with landed := x.landed + len }
        s.onFab n (fun q => { q with txMessages := updateFirst (fun x => decide (x.tag = m.tag)) more q.txMessages })

/-- GET_RESP (R330). -/
def execGetResp (port : FPort) (s : State) : Out :=
  .next (if s.live then
    match s.headCell port tyGetResp with
    | none => s
    | some c => ((s.consume port 5).takeGet port c).isolateCheck port
  else s)

/-- PUT_ACK (R329, R331). -/
def execPutAck (port : FPort) (s : State) : Out :=
  .next (if s.live then
    match s.headCell port tyPutAck with
    | none => s
    | some c =>
      let s := s.consume port 5
      match (s.fab port).txMessages.find? (fun m => decide (m.tag = c.tag) && !m.isGet) with
      | none => (s.fabViolation port vioOutside c).isolateCheck port
      | some m => s.endMessage port m (c.target.toNat % 256)
  else s)

/-! ## The PUT and GET packets (R331, Table 14.4) -/

/-- Fields of a PUT or GET, of a packet or of a LAUNCH's continuation entry. -/
def putPort (bs : List Byte) : FPort := ⟨pktParam bs 0 1 % 32, Nat.mod_lt _ (by decide)⟩
def putWindow (bs : List Byte) : Nat := pktParam bs 1 1
def putOffset (bs : List Byte) : Nat := pktParam bs 2 6
def putLength (bs : List Byte) : Nat := pktParam bs 8 4
def putLocal (bs : List Byte) : Nat := pktParam bs 12 8

/-- The memory a PUT reads. -/
def State.putRanges (s : State) (p : Part) (bs : List Byte) : List (Nat × Nat) :=
  s.handleRanges p (pktHandle bs 0) ++ (match s.checkHandle p (pktHandle bs 0) with
    | .ok d => if putLocal bs + putLength bs ≤ d.footprint then [(d.base + putLocal bs, putLength bs)] else []
    | .fail _ _ => [])

/-- Messages can go out on a port: it is up, or it retrains with its messages kept. -/
def FabPort.takesMessages (q : FabPort) : Bool := decide (q.state = .up) || decide (q.state = .limited) || q.away

/-- An initiated message. -/
def mkMessage (tag : BitVec 16) (isGet : Bool) (id : Nat) (p : Part) (va length : Nat) : TxMessage :=
  { tag := tag, isGet := isGet, packet := id, part := p, va := va, length := length, landed := 0 }

/-- Send a put: its PUT_OPEN and its data, read now, poison carried in the cells (R329, R482). -/
def State.sendPut (s : State) (p : Part) (id : Nat) (bs : List Byte) (d : Desc) : State :=
  let n := putPort bs
  let va := d.base + putLocal bs
  let tag := (s.fab n).nextTag
  let opening := mkCell tyPutOpen tag (putWindow bs * 2 ^ 40 + putOffset bs) true false false (padPayload 32 (leBytes 4 (putLength bs)))
  let cells := messageCells tyPutData tag false true (fun o => putOffset bs + o) (s.markedBytes p va (putLength bs))
  let s := s.dropHost p [(va, putLength bs)]
  let s := s.onFab n (fun q => { q with nextTag := q.nextTag + 1, txMessages := q.txMessages ++ [mkMessage tag false id p va (putLength bs)] })
  s.fabSend n (some p) (opening :: cells)

/-- The local range of a put or get is checked (R12): the descriptor, or the end of the packet. -/
def State.beginMessage (s : State) (p : Part) (k : Packet) (write : Bool) (go : Desc → State → State) : State :=
  match s.checkHandle p (pktHandle k.bytes 0) with
  | .fail st d => s.failHandle p k (pktHandle k.bytes 0) st d
  | .ok d =>
    let bad := putLocal k.bytes + putLength k.bytes > d.footprint
      || (write && !s.mappedRw p (d.base + putLocal k.bytes) (putLength k.bytes))
    if bad then s.endPacket p k.id stHandle
    else if !(s.fab (putPort k.bytes)).takesMessages then s.endPacket p k.id stAbandoned
    else go d s

/-- An admitted PUT. -/
def State.beginPut (s : State) (p : Part) (k : Packet) : State :=
  s.beginMessage p k false (fun d s => s.sendPut p k.id k.bytes d)

/-- An admitted GET: its request goes out. -/
def State.beginGet (s : State) (p : Part) (k : Packet) : State :=
  s.beginMessage p k true (fun d s =>
    let bs := k.bytes
    let n := putPort bs
    let tag := (s.fab n).nextTag
    let req := mkCell tyGetReq tag (putWindow bs * 2 ^ 40 + putOffset bs) true true false (padPayload 32 (leBytes 4 (putLength bs)))
    let m := mkMessage tag true k.id p (d.base + putLocal bs) (putLength bs)
    (s.onFab n (fun q => { q with nextTag := q.nextTag + 1, txMessages := q.txMessages ++ [m] })).fabSend n (some p) [req])

/-- A PUT or GET asks for a message slot of its port (R331, R411, R412); a port the partition may not use has no
share for it. -/
def State.messageRow (s : State) (p : Part) (k : Packet) (go : State → State) : State :=
  let n := putPort k.bytes
  if s.powerRefuses then s.refuse p k.id stPower 5 0
  else if !s.ownsFab p n.val then s.refuse p k.id stQuota 1 n.val
  else s.request p k (fabKey n.val) (putLength k.bytes) messageBytes go

/-- PUT (R329, R331). -/
def execPut (ring : Ring) (s : State) : Out :=
  .next (s.opcodeRow ring 0x21 (fun s p bs => s.putRanges p bs) (fun p s k => s.messageRow p k (fun s => s.beginPut p k)))

/-- GET (R330, R331). -/
def execGet (ring : Ring) (s : State) : Out :=
  .next (s.opcodeRow ring 0x22 (fun s p bs => s.handleRanges p (pktHandle bs 0)) (fun p s k =>
    s.messageRow p k (fun s => s.beginGet p k)))

end Sys2Proof.Machine
end

