-- ==== Sys2Proof/Machine/Gate.lean ====
section
/-! DEFINITION. Throttle depth (R422, R423): a die's effective depth, its operating point and its array issue
duty. -/

namespace Sys2Proof.Machine

/-- The partition's cap depth under which a die stands; `p` is its partition, if it has one. -/
def State.capOf (s : State) (p : Option Part) : Nat :=
  match p with
  | some p => (s.part p).capDepth
  | none => 0

/-- The effective depth of a die (R422); every die holds depth 27 while the cap is unreachable (R433). -/
def State.depth (s : State) (d : Die) (p : Option Part) : Nat :=
  let x := s.die d
  if s.power.unreachable then 27 else max (max x.prefDepth x.railDepth) (max x.thermDepth (s.capOf p))

/-- The operating point of a depth. -/
def depthOp (e : Nat) : Nat := min e 11
/-- The open slots per frame of a depth. -/
def depthDuty (e : Nat) : Nat := if e ≤ 11 then 16 else 27 - e

/-- The order in which slots of a frame open (R423). -/
def slotOrder : List Nat := [0, 8, 4, 12, 2, 10, 6, 14, 1, 9, 5, 13, 3, 11, 7, 15]

/-- Whether an array cycle lies in an open slot at duty `n`: frames of 16 slots of 256 cycles, counted from
the array's cycle 0 (DEDUCED, log 29). -/
def slotOpen (n cycle : Nat) : Bool := (slotOrder.take n).contains (cycle / 256 % 16)

end Sys2Proof.Machine
end

