-- ==== Sys2Proof/Machine/Matrix.lean ====
section
/-! DEFINITION. The matrix array (R66-R105, R129, R209, R210, R529): issue of a matrix command, preloads,
stationary loads, passes, commit points, drain-outs, visible tiles, pre-emption. Cycles are ACLK cycles of the
core's array. -/

namespace Sys2Proof.Machine

/-- The drain's element size (R82). -/
def drainSize (d : Nat) : Nat := match d with | 0 => 6 | 1 => 4 | _ => 2
/-- The drain's format code; raw INT48 has none. -/
def drainFmt (d : Nat) : Nat := if d = 1 then fp32 else bf16
/-- The drain-out interval (R82). -/
def drainInterval (n size : Nat) : Nat := ceilDiv (n * size) 288

end Sys2Proof.Machine

namespace Sys2Proof

open Machine

/-! ## The fields of a matrix command (Table 7.8) -/

def Cmd.mA (c : Cmd) : Nat := c.bits 1 15 0 * 32
def Cmd.mAFmt (c : Cmd) : Nat := c.bits 1 19 16
def Cmd.mASlot (c : Cmd) : Nat := c.bits 1 24 20
def Cmd.mAScaled (c : Cmd) : Bool := c.bit 1 25
def Cmd.mMask (c : Cmd) : Bool := c.bit 1 26
def Cmd.mB (c : Cmd) : Nat := c.bits 2 15 0 * 32
def Cmd.mBFmt (c : Cmd) : Nat := c.bits 2 19 16
def Cmd.mBSlot (c : Cmd) : Nat := c.bits 2 24 20
def Cmd.mBScaled (c : Cmd) : Bool := c.bit 2 25
def Cmd.mOut (c : Cmd) : Nat := c.bits 3 15 0 * 32
def Cmd.mDrain (c : Cmd) : Nat := c.bits 3 17 16
def Cmd.mAcc (c : Cmd) : Bool := c.bit 3 18
/-- The preload tiles read: C itself in accumulate mode. -/
def Cmd.mPreloads (c : Cmd) : Nat := if c.bit 3 18 then 1 else c.bits 3 22 19
def Cmd.mTiles (c : Cmd) : Nat := c.bits 3 31 23
def Cmd.mM (c : Cmd) : Nat := c.bits 4 15 0
def Cmd.mN (c : Cmd) : Nat := c.bits 4 31 16
def Cmd.mCombine (c : Cmd) : Bool := c.opcode = 0x31
/-- K; a combination runs no pass. -/
def Cmd.mK (c : Cmd) : Nat := if c.opcode = 0x31 then 0 else c.bits 5 15 0
def Cmd.mStart (c : Cmd) : Nat := c.bits 5 31 16
def Cmd.mHandle (c : Cmd) : Nat := c.bits 6 15 0
def Cmd.mAux (c : Cmd) : Nat := c.bits 6 31 16 * 32

/-- Fusion factors (R66). -/
def Cmd.mP (c : Cmd) : Nat := tileUnits c.mAFmt
def Cmd.mQ (c : Cmd) : Nat := tileUnits c.mBFmt
/-- K_eff and N_eff (R70). -/
def Cmd.mKeff (c : Cmd) : Nat := 144 / c.mP
def Cmd.mNeff (c : Cmd) : Nat := 144 / c.mQ
/-- Tile counts. -/
def Cmd.mTM (c : Cmd) : Nat := ceilDiv c.mM 288
def Cmd.mTN (c : Cmd) : Nat := ceilDiv c.mN c.mNeff
def Cmd.mTK (c : Cmd) : Nat := ceilDiv c.mK c.mKeff
/-- The tile after the last one the command runs (R72, R209). -/
def Cmd.mStop (c : Cmd) : Nat :=
  if c.mTiles = 0 then c.mTM * c.mTN else min (c.mTM * c.mTN) (c.mStart + c.mTiles)
/-- Row and column tile of tile t (R72). -/
def Cmd.mRowTile (c : Cmd) (t : Nat) : Nat := t % c.mTM
def Cmd.mColTile (c : Cmd) (t : Nat) : Nat := t / c.mTM
/-- Stream and stationary tiles (R210). -/
def Cmd.mStream (c : Cmd) (tm kc : Nat) : Nat := c.mA + (tm * c.mTK + kc) * 20768
def Cmd.mStat (c : Cmd) (tn kc : Nat) : Nat := c.mB + (tn * c.mTK + kc) * (32 + 72 * c.mKeff)
/-- Row pitch of elements of `size` bytes over N columns. -/
def Cmd.mPitch (c : Cmd) (size : Nat) : Nat := ceilDiv (c.mN * size) 32 * 32
/-- Where preload i's row begins (R210). -/
def Cmd.mPreload (c : Cmd) (i row : Nat) : Nat :=
  if c.mAcc then c.mOut + row * c.mPitch 6 else c.mAux + (i * c.mM + row) * c.mPitch 6
/-- Where row mask tm begins. -/
def Cmd.mMaskAt (c : Cmd) (tm : Nat) : Nat := c.mAux + c.bits 3 22 19 * c.mM * c.mPitch 6 + tm * 64
/-- Columns drained of a column tile. -/
def Cmd.mNValid (c : Cmd) (tn : Nat) : Nat := min c.mNeff (c.mN - tn * c.mNeff)

/-- The scratch regions of a matrix command (R241). -/
def Cmd.mRegions (c : Cmd) : List (Nat × Nat) :=
  let tk := c.mTK
  [(c.mOut, c.mM * c.mPitch (drainSize c.mDrain)), (c.mAux, c.bits 3 22 19 * c.mM * c.mPitch 6)]
    ++ (if c.mMask && decide (c.mTM > 0) then [(c.mMaskAt 0, (c.mTM - 1) * 64 + 36)] else [])
    ++ (if c.mCombine then [] else [(c.mA, c.mTM * tk * 20768), (c.mB, c.mTN * tk * (32 + 72 * c.mKeff))])

/-- Every region of a matrix command lies in the general area (R241). -/
def Cmd.mInArea (c : Cmd) : Bool := c.mRegions.all (fun r => decide (r.2 = 0 ∨ r.1 + r.2 ≤ generalEnd))

/-- Scales are applied: a dequantised drain of passes or preloads (R90, R129, R255). -/
def Cmd.mLive (c : Cmd) : Bool := decide (c.mDrain ≠ 0) && decide (c.mK ≠ 0 ∨ c.mPreloads ≠ 0)

/-- The slots of a matrix command whose scales are read (R210). -/
def Cmd.mSlots (c : Cmd) : List Nat :=
  (if c.mAScaled && c.mLive then (upTo c.mTM).map (c.mASlot + ·) else [])
    ++ (if c.mBScaled && c.mLive then (upTo c.mTN).map (c.mBSlot + ·) else [])

/-- The headers of the data tiles whose operand selects its descriptor's scale (R107). -/
def Cmd.mScaledHeads (c : Cmd) : List Nat :=
  (if c.mAScaled && c.mLive then (upTo c.mTM).flatMap (fun tm => (upTo c.mTK).map (c.mStream tm)) else [])
    ++ (if c.mBScaled && c.mLive then (upTo c.mTN).flatMap (fun tn => (upTo c.mTK).map (c.mStat tn)) else [])

end Sys2Proof

namespace Sys2Proof.Machine

/-- The fed rows of a row tile: within M, and with their mask bit set when masks are read (R94). -/
def Core.fedRows (core : Core) (c : Cmd) (tm : Nat) : List Nat :=
  let n := min 288 (c.mM - 288 * tm)
  if c.mMask then
    let m := leNat (core.readScratch (c.mMaskAt tm) 36)
    (upTo n).filter (fun i => bitOf m i)
  else upTo n

/-! ## Scale checks (R107, R129) -/

/-- The fields of a data tile header (Table 4.6). -/
structure DataHead where
  tag    : Nat
  handle : Nat
  fmt    : Nat
  transposed : Bool
deriving DecidableEq, Repr

/-- The data tile header at a scratch offset. -/
def Core.dataHead (c : Core) (o : Nat) : DataHead :=
  let b := c.readScratch o 32
  ⟨field b 0 2, field b 2 2, field b 9 1, bitOf (field b 12 1) 0⟩

/-- The check of one data tile, by its tag and whether its tensor is flagged first-pass, against its operand's scale
tile (Table 4.8): entries `used` must be there and usable for format `f`. No tag is compared where `head` names none. -/
def headSkew (core : Core) (operand slot role f : Nat) (used : List Nat) (span : Nat) (head : Option Nat × Bool) : Option Skew :=
  let t := core.scaleTile slot
  if head.1.any (fun x => decide (x ≠ t.tag)) then some ⟨operand, 1, head.1, t.tag, 0⟩
  else if t.role ≠ role then some ⟨operand, 2, head.1, t.tag, 0⟩
  else match used.find? (fun i => decide (i ≥ t.count)) with
    | some _ => some ⟨operand, 3, head.1, t.tag, 0⟩
    | none => (used.find? (fun i => !entryOk (core.slotEntry slot i) (some f) head.2)).map
        (fun i => ⟨operand, 4, head.1, t.tag, t.axis * span + i⟩)

/-- The check of one operand's scale tile against its data tiles; without one no tag is compared, and the scale
tile's own handle says whether the tensor is flagged first-pass (R110, R209). -/
def operandSkew (flag : Nat → Bool) (core : Core) (operand slot role f : Nat) (heads : List (Option Nat × Bool)) (used : List Nat)
    (span : Nat) : Option Skew :=
  (if heads.isEmpty then [(none, flag (core.scaleTile slot).handle)] else heads).findSome? (headSkew core operand slot role f used span)

/-- The scale check of tile t, streaming operand first; nothing for a raw drain, a unit scale, or a contraction
that is empty without preloads (R129, R209, R255). `flag` gives the first-pass flag of a handle; a tile that feeds no row
drains no column, so neither takes part in causes 3 and 4. -/
def tileSkew (flag : Nat → Bool) (core : Core) (c : Cmd) (rows : List Nat) (t : Nat) : Option Skew :=
  if !c.mLive then none
  else
    let tm := c.mRowTile t
    let tn := c.mColTile t
    let heads (f : Nat → Nat) : List (Option Nat × Bool) := (upTo c.mTK).map (fun kc =>
      let h := core.dataHead (f kc)
      (some h.tag, flag h.handle))
    let a := if c.mAScaled then operandSkew flag core 0 (c.mASlot + tm) 0 c.mAFmt (heads (c.mStream tm)) rows 288 else none
    let b := if c.mBScaled then
        operandSkew flag core 1 (c.mBSlot + tn) 1 c.mBFmt (heads (c.mStat tn))
          (if rows.isEmpty then [] else upTo (c.mNValid tn)) c.mNeff
      else none
    firstSome [a, b]

/-- A scaled operand whose descriptor's scale axis is its K axis (R107). -/
def State.axisBad (s : State) (p : Part) (core : Core) (c : Cmd) : Bool :=
  let bad (o : Nat) (k : DataHead → Nat) : Bool :=
    let h := core.dataHead o
    (s.desc p h.handle).scaleAxis = k h
  c.mLive &&
    ((c.mAScaled && (upTo c.mTM).any (fun tm => (upTo c.mTK).any (fun kc => bad (c.mStream tm kc) (fun _ => 0))))
    || (c.mBScaled && (upTo c.mTN).any (fun tn => (upTo c.mTK).any (fun kc =>
        bad (c.mStat tn kc) (fun h => if h.transposed then 0 else 1)))))

/-- The first scaled data tile whose tensor fails the handle check, with its failure (R107, R231). -/
def State.headBad (s : State) (p : Part) (core : Core) (c : Cmd) : Option (Nat × BitVec 8 × Bool) :=
  if !c.mInArea then none
  else ((c.mScaledHeads.map (fun o => (core.dataHead o).handle)).eraseDups).findSome? (fun h =>
    match s.checkHandle p h with
    | .fail st logIt => some (h, st, logIt)
    | .ok _ => none)

/-! ## Tiles in turn -/

/-- A tile just reached (R529): its fed rows, nothing read. -/
def newTile (a : ArrayState) (t : Nat) (rows : List Nat) : TileRun where
  index := t
  preloadAt := 0
  loaded := none
  loadDone := a.freeAt
  passes := 0
  acc := []
  rows := rows
  rowScales := []
  colScales := []
  scaled := false
  issueAt := a.freeAt
  preloadAtCycle := a.freeAt
  fault := none
  faultAt := 0
  commitAt := a.freeAt + 1

/-- Reach the next tile that feeds a row (R95); `fuel` bounds the tiles skipped. -/
def Core.reachTile (core : Core) (x : ArrayCmd) : Nat → ArrayCmd
  | 0 => x
  | fuel + 1 =>
    if x.cur.isSome || x.fault.isSome || decide (x.next ≥ x.stop) then x
    else
      let rows := core.fedRows x.cmd (x.cmd.mRowTile x.next)
      let y := { x with next := x.next + 1 }
      if rows.isEmpty then Core.reachTile core y fuel
      else { y with cur := some (newTile core.array x.next rows) }

/-- Reach the next tile after a change of the command. -/
def Core.withCmd (core : Core) (x : ArrayCmd) : Core :=
  { core with array := { core.array with cmd := some (core.reachTile x (x.stop - x.next + 1)) } }

/-- The scale of row m (R91): its entry in the row's scale tile; unit without one. -/
def Core.rowScale (core : Core) (c : Cmd) (tm m : Nat) : ScaleRead :=
  if c.mAScaled then
    let o := slotAt (c.mASlot + tm) + 32 + 16 * m
    ⟨BitVec.ofNat 32 (core.slotEntry (c.mASlot + tm) m).scale, core.scratchPoisoned o 16⟩
  else ⟨BitVec.ofNat 32 fpOne, false⟩
/-- The scale of column n. -/
def Core.colScale (core : Core) (c : Cmd) (tn n : Nat) : ScaleRead :=
  if c.mBScaled then
    let o := slotAt (c.mBSlot + tn) + 32 + 16 * n
    ⟨BitVec.ofNat 32 (core.slotEntry (c.mBSlot + tn) n).scale, core.scratchPoisoned o 16⟩
  else ⟨BitVec.ofNat 32 fpOne, false⟩

/-- A unit scale. -/
def unitScale : ScaleRead := ⟨BitVec.ofNat 32 fpOne, false⟩

/-! ## Faults of a tile (R13, R102, R103) -/

/-- What a tile can meet: poison at a scratch offset, an accumulator out of range, or an uncorrectable error in a store of
the array. -/
inductive TileFault where
  | poison (o : Nat)
  | overflow
  | ecc (store : Nat)
deriving DecidableEq, Repr

/-- The status a fault gives (Table 3.7). -/
def TileFault.status : TileFault → BitVec 8
  | .poison _ => stPoisoned
  | _ => stAbandoned

/-- Insert a fault into a list ordered by the cycle of detection, after those of its own cycle. -/
def insertFault (f : Nat × TileFault) : List (Nat × TileFault) → List (Nat × TileFault)
  | [] => [f]
  | g :: r => if f.1 < g.1 then f :: g :: r else g :: insertFault f r

/-- Faults in the order of their detection. -/
def inTime (fs : List (Nat × TileFault)) : List (Nat × TileFault) := fs.foldl (fun l f => insertFault f l) []

/-- The tile meets a fault: the one detected first gives its status (R103). -/
def TileRun.meets (t : TileRun) (f : Nat × TileFault) : TileRun :=
  if t.fault.isNone || decide (f.1 < t.faultAt) then { t with fault := some f.2.status, faultAt := f.1 } else t

/-- No fault of the tile was detected before a cycle: an operation of it may start there (R103). -/
def TileRun.goesOn (t : TileRun) (cycle : Nat) : Bool := t.fault.isNone || decide (cycle ≤ t.faultAt)

/-- No tile before the one in progress had a fault detected before a cycle (R103). -/
def ArrayCmd.goesOn (x : ArrayCmd) (cycle : Nat) : Bool := x.waiting.all (fun w => w.goesOn cycle)

/-- The scratch offset of the first poisoned entry among scales read. -/
def badScale (slot : Nat) (l : List (Nat × ScaleRead)) : Option Nat :=
  (l.find? (fun x => x.2.poison)).map (fun x => slotAt slot + 32 + 16 * x.1)

/-- Read the scales of a tile at a cycle (R91), with the fault of a poisoned one. -/
def Core.readScales (core : Core) (c : Cmd) (t : TileRun) (cycle : Nat) : TileRun × List (Nat × TileFault) :=
  if c.mDrain = 0 ∨ t.scaled then (t, [])
  else
    let tm := c.mRowTile t.index
    let tn := c.mColTile t.index
    let rs := t.rows.map (fun m => (m, core.rowScale c tm m))
    let cs := (upTo (c.mNValid tn)).map (fun n => (n, core.colScale c tn n))
    ({ t with
        scaled := true
        rowScales := rs.foldl (fun m x => Sparse.set unitScale m x.1 x.2) []
        colScales := cs.foldl (fun m x => Sparse.set unitScale m x.1 x.2) [] },
      ((badScale (c.mASlot + tm) rs).orElse (fun _ => badScale (c.mBSlot + tn) cs)).toList.map (fun o => (cycle, .poison o)))

/-- The command on a core's array whose module is live. -/
def State.arrayCmd (s : State) (core : CoreId) : Option ArrayCmd :=
  if s.live then (s.core core).array.cmd else none

/-- Replace the command on the array and reach the next tile. -/
def State.setArray (s : State) (core : CoreId) (x : ArrayCmd) : State := s.setCore core ((s.core core).withCmd x)

/-- The tile in progress has faulted: it runs no further, and no later tile starts (R102, R103). -/
def ArrayCmd.stopTile (x : ArrayCmd) (t : TileRun) : ArrayCmd :=
  { x with cur := none, waiting := x.waiting ++ [t], stop := x.next }

/-- The tile in progress has issued its last pass, or read its last preload with no pass to come. -/
def ArrayCmd.issued (x : ArrayCmd) (t : TileRun) : ArrayCmd := { x with cur := none, waiting := x.waiting ++ [t] }

/-- The tile in progress after an operation: it stops when a fault is detected before the cycle `next` of its next one. -/
def ArrayCmd.after (x : ArrayCmd) (t : TileRun) (next : Nat) : ArrayCmd :=
  if t.goesOn next then { x with cur := some t } else x.stopTile t

/-- An uncorrectable error in an array store at an address that the spec leaves open: a free value (log 29). -/
def State.arrayEcc (s : State) (core : CoreId) (store : Nat) : State :=
  (s.bumpFree).eccUncorrected (engineSource core .matrix) store (Config.freeValue s.freeCount)

/-- The event of a fault of tile `t`: POISON_CONSUMED of a scratch word, ACC_OVERFLOW with thread, sequence number and
tile, or ECC_UNCORRECTED. -/
def State.logFault (s : State) (core : CoreId) (x : ArrayCmd) (t : Nat) : TileFault → State
  | .poison o => s.poisonConsumed (engineSource core .matrix) x.thread.toNat x.seq.toNat (scratchVa core o)
  | .overflow => s.log (engineSource core .matrix) 1 (f4 x.thread.toNat ++ f4 x.seq.toNat ++ f4 t)
  | .ecc store => s.arrayEcc core store

/-- Log every fault of a tile that an operation met, in the order of detection; the first one of the tile decides its status
(R13, R103). -/
def State.logFaults (s : State) (core : CoreId) (x : ArrayCmd) (t : Nat) (fs : List (Nat × TileFault)) : State :=
  (inTime fs).foldl (fun s f => s.logFault core x t f.2) s

/-- The range of an accumulator (R86). -/
def accFits (v : Int) : Bool := decide (-(2 : Int) ^ 47 ≤ v ∧ v < (2 : Int) ^ 47)

/-! ## The end of a command -/

/-- The command ends when no tile is in progress, waiting or draining: OK, the fault, or PREEMPTED. One whose context
was freed by a partition reset writes no status (R395). -/
def State.finishArray (s : State) (core : CoreId) : State :=
  match (s.core core).array.cmd with
  | none => s
  | some x =>
    if x.cur.isNone && x.waiting.isEmpty && x.drains.isEmpty && (x.fault.isSome || decide (x.next ≥ x.stop)) then
      let (st, tile) := x.fault.getD (stOk, 0)
      let s := if (s.stream x.thread .matrix).cur.isNone then s
        else (s.endRun x.thread .matrix st tile x.flags).writeExc x.thread .matrix x.exc
      let c := s.core core
      s.setCore core { c with array := { c.array with cmd := none, held := none } }
    else s

/-! ## Issue -/

/-- The first tile whose scale check fails. -/
def State.firstSkew (s : State) (p : Part) (core : Core) (c : Cmd) : Option (Nat × Skew) :=
  ((upTo (c.mStop - c.mStart)).map (· + c.mStart)).findSome? (fun t =>
    (tileSkew (fun h => (s.desc p h).firstPass) core c (core.fedRows c (c.mRowTile t)) t).map (fun k => (t, k)))

/-- The command to issue: a pre-empted one again from its tile with its own number (R100, R170), or the
queue's head. -/
def State.matrixHead (s : State) (t : Thread) (op : Nat) : Option (QEntry × Cmd × Option Running) :=
  match (s.stream t .matrix).reissue with
  | some r => if s.mayIssue t .matrix && s.hasTurn t .matrix && decide (r.cmd.opcode = op) then some (⟨r.cmd, r.pc, .sound⟩, r.cmd, some r) else none
  | none => (s.issuable t .matrix op).map (fun x => (x.1, x.2, none))

/-- Put a matrix command in flight: a reissued one leaves its place, a new one leaves the queue. -/
def State.startMatrix (s : State) (t : Thread) (q : QEntry) (cmd : Cmd) (again : Option Running) : State :=
  match again with
  | some r =>
    let x := s.stream t .matrix
    s.setStream t .matrix { x with cur := some r, reissue := none }
  | none => s.issueOpen t .matrix q cmd

/-- End a matrix command at issue with a status and no effect. -/
def State.matrixFail (s : State) (t : Thread) (q : QEntry) (cmd : Cmd) (again : Option Running) (st : BitVec 8) (tile : Nat := 0) : State :=
  ((s.startMatrix t q cmd again).endRun t .matrix st tile 0).writeExc t .matrix none

/-- End a matrix command whose handle fails its check, with the events of R229 and R483. -/
def State.matrixHandleFail (s : State) (t : Thread) (q : QEntry) (cmd : Cmd) (again : Option Running) (h : Nat) (st : BitVec 8)
    (logIt : Bool) : State :=
  let src := engineSource (threadCore t) .matrix
  let s := s.matrixFail t q cmd again st
  let s := if logIt then s.descCheck src h else s
  if st = stPoisoned then s.poisonConsumed src t.toNat (s.stream t .matrix).count.toNat (s.descAddr (s.threadPart t) h) else s

/-- The handles that the scaled data tiles name, and those of a combination's scale tiles. -/
def Core.mNamed (core : Core) (cmd : Cmd) : List Nat :=
  let heads := if cmd.mInArea then cmd.mScaledHeads.map (fun o => (core.dataHead o).handle) else []
  let tiles := if cmd.mTK = 0 then (cmd.mSlots.filter (fun n => decide (n ≤ 23))).map (fun n => (core.scaleTile n).handle) else []
  (heads ++ tiles).eraseDups

/-- The memory a matrix command reads at issue: the output tensor's descriptor and those of its scaled data tiles and scale tiles. -/
def State.matrixReads (s : State) (p : Part) (core : Core) (cmd : Cmd) : List (Nat × Nat) :=
  s.handleRanges p cmd.mHandle ++ (core.mNamed cmd).flatMap (s.handleRanges p)

/-- A format the array does not take, a data tile of another format, or a scale axis on K (R107, R210). -/
def State.matrixFmtBad (s : State) (p : Part) (core : Core) (cmd : Cmd) : Bool :=
  cmd.mAFmt > 7 || cmd.mBFmt > 7 ||
    (cmd.mInArea &&
      ((upTo cmd.mTM).any (fun tm => (upTo cmd.mTK).any (fun kc => decide ((core.dataHead (cmd.mStream tm kc)).fmt ≠ cmd.mAFmt)))
        || (upTo cmd.mTN).any (fun tn => (upTo cmd.mTK).any (fun kc => decide ((core.dataHead (cmd.mStat tn kc)).fmt ≠ cmd.mBFmt)))
        || s.axisBad p core cmd))

/-- Issue a MATMUL or an MCOMBINE (R73, R74, R107, R129, R209, R210, R255, Table 8.10). A reissued one keeps the numeric
control word of its issue (R49, R100). -/
def State.issueMatrix (s : State) (t : Thread) (op : Nat) : State :=
  match s.matrixHead t op with
  | none => s
  | some (q, cmd, again) =>
    let p := s.threadPart t
    let cid := threadCore t
    let core := s.core cid
    let src := engineSource cid .matrix
    let ncw := match again with
      | some r => r.ncw
      | none => (s.context t).ncw
    if core.array.cmd.isSome then s
    else if s.signalBad t cmd then s.matrixFail t q cmd again stHandle
    else
      let ranges := s.matrixReads p core cmd
      if !s.ready p ranges then s.askFor t .matrix ranges
      else
        let checked : Checked := if cmd.mHandle = 0 then .ok (parseDesc 0 []) else s.checkHandle p cmd.mHandle
        match checked with
        | .fail st logIt => s.matrixHandleFail t q cmd again cmd.mHandle st logIt
        | .ok d =>
          let tooMany := cmd.mAcc && decide (cmd.mTM * cmd.mTN > 1)
          let overs := if cmd.mHandle = 0 then [] else
            [(0, cmd.mN, d.maxExtent 0), (1, cmd.mM, d.maxExtent 1)].filter (fun x => decide (x.1 < d.rank ∧ x.2.1 > x.2.2))
          if cmd.mSlots.any (fun n => decide (n > 23)) then s.matrixFail t q cmd again stHandle
          else if let some (h, st, logIt) := s.headBad p core cmd then s.matrixHandleFail t q cmd again h st logIt
          else if tareOf ncw || s.matrixFmtBad p core cmd then s.matrixFail t q cmd again stFormat
          else if !overs.isEmpty then
            let x := overs.headD (0, 0, 0)
            (s.matrixFail t q cmd again stShapeOver).shapeOver src cmd.mHandle x.1 x.2.1 x.2.2
          else if cmd.mTK > 8 then
            (s.matrixFail t q cmd again stShapeOver).shapeOver src cmd.mHandle 0xFF cmd.mK (8 * cmd.mKeff)
          else if tooMany then
            (s.matrixFail t q cmd again stShapeOver).shapeOver src cmd.mHandle 0xFE (cmd.mTM * cmd.mTN) 1
          else if !cmd.mInArea then s.matrixFail t q cmd again stScratch
          else if cmd.mM = 0 ∨ cmd.mN = 0 ∨ cmd.mStart ≥ cmd.mTM * cmd.mTN then s.matrixFail t q cmd again stEmpty
          else if cmd.mAcc ∧ cmd.mK = 0 ∧ !cmd.mCombine then s.matrixFail t q cmd again stOk
          else match s.firstSkew p core cmd with
            | some (tile, k) =>
              (s.matrixFail t q cmd again stSkew tile).logSkew cid (s.stream t .matrix).count.toNat tile k
            | none =>
              let s := (s.startMatrix t q cmd again).writeExc t .matrix none
              let c := s.core cid
              let x : ArrayCmd := {
                thread := t, cmd := cmd, combine := cmd.mCombine, serving := servingOf ncw,
                seq := (match again with | some r => r.seq | none => (s.stream t .matrix).count),
                e0 := if cmd.mHandle = 0 then cmd.mN else d.max.getD 0 0,
                outHandle := BitVec.ofNat 16 cmd.mHandle,
                outBytes := if cmd.mHandle = 0 then [] else s.readVa p (s.descAddr p cmd.mHandle) 128,
                firstPass := (core.mNamed cmd).foldl (fun m h => Sparse.set false m h (s.desc p h).firstPass) [],
                scales := if cmd.mHandle = 0 then 0 else s.scaleBase p d,
                first := cmd.mStart, stop := cmd.mStop, next := cmd.mStart, cur := none, waiting := [], drains := [],
                visible := 0, fault := none, flags := 0, exc := none }
              (s.setCore cid (c.withCmd x)).finishArray cid

/-- MATMUL (R209). -/
def execMatmul (t : Thread) (s : State) : Out := onThread t s (fun s => s.issueMatrix t 0x30)
/-- MCOMBINE (R209). -/
def execMcombine (t : Thread) (s : State) : Out := onThread t s (fun s => s.issueMatrix t 0x31)

/-! ## Preloads -/

/-- The preload rows of a tile, in order: tile 0's rows, then tile 1's. -/
def TileRun.preloadsLeft (t : TileRun) (c : Cmd) : Bool := decide (t.preloadAt < c.mPreloads * t.rows.length)

/-- The drains still to read a row. -/
def ArrayCmd.drainPending (x : ArrayCmd) (m : Nat) : Bool :=
  x.drains.any (fun d => d.rows.contains m && !d.done.contains m)
    || x.waiting.any (fun w => w.fault.isNone && w.rows.contains m)

/-- A pre-emption is asked for: no tile starts, and one not past its point of no return goes no further (R99). -/
def State.tileBarred (s : State) (x : ArrayCmd) : Bool := (s.context x.thread).preempt.isSome

/-- PRELOAD_READ (R87, R529): the next preload row is read into the accumulators, once the earlier tiles'
drain-outs have read that row. A tile with no pass reads its scales as its preload reads begin (R91). -/
def execPreloadRead (core : CoreId) (ecc : Bool) (s : State) : Out :=
  onCore core s (fun s =>
    match s.arrayCmd core with
    | none => s
    | some x =>
      match x.cur with
      | none => s
      | some t =>
        let c := x.cmd
        let co := s.core core
        let i := t.preloadAt / t.rows.length
        let m := t.rows.getD (t.preloadAt % t.rows.length) 0
        let n := c.mNValid (c.mColTile t.index)
        let r := drainInterval n 6
        let cycle := max (if t.preloadAt = 0 then t.preloadAtCycle else t.preloadAtCycle + r) (Sparse.get 0 co.array.rowReadAt m + 1)
        if !t.preloadsLeft c || x.drainPending m || !x.goesOn cycle || s.tileBarred x then s
        else
          let (t, bad) := if c.mTK = 0 ∧ t.preloadAt = 0 then co.readScales c t cycle else (t, [])
          let o := c.mPreload i (288 * c.mRowTile t.index + m) + c.mColTile t.index * c.mNeff * 6
          let row := co.readScratch o (6 * n)
          let sums := (upTo n).map (fun k =>
            (m * 144 + k, (if i = 0 then 0 else Sparse.get 0 t.acc (m * 144 + k)) + signed 48 (field row (6 * k) 6)))
          let met := if !bad.isEmpty then bad
            else if co.scratchPoisoned o (6 * n) then [(cycle, .poison o)]
            else if ecc ∧ i > 0 then [(cycle, .ecc 4)]
            else if sums.any (fun v => !accFits v.2) then [(cycle, .overflow)]
            else []
          if !met.isEmpty then
            ((s.setArray core (x.stopTile (met.foldl TileRun.meets t))).logFaults core x t.index met).finishArray core
          else
            let t := { t with
              acc := sums.foldl (fun a v => Sparse.set 0 a v.1 v.2) t.acc
              preloadAt := t.preloadAt + 1, preloadAtCycle := cycle, commitAt := cycle + 1 }
            if c.mTK = 0 ∧ !t.preloadsLeft c then s.setArray core (x.issued t)
            else s.setArray core { x with cur := some t })

/-! ## Loads and passes -/

/-- The chunk that the tile's next pass uses. -/
def TileRun.chunk (t : TileRun) : Nat := t.passes

/-- The next pass needs a load: the registers hold another chunk, or the command has several chunks (R78). -/
def ArrayState.needsLoad (a : ArrayState) (c : Cmd) (t : TileRun) : Bool :=
  !(t.loaded = some t.chunk || (c.mTK = 1 && a.held = some (c.mColTile t.index, t.chunk)))

/-- STATIONARY_LOAD (R76, R77, R96, R97): 144 cycles from the cycle after the last A-row issue; rows beyond
K_valid and columns beyond N_valid are zero. A parity error shows in the cycle after the last row is loaded. -/
def execStationaryLoad (core : CoreId) (upset : ArrayUpset) (s : State) : Out :=
  onCore core s (fun s =>
    match s.arrayCmd core with
    | none => s
    | some x =>
      match x.cur with
      | none => s
      | some t =>
        let c := x.cmd
        let co := s.core core
        let start := co.array.freeAt
        if decide (t.passes ≥ c.mTK) || !co.array.needsLoad c t || !x.goesOn start || (decide (t.passes = 0) && s.tileBarred x) then s
        else
          let tn := c.mColTile t.index
          let kc := t.chunk
          let kv := min c.mKeff (c.mK - kc * c.mKeff)
          let nv := c.mNValid tn
          let base := c.mStat tn kc + 32
          let bad := ((upTo kv).find? (fun k => co.scratchPoisoned (base + 72 * k) 72)).toList.map (fun k =>
            (start + k * c.mP, TileFault.poison (base + 72 * k)))
          let met := bad ++ (if upset = .parity then [(start + 144, .ecc 5)] else [])
          let cells := (upTo kv).flatMap (fun k =>
            let row := co.readScratch (base + 72 * k) 72
            (upTo nv).map (fun n => (k * 144 + n, intOf c.mBFmt (getElem c.mBFmt row n))))
          let a := { co.array with
            stationary := cells.foldl (fun m v => Sparse.set 0 m v.1 v.2) []
            held := some (tn, kc) }
          let t := met.foldl TileRun.meets { t with loaded := some kc, loadDone := start + 144 }
          let x' := if !bad.isEmpty then x.stopTile t else x.after t (start + 144 + b2n (decide (upset = .parity)))
          (((s.setCore core { co with array := a }).setArray core x').logFaults core x t.index met).finishArray core)

/-- A pass under way: the accumulators so far and the faults met, with the tile they belong to. -/
structure PassRun where
  tile : TileRun
  acc  : Sparse Int
  met  : List (Nat × TileFault)

/-- A pass meets a fault. -/
def PassRun.meets (r : PassRun) (f : Nat × TileFault) : PassRun := { r with tile := r.tile.meets f, met := r.met ++ [f] }

/-- A-row `m` of a pass, issued at `cycle`: nothing once a fault was detected before (R103); its products are added into its
accumulators 147 cycles on (R68, Table 3.3). -/
def Core.feedRow (co : Core) (c : Cmd) (index kc : Nat) (fresh : Bool) (r : PassRun) (m cycle : Nat) : PassRun :=
  let tn := c.mColTile index
  let kv := min c.mKeff (c.mK - kc * c.mKeff)
  let o := c.mStream (c.mRowTile index) kc + 32 + 72 * m
  if !r.tile.goesOn cycle then r
  else if co.scratchPoisoned o 72 then r.meets (cycle, .poison o)
  else
    let row := co.readScratch o 72
    let as := (upTo kv).map (fun k => intOf c.mAFmt (getElem c.mAFmt row k))
    let sums := (upTo (c.mNValid tn)).map (fun n =>
      (m * 144 + n, (if fresh then 0 else Sparse.get 0 r.acc (m * 144 + n))
        + as.zipIdx.foldl (fun v a => v + a.1 * Sparse.get 0 co.array.stationary (a.2 * 144 + n)) 0))
    if sums.any (fun v => !accFits v.2) then r.meets (cycle + 147, .overflow)
    else { r with acc := sums.foldl (fun a v => Sparse.set 0 a v.1 v.2) r.acc }

/-- Run one pass that issues its first A-row at cycle `S`: every fed row's products are added into its
accumulators (R68, R79); the last pass reads the scales and fixes the drain-out's cycles (R80, R81, R91). Of the faults
detected in one cycle the scales' comes first, then a parity error, then those of rows (log 29). -/
def State.runPass (s : State) (core : CoreId) (x : ArrayCmd) (t : TileRun) (S : Nat) (upset : ArrayUpset) : State :=
  let c := x.cmd
  let co := s.core core
  let fresh := t.passes = 0 && c.mPreloads = 0
  let last := decide (t.passes + 1 ≥ c.mTK)
  let (t, bad) := if last then co.readScales c t S else (t, [])
  let bad := bad ++ (if upset = .parity then [(S, .ecc 5)] else if upset = .drainEcc ∧ !fresh then [(S + 147, .ecc 4)] else [])
  let r := t.rows.zipIdx.foldl (fun r m => co.feedRow c t.index t.chunk fresh r m.1 (S + m.2))
    ⟨bad.foldl TileRun.meets t, if fresh then [] else t.acc, bad⟩
  let free := S + t.rows.length
  let t := { r.tile with acc := r.acc, passes := t.passes + 1, issueAt := S, commitAt := free + 148 }
  let a := { co.array with freeAt := free }
  let a := if last && t.fault.isNone then
      let D := max (t.commitAt + 1) (a.lastRead + 1)
      let i := drainInterval (c.mNValid (c.mColTile t.index)) (drainSize c.mDrain)
      { a with
        rowReadAt := t.rows.zipIdx.foldl (fun m v => Sparse.set 0 m v.1 (D + i * v.2)) a.rowReadAt
        lastRead := D + i * (t.rows.length - 1) }
    else a
  let s := s.setCore core { co with array := a }
  ((s.setArray core (if last then x.issued t else x.after t free)).logFaults core x t.index r.met).finishArray core

/-- A drain in a dequantised format into a named tensor collects (R93). -/
def ArrayCmd.collects (x : ArrayCmd) : Bool := decide (x.cmd.mDrain ≠ 0) && decide (x.outHandle ≠ 0)

/-- The die's Gauger holds back new tiles of collection points (R142). -/
def State.tileHeld (s : State) (core : CoreId) (x : ArrayCmd) : Bool :=
  x.collects && decide ((s.die (coreDie core)).held.length ≥ 4096)

/-- TILE_FIRST_PASS_ISSUE (R83, R98, R99, R423, R529): in an open slot, after the load, the last preload row and
the earlier tiles' drain-out reads of every row it writes, while no pre-emption is asked for. -/
def execTileFirstPassIssue (core : CoreId) (cycle : Nat) (upset : ArrayUpset) (s : State) : Out :=
  onCore core s (fun s =>
    match s.arrayCmd core with
    | none => s
    | some x =>
      match x.cur with
      | none => s
      | some t =>
        let c := x.cmd
        let a := (s.core core).array
        let duty := depthDuty (s.depth (coreDie core) (s.partOfCore core))
        if decide (t.passes = 0 ∧ c.mTK > 0) && !t.preloadsLeft c && !a.needsLoad c t
            && decide (cycle ≥ (if t.loaded.isSome then t.loadDone else a.freeAt))
            && (c.mPreloads = 0 || decide (cycle > t.preloadAtCycle))
            && t.rows.zipIdx.all (fun v => decide (cycle + v.2 + 148 > Sparse.get 0 a.rowReadAt v.1))
            && slotOpen duty cycle && !s.tileHeld core x && x.goesOn cycle && !s.tileBarred x then
          s.runPass core x t cycle upset
        else s)

/-- PASS_ISSUE (R77, R79): a further pass issues in the cycle after its load. -/
def execPassIssue (core : CoreId) (upset : ArrayUpset) (s : State) : Out :=
  onCore core s (fun s =>
    match s.arrayCmd core with
    | none => s
    | some x =>
      match x.cur with
      | none => s
      | some t =>
        if decide (t.passes > 0 ∧ t.passes < x.cmd.mTK) && decide (t.loaded = some t.chunk) && x.goesOn t.loadDone then
          s.runPass core x t t.loadDone upset
        else s)

/-! ## Commit points -/

/-- The command's end becomes the fault of a tile: later tiles are given up (R103). -/
def ArrayCmd.failAt (x : ArrayCmd) (st : BitVec 8) (t : Nat) : ArrayCmd :=
  { x with fault := some (st, t), cur := none, waiting := [], stop := x.next }

/-- The tile whose commit point comes next: the oldest waiting one, or a tile with neither preload nor pass
(R529). -/
def ArrayCmd.committing (x : ArrayCmd) : Option (TileRun × ArrayCmd) :=
  match x.waiting with
  | t :: r => some (t, { x with waiting := r })
  | [] =>
    match x.cur with
    | some t => if x.cmd.mTK = 0 ∧ x.cmd.mPreloads = 0 then some (t, { x with cur := none }) else none
    | none => none

/-- TILE_COMMIT_POINT (R80, R102, R103, R129, R529): the tile is written, or abandoned with its fault or a
scale skew. A tile with no pass passes its point of no return here (R99); issue gating, which R423 gives to first passes,
does not hold it (DEDUCED, log 99). -/
def execTileCommitPoint (core : CoreId) (s : State) : Out :=
  onCore core s (fun s =>
    match s.arrayCmd core with
    | none => s
    | some x =>
      match x.committing with
      | none => s
      | some (t, y) =>
        let c := x.cmd
        let co := s.core core
        let noPass := decide (c.mTK = 0)
        let t := if noPass && decide (c.mPreloads = 0) then
            { t with scaled := true, commitAt := max (co.array.freeAt + 1) (t.rows.foldl (fun a m => max a (Sparse.get 0 co.array.rowReadAt m)) 0) }
          else t
        if noPass && (t.rows.any y.drainPending || s.tileHeld core x || s.tileBarred x) && t.fault.isNone then s
        else match t.fault with
          | some st => (s.setArray core (y.failAt st t.index)).finishArray core
          | none =>
            match tileSkew (fun h => Sparse.get false x.firstPass h) co c t.rows t.index with
            | some k => ((s.setArray core (y.failAt stSkew t.index)).logSkew core x.seq.toNat t.index k).finishArray core
            | none =>
              let tn := c.mColTile t.index
              let r := drainInterval (c.mNValid tn) (drainSize c.mDrain)
              let a := co.array
              let D := if noPass then max (t.commitAt + 1) (a.lastRead + 1) else Sparse.get 0 a.rowReadAt (t.rows.headD 0)
              let d : DrainRun := {
                index := t.index, start := D, interval := r, rows := t.rows, done := [], acc := t.acc,
                rowScales := t.rowScales, colScales := t.colScales, odd := [] }
              let a := if noPass then { a with
                  rowReadAt := t.rows.zipIdx.foldl (fun m v => Sparse.set 0 m v.1 (D + r * v.2)) a.rowReadAt
                  lastRead := D + r * (t.rows.length - 1) } else a
              let s := s.setCore core { co with array := a }
              s.setArray core { y with drains := y.drains ++ [d] })

/-! ## Drain-out -/

/-- One dequantised element (R90, R92): the written bits, OVERFLOW or INVALID, and whether it is invalid. -/
def drainElem (f : Nat) (mode : Rnd) (acc : Int) (sa sw : Word) : Elem :=
  let sc := (mulVal (v32 sa.toNat) (v32 sw.toNat)).to fp32 .even
  match v32 sc.bits with
  | .nan _ => invalid f 5
  | .inf n => if acc = 0 then invalid f 5 else { bits := (if n != decide (acc < 0) then fmtSign f else 0) + fmtInf f }
  | .fin n m e =>
    if acc = 0 ∨ m = 0 then { bits := 0 }
    else
      let r := roundFloat f mode (n != decide (acc < 0)) (acc.natAbs * m) e
      { r with flags := r.flags &&& flOverflow }

/-- The element of a drained row: a raw drain writes the accumulator; without passes or preloads the sums are
exactly zero (R255). -/
def ArrayCmd.element (x : ArrayCmd) (d : DrainRun) (m n : Nat) : Elem :=
  let acc := Sparse.get 0 d.acc (m * 144 + n)
  if x.cmd.mDrain = 0 then { bits := unsigned 48 acc }
  else if x.cmd.mK = 0 ∧ x.cmd.mPreloads = 0 then { bits := 0 }
  else drainElem (drainFmt x.cmd.mDrain) (if x.serving then .away else .even) acc
    (Sparse.get unitScale d.rowScales m).bits (Sparse.get unitScale d.colScales n).bits

/-- The next drained row in row order. -/
def DrainRun.nextRow (d : DrainRun) : Option Nat := d.rows.find? (fun m => !d.done.contains m)

/-- DRAIN_OUT_ROW_READ (R81, R90, R92, R104): one row is converted and written; an element whose accumulator
has an uncorrectable error is written poisoned with a free value. -/
def execDrainOutRowRead (core : CoreId) (badColumns : List Nat) (s : State) : Out :=
  onCore core s (fun s =>
    match s.arrayCmd core with
    | none => s
    | some x =>
      match x.drains with
      | [] => s
      | _ =>
        match takeFirst (fun d => (DrainRun.nextRow d).isSome) x.drains with
        | none => s
        | some (d, _) =>
          match d.nextRow with
          | none => s
          | some m =>
            let c := x.cmd
            let tm := c.mRowTile d.index
            let tn := c.mColTile d.index
            let size := drainSize c.mDrain
            let row := 288 * tm + m
            let o := c.mOut + row * c.mPitch size + tn * c.mNeff * size
            let n := c.mNValid tn
            let bad (k : Nat) : Bool := badColumns.contains k
            let es := (upTo n).map (fun k =>
              if bad k then { bits := Config.freeValue (s.freeCount + k) % 2 ^ (8 * size) } else x.element d m k)
            let bytes := es.zipIdx.flatMap (fun e => (leBytes size e.1.bits).map (fun b => (b, bad e.2)))
            let inv := (es.zipIdx.find? (fun e => e.1.cause.isSome)).map (fun e =>
              (⟨x.seq, BitVec.ofNat 32 d.index, row * x.e0 + tn * c.mNeff + e.2, e.2, 5⟩ : FirstExc))
            let exc := match x.exc, inv with
              | none, e => e
              | some a, some b => if b.index < a.index then some b else some a
              | a, none => a
            let odd := (upTo n).foldl (fun a k => if bad k then Sparse.put a (m * 144 + k) (es.getD k { bits := 0 }).bits else a) d.odd
            let d' := { d with done := d.done ++ [m], odd := odd }
            let y := { x with
              drains := x.drains.map (fun z => if z.index = d.index then d' else z)
              flags := es.foldl (fun f e => f ||| e.flags) x.flags, exc := exc }
            let s := s.putCore core (fun co => co.writeMarked o bytes)
            let s := { s with freeCount := s.freeCount + n }
            let s := (badColumns.filter (fun k => decide (k < n))).foldl (fun s _ => s.arrayEcc core 4) s
            s.setArray core y)

/-- What a tile's drained elements give the statistics (R93, R136). -/
def ArrayCmd.observed (x : ArrayCmd) (d : DrainRun) : List Obs :=
  let c := x.cmd
  let f := drainFmt c.mDrain
  let tn := c.mColTile d.index
  d.rows.flatMap (fun m => (upTo (c.mNValid tn)).map (fun n =>
    let bits := match Sparse.find? d.odd (m * 144 + n) with
      | some b => b
      | none => (x.element d m n).bits
    obsWritten f (((288 * c.mRowTile d.index + m) * x.e0 + tn * c.mNeff + n) % 2 ^ 48) { bits := bits }))

/-- TILE_VISIBLE (R81, R93, R137): every row is in scratch; the tile counts, and its partial goes to Gauger.
After the last tile the command ends. -/
def execTileVisible (core : CoreId) (s : State) : Out :=
  onCore core s (fun s =>
    match s.arrayCmd core with
    | none => s
    | some x =>
      match x.drains with
      | [] => s
      | d :: rest =>
        if d.nextRow.isSome then s
        else
          let s := s.setArray core { x with drains := rest, visible := x.visible + 1 }
          let p := s.threadPart x.thread
          let s := if x.collects then
              let desc := parseDesc x.outHandle.toNat x.outBytes
              s.sendPartial (mkPartial p desc x.scales true true (x.observed d)
                (if (s.stream x.thread .matrix).cur.isSome then some (x.thread, .matrix) else none))
            else s
          s.finishArray core)

/-! ## Pre-emption -/

/-- The first tile not past its point of no return (R99). -/
def ArrayCmd.notStarted (x : ArrayCmd) : Option Nat :=
  match x.waiting.find? (fun t => decide (x.cmd.mTK = 0) && t.fault.isNone) with
  | some t => some t.index
  | none =>
    match x.cur with
    | some t => if t.passes = 0 then some t.index else if x.next < x.stop then some x.next else none
    | none => if x.next < x.stop then some x.next else none

/-- PREEMPTION_TAKES_EFFECT (R99, R105): at a tile boundary, no further tile starts; a tile not past its point
of no return is given up, and the command will end PREEMPTED with the first tile not started. -/
def execPreemptionTakesEffect (core : CoreId) (s : State) : Out :=
  onCore core s (fun s =>
    match s.arrayCmd core with
    | none => s
    | some x =>
      let running := match x.cur with
        | some t => decide (t.passes > 0)
        | none => false
      if (s.context x.thread).preempt.isNone || x.fault.isSome || running || x.waiting.any (fun t => t.fault.isSome) then s
      else match x.notStarted with
        | none => s
        | some t =>
          let y := { x with cur := none, waiting := x.waiting.filter (fun w => decide (w.passes > 0)), next := t, stop := t,
                            fault := some (stPreempted, t) }
          (s.setArray core y).finishArray core)

end Sys2Proof.Machine
end

