-- ==== Sys2Proof/Machine/Optimiser.lean ====
section
/-! DEFINITION. The arithmetic of the Update Die (R283-R294): roundings of exact expressions, the optimiser rules,
moments under granule scales, learned scale entries, working weights. Numbers are FP32 and F48 bits. -/

namespace Sys2Proof.Machine

/-! ## Exact expressions -/

/-- Product and sum of values, NaN where the operation is invalid. -/
def vMul (a b : Val) : Val := match mulVal a b with | .val v => v | .bad _ => .nan false
def vAdd (a b : Val) : Val := match addVal a b with | .val v => v | .bad _ => .nan false

/-- One rounding of an exact expression to F48, ties to even. -/
def r48 (v : Val) : Nat := (toFloat f48 .even v).bits
/-- The value of F48 bits. -/
def v48 (bits : Nat) : Val := decodeVal f48 bits

/-- A square root, exact to 2^-160 with a last bit that says whether more follows: every rounding to FP32 of it, or
of it plus an FP32 value, is that of the exact root. -/
def vSqrt (v : Val) : Val :=
  match v with
  | .nan _ => .nan false
  | .inf n => if n then .nan false else .inf false
  | .fin n m e =>
    if m = 0 then .fin n 0 0
    else if n then .nan false
    else
      let k := e + 320
      let sq := if k ≥ 0 then m * 2 ^ k.toNat else m / 2 ^ (-k).toNat
      let r := Nat.sqrt sq
      .fin false (2 * r + (if r * r = sq ∧ k ≥ 0 then 0 else 1)) (-161)

/-- An exactly rounded quotient of FP32 values. -/
def div32 (a b : Nat) : Nat :=
  let s (n : Bool) : Nat := if n then fmtSign fp32 else 0
  match v32 a, v32 b with
  | .nan _, _ => fmtNan fp32
  | _, .nan _ => fmtNan fp32
  | .inf _, .inf _ => fmtNan fp32
  | .inf n, .fin n2 _ _ => s (n != n2) + fmtInf fp32
  | .fin n _ _, .inf n2 => s (n != n2)
  | .fin n1 m1 e1, .fin n2 m2 e2 =>
    if m2 = 0 then (if m1 = 0 then fmtNan fp32 else s (n1 != n2) + fmtInf fp32)
    else if m1 = 0 then s (n1 != n2)
    else s (n1 != n2) + divExact fp32 m1 e1 m2 e2

/-- FP32 bits of a finite or infinite magnitude; a NaN's are above both. -/
def magBits (b : Nat) : Nat := b % 2 ^ 31
/-- The largest magnitude of a list; NaN does not count. -/
def maxOf (l : List Nat) : Nat := l.foldl (fun a b => if (v32 b).isNan then a else Nat.max a (magBits b)) 0

/-! ## The rules (R292) -/

/-- What an UPDATE_STEP gives every element: lr, eps, beta1, beta2, the clip factor, 1 − beta1, 1 − beta2, and lr × wd. -/
structure Hyper where
  lr   : Nat
  eps  : Nat
  b1   : Nat
  b2   : Nat
  clip : Nat
  b1c  : Nat
  b2c  : Nat
  a    : Nat
deriving DecidableEq, Repr

/-- rne32(1 − x). -/
def oneMinus (x : Nat) : Nat := r32 (vAdd (v32 fpOne) (v32 x).negate)

/-- The clip factor (R292): 1 unless clip is finite and positive and the norm exceeds it. -/
def clipFactor (clip s : Nat) : Nat :=
  let n := r32 (vSqrt (v32 s))
  match v32 clip with
  | .fin false m _ => if m ≠ 0 ∧ (v32 n).isNan = false ∧ cmpVal (v32 n) (v32 clip) = .gt then div32 clip n else fpOne
  | _ => fpOne

/-- Master (F48), first and second moment (FP32) of an element. -/
structure Elt where
  w : Nat
  m : Nat
  v : Nat
deriving DecidableEq, Repr

/-- sign(x), with sign(±0) = 0. -/
def sign32 (x : Nat) : Nat :=
  match v32 x with
  | .nan _ => fmtNan fp32
  | .inf n => (if n then fmtSign fp32 else 0) + fpOne
  | .fin n m _ => if m = 0 then 0 else (if n then fmtSign fp32 else 0) + fpOne

/-- rne32(p·q + r·s). -/
def mix32 (p q r s : Nat) : Nat := r32 (vAdd (vMul (v32 p) (v32 q)) (vMul (v32 r) (v32 s)))

/-- One element under a rule: 0 AdamW, 1 SGD with momentum, 2 sign-momentum. `ad` is the decay, `grad` the gradient
widened to FP32. -/
def stepElt (rule : Nat) (h : Hyper) (ad grad : Nat) (x : Elt) : Elt :=
  let g := mul32 grad h.clip
  let r : Nat × Nat × Nat :=
    match rule with
    | 0 =>
      let m := mix32 h.b1 x.m h.b1c g
      let v := r32 (vAdd (vMul (v32 h.b2) (v32 x.v)) (vMul (v32 h.b2c) (vMul (v32 g) (v32 g))))
      (div32 m (r32 (vAdd (vSqrt (v32 v)) (v32 h.eps))), m, v)
    | 1 =>
      let m := r32 (vAdd (vMul (v32 h.b1) (v32 x.m)) (v32 g))
      (m, m, x.v)
    | _ => (sign32 (mix32 h.b1 x.m h.b1c g), mix32 h.b2 x.m h.b2c g, x.v)
  let u := mul32 h.lr r.1
  { w := r48 (vAdd (vAdd (v48 x.w) (vMul (v32 ad) (v48 x.w)).negate) (v32 u).negate), m := r.2.1, v := r.2.2 }

/-! ## Moments (R283, R293) -/

/-- A stored moment under its granule's scale. -/
def readMoment (f bits scale : Nat) : Nat :=
  if f = bf16 then bits * 65536 else r32 (vMul (decodeVal f bits) (v32 scale))

/-- A granule's scale and its reciprocal from the new moments (R293). -/
def momentScale (f : Nat) (xs : List Nat) : Nat × Nat :=
  if f = bf16 then (fpOne, fpOne)
  else
    let a := maxOf xs
    let l := r32 (decodeVal f (fmtInf f - 1))
    match v32 a with
    | .fin _ m e => if m = 0 ∨ exponentOf m e < -96 then (fpOne, fpOne) else (div32 a l, div32 l a)
    | _ => (div32 a l, div32 l a)

/-- A moment as stored: rounded stochastically, clamped to ±L for an F8 format. -/
def storeMoment (f m rsm rnd : Nat) : Nat :=
  let v := if f = bf16 then v32 m else vMul (v32 m) (v32 rsm)
  match v with
  | .inf n => if f = bf16 then (toFloat f (.stoch rnd) v).bits else (if n then fmtSign f else 0) + fmtInf f - 1
  | _ => (toFloat f (.stoch rnd) v).bits

/-! ## Learned scales (R115, R123) -/

/-- The FP32 scale of a master, clamped to 2^-96 … 2^96. -/
def learnedScale (w : Nat) : Nat :=
  let x := r32 (v48 w)
  let lo := (127 - 96) * 2 ^ 23
  let hi := (127 + 96) * 2 ^ 23
  match v32 x with
  | .nan _ => fmtNan fp32
  | v => if cmpVal v (v32 lo) = .lt then lo else if cmpVal v (v32 hi) = .gt then hi else x

/-- The master after a change of width: one rounding of w × qmax_old / qmax_new. -/
def rescale48 (w fOld fNew : Nat) : Nat :=
  match v48 w with
  | .fin n m e =>
    (if n then fmtSign f48 else 0) + (if m = 0 then 0 else divExact f48 (m * fmtQmax fOld) e (fmtQmax fNew) 0)
  | v => r48 v

/-- The integer format of a width code and a signedness: codes 0-7 come in signed, unsigned pairs (Table 2.1). -/
def widthFmt (code unsig : Nat) : Nat := 2 * code + unsig % 2

/-- The entry written for a learned channel (R115). -/
def learnedEntry (old : ScaleEntry) (w f : Nat) : ScaleEntry :=
  let sc := learnedScale w
  { old with scale := sc, recip := recipExact sc, flags := 1 + 4 + 256 * f }

/-! ## Working weights (R111, R117, R121, R294) -/

/-- The FP32 value of a master, bits 47:16 (R40). -/
def masterFp (w : Nat) : Nat := w / 65536

/-- One working weight: its code, whether it was clamped, and what the record observes. -/
def workElem (f w rnd index : Nat) (e : ScaleEntry) : Nat × Bool × Obs :=
  let seen := v32 (masterFp w)
  if e.null then (0, false, { val := seen, zero := true, sat := false, index := index })
  else if unusable e.scale || unusable e.recip then
    (0, false, { val := seen, zero := true, sat := false, unusable := true, index := index })
  else
    let r := toInteger f (.stoch rnd) true (timesExact (v48 w) (v32 e.recip)).1
    (r.bits, r.sat, { val := seen, zero := r.bits = 0, sat := r.sat, index := index })

/-- A channel's amax over its masters (R124). -/
def masterAmax (ws : List Nat) : Nat := ws.foldl (fun a w => maxMag a (truncMag (v48 w))) 0

/-! ## Elements by index (R55, R228) -/

/-- The coordinates of an element index over the maximum extents. -/
def Desc.maxIndex (d : Desc) (i : Nat) : List Nat :=
  ((upTo 6).foldl (fun (a : List Nat × Nat) k => (a.1 ++ [a.2 % d.maxExtent k], a.2 / d.maxExtent k)) ([], i)).1

/-- The elements of a tensor, all its maximum extents. -/
def Desc.maxElements (d : Desc) : Nat := (upTo 6).foldl (fun a k => a * d.maxExtent k) 1

/-- The row pieces of elements `i0 ..< i0 + n`: row address, first position, length, first index. -/
def Desc.pieces (d : Desc) (i0 n : Nat) : List (Nat × Nat × Nat × Nat) :=
  let e := d.maxExtent 0
  if n = 0 ∨ e = 0 then []
  else (upTo ((i0 + n - 1) / e - i0 / e + 1)).map (fun k =>
    let r := i0 / e + k
    let lo := Nat.max i0 (r * e)
    let hi := Nat.min (i0 + n) (r * e + e)
    (d.rowAddr ((d.maxIndex (r * e)).set 0 0), lo - r * e, hi - lo, lo))

/-- Read elements by index: bits and poison. -/
def State.elems (s : State) (p : Part) (d : Desc) (i0 n : Nat) : List (Nat × Bool) :=
  (d.pieces i0 n).flatMap (fun r => s.rowElems p d.fmt r.1 r.2.1 r.2.2.1)

/-- Write elements by index in format `f`; a row's elements beyond its stride are not written (log 56). -/
def State.storeElems (s : State) (p : Part) (d : Desc) (f i0 : Nat) (xs : List Nat) : State :=
  let fits := if d.rank ≤ 1 then d.footprint * 8 / fmtBits f else d.stride.getD 1 0 * 8 / fmtBits f
  (d.pieces i0 xs.length).foldl (fun s r =>
    let n := Nat.min r.2.2.1 (fits - r.2.1)
    if n = 0 then s
    else s.storeRow p f r.1 r.2.1 (d.maxExtent 0) (((xs.drop (r.2.2.2 - i0)).take n).map (fun x => (x, false))) none) s

/-- The memory of elements. -/
def Desc.elemRanges (d : Desc) (i0 n : Nat) : List (Nat × Nat) :=
  (d.pieces i0 n).map (fun r => let e := eltSpan d.fmt r.2.1 r.2.2.1; (r.1 + e.1, e.2))

end Sys2Proof.Machine
end

