-- ==== Sys2Proof/Machine/Collectives.lean ====
section
/-! DEFINITION. Collectives (R336-R360): declaring buckets, activating rounds, becoming ready, and the messages
and timers that drive a round. -/

namespace Sys2Proof.Machine

/-! ## Bucket table entries (Tables 12.1 and 12.2) -/

def entKind (e : List Byte) : Nat := bitsOf (field e 4 4) 1 0
def entSrcBf16 (e : List Byte) : Bool := bitOf (field e 4 4) 2
def entWireBf16 (e : List Byte) : Bool := bitOf (field e 4 4) 3
def entValid (e : List Byte) : Bool := bitOf (field e 4 4) 4
def entSize (e : List Byte) : Nat := field e 10 4
def entSrc (e : List Byte) : Nat := field e 14 2
def entDst (e : List Byte) : Nat := field e 16 2
def entList (e : List Byte) : Nat := field e 18 6
def entMembers (e : List Byte) : Nat := field e 24 4
def entReadyCount (e : List Byte) : Nat := field e 28 4
def entCredits (e : List Byte) : Nat := bitsOf (field e 32 2) 5 0
def entEngine (e : List Byte) : Nat := bitsOf (field e 32 2) 7 6
def entReadyObj (e : List Byte) : SyncObj := BitVec.ofNat 15 (field e 34 2)
def entDoneObj (e : List Byte) : SyncObj := BitVec.ofNat 15 (field e 36 2)
def entTag (e : List Byte) : BitVec 16 := BitVec.ofNat 16 (field e 38 2)

/-- Insert a rank into an ascending list. -/
def insertRank (x : Nat) : List Nat → List Nat
  | [] => [x]
  | y :: r => if x ≤ y then x :: y :: r else y :: insertRank x r
/-- Ranks in ascending order (R338). -/
def sortRanks (l : List Nat) : List Nat := l.foldr insertRank []

/-- The ranks of a member list. -/
def State.memberRanks (s : State) (p : Part) (e : List Byte) : List Nat :=
  (upTo (entMembers e)).map (fun i => leNat (s.readVa p (entList e + 4 * i) 4))

/-- Every page of a tensor lies in the Reserve. -/
def State.allReserve (s : State) (p : Part) (d : Desc) : Bool :=
  (upTo (ceilDiv (d.base % pageSize + d.footprint) pageSize)).all (fun j =>
    match s.place p (d.base / pageSize * pageSize + j * pageSize) with
    | .reserve _ => true
    | _ => false)

/-- A bucket's data as declared (R336, R338). -/
def mkBucket (b : Nat) (e : List Byte) (ranks : List Nat) (rank s0 : Nat) : Bucket where
  kind := entKind e
  wireBf16 := entWireBf16 e
  srcBf16 := entSrcBf16 e
  size := entSize e
  src := BitVec.ofNat 16 (entSrc e)
  dst := BitVec.ofNat 16 (entDst e)
  ranks := ranks
  position := (ranks.findIdx? (fun r => decide (r = rank))).getD 0
  readyCount := entReadyCount e
  readyObj := entReadyObj e
  doneObj := entDoneObj e
  groupTag := entTag e
  engine := if entEngine e = 0 then 0 else if entEngine e = 1 then 1 else ⟨b % 2, Nat.mod_lt _ (by decide)⟩
  credits := entCredits e
  s0 := s0
  rounds := 0
  lastStep := none
  flags := 0
  mismatch := 0xFFFF

/-! ## BUCKET_DECLARE (R337) -/

/-- A round's condition for being ready locally (R341). -/
def State.readyNow (s : State) (b : Bucket) (r : Round) : Bool :=
  if r.cls = 1 then decide ((b.rounds + 1) * b.readyCount ≤ (s.syncValue b.readyObj).toNat) else r.ready

/-- A round of the bucket has begun and is not done: it is ready locally, it reduces or drains, a chunk has come for
it, or an UPDATE_STEP is bound to it (DEDUCED, log 45: R146 and R339 let a bucket whose next round is only expected or
activated be declared anew). -/
def State.roundBegun (s : State) (p : Part) (b : Nat) : Bool :=
  (s.part p).rounds.any (fun r => decide (r.bucket = b) && (decide (r.state = .reducing ∨ r.state = .draining ∨ r.cls = 3)
    || ((s.part p).bucket? b).any (fun x => s.readyNow x r)
    || !r.upLeft.isEmpty || !r.upRight.isEmpty || !r.mupLeft.isEmpty || !r.mupRight.isEmpty))

/-- Forget a bucket and its expected rounds. What is kept of it is the key of its last round (R359), and a statistics
result still owed to the STEP_END under way. -/
def Partition.dropBucket (q : Partition) (b : Nat) : Partition :=
  let old := q.bucket? b
  let kept (y : Summary) : Bool :=
    !old.any (fun x => decide (x.kind = 1)) || y.agreement || decide (q.assize.openStep = some y.step)
  let done := old.bind (fun x => x.lastStep.map (fun n => (⟨b, x.groupTag, n⟩ : DoneKey)))
  { q with
    buckets := Sparse.erase q.buckets b
    rounds := q.rounds.filter (fun r => decide (r.bucket ≠ b))
    assize := { q.assize with arrived := q.assize.arrived.filter kept }
    doneKeys := match done with
      | some n => q.doneKeys.filter (fun k => decide (¬ (k.bucket = b ∧ k.tag = n.tag))) ++ [n]
      | none => q.doneKeys }

/-- Forget the CREDITs held for a bucket that `drop` picks. -/
def State.dropCredits (s : State) (b : Nat) (tag : BitVec 16) (drop : EarlyCredit → Bool) : State :=
  { s with earlyCredits := s.earlyCredits.filter (fun x => !(decide (x.bucket = b ∧ x.tag = tag) && drop x)) }

/-- BUCKET_UNDECLARE's effect: the bucket leaves the order, and the CREDITs held for it go. -/
def State.undeclare (s : State) (p : Part) (b : Nat) : State :=
  let s' := s.onPart p (fun q => q.dropBucket b)
  match (s.part p).bucket? b with
  | none => s'
  | some x => s'.dropCredits b x.groupTag (fun _ => true)

/-- The memory a declaration reads: the entry, the member list and the descriptors. -/
def State.declareRanges (s : State) (p : Part) (bs : List Byte) : List (Nat × Nat) :=
  let e := s.readVa p (s.bucketAddr p (pktParam bs 0 2)) 64
  (s.bucketAddr p (pktParam bs 0 2), 64) :: (if entValid e then
    (if s.mapped p (entList e) (4 * entMembers e) then [(entList e, 4 * entMembers e)] else [])
      ++ (if entKind e = 0 then s.handleRanges p (entSrc e) ++ s.handleRanges p (entDst e) else []) else [])

/-- The formats a bucket's tensors must have. -/
def fmtOfFlag (b : Bool) : Nat := if b then bf16 else fp32

/-- The checks on a bucket's handles and objects, in the order of R12: the status they give, none when they pass;
the tensors of a gradient bucket come with it. -/
def State.declareCheck (s : State) (p : Part) (b : Nat) (e : List Byte) (ranks : List Nat) :
    Option (BitVec 8 × Option Nat) :=
  let rank := s.regN .fabRank
  let other := (s.part p).buckets.any (fun x => decide (x.2.kind = entKind e ∧ entKind e ≠ 0 ∧ x.1 ≠ b))
  if entKind e = 3 ∨ entEngine e = 3 then some (stHandle, none)
  else if !s.ownsSync p (entDoneObj e) || (entKind e = 0 && !s.ownsSync p (entReadyObj e)) then some (stHandle, none)
  else if !s.mapped p (entList e) (4 * entMembers e) || !ranks.contains rank || decide (ranks.eraseDups.length ≠ ranks.length)
    then some (stHandle, none)
  else if other then some (stHandle, none)
  else if entKind e = 0 then
    match s.checkHandle p (entSrc e), s.checkHandle p (entDst e) with
    | .fail st d, _ => some (st, if d then some (entSrc e) else none)
    | _, .fail st d => some (st, if d then some (entDst e) else none)
    | .ok src, .ok dst =>
      if !s.allReserve p dst then some (stHandle, none)
      else if src.fmt ≠ fmtOfFlag (entSrcBf16 e) ∨ dst.fmt ≠ fmtOfFlag (entWireBf16 e) then some (stFormat, none)
      else
        let w := if entWireBf16 e then 2 else 4
        let v := if entSrcBf16 e then 2 else 4
        if entSize e = 0 ∨ entSize e > 2 ^ 30 ∨ entSize e % w ≠ 0 ∨ entSize e / w * v > src.footprint
            ∨ entSize e > dst.footprint then some (stShapeOver, none)
        else none
  else if entKind e = 2 then
    if entWireBf16 e || entSrcBf16 e then some (stFormat, none)
    else if entSize e ≠ 4 then some (stShapeOver, none) else none
  else if entSize e ≠ 64 + 128 * s.regN .aszWatchCount p.val then some (stShapeOver, none)
  else none

/-- Validate and declare. -/
def State.declareBucket (s : State) (p : Part) (k : Packet) : State :=
  let b := pktParam k.bytes 0 2
  let at' := s.bucketAddr p b
  let e := s.readVa p at' 64
  if s.poisoned p at' 64 then (s.endPacket p k.id stPoisoned).poisonConsumed (surveyorSource p) 0 (pktSeq k.bytes) at'
  else if s.roundBegun p b then s.refuse p k.id stPartState 4 0
  else
    let ranks := sortRanks (s.memberRanks p e)
    let x := mkBucket b e ranks (s.regN .fabRank) (s.regN .partStep p.val)
    if x.credits * x.children > s.colBuffers p then s.refuse p k.id stQuota 2 0
    else match s.declareCheck p b e ranks with
      | some (st, some h) => s.failHandle p k h st true
      | some (st, none) => s.endPacket p k.id st
      | none =>
        let s := s.writeVa p (at' + 40) (leBytes 2 x.position ++ List.replicate 6 0xFF ++ leBytes 2 0 ++ leBytes 2 0xFFFF
          ++ leBytes 4 0 ++ leBytes 8 0) false
        let expected := if x.kind = 2 then [] else [Round.pending b (x.kind + 1) x.s0 x.size x.engine x.position]
        let s := s.onPart p (fun q =>
          let q := q.dropBucket b
          { q with buckets := Sparse.put q.buckets b x, rounds := q.rounds ++ expected })
        (s.dropCredits b x.groupTag (fun c => decide (c.step < x.s0))).endPacket p k.id stOk

/-- A declaration packet whose entry has its valid bit as given. -/
def State.declareRow (s : State) (ring : Ring) (valid : Bool) (act : Part → State → Packet → State) : State :=
  s.packetRow ring
    (fun s p bs => isPacket 0x10 bs && (!s.ready p [(s.bucketAddr p (pktParam bs 0 2), 64)]
      || entValid (s.readVa p (s.bucketAddr p (pktParam bs 0 2)) 64) == valid))
    (fun s p bs => s.declareRanges p bs)
    act

/-- BUCKET_DECLARE (R336-R338). -/
def execBucketDeclare (ring : Ring) (s : State) : Out :=
  .next (s.declareRow ring true (fun p s k => s.declareBucket p k))

/-- BUCKET_UNDECLARE (R337): a declaration with valid = 0. -/
def execBucketUndeclare (ring : Ring) (s : State) : Out :=
  .next (s.declareRow ring false (fun p s k =>
    let b := pktParam k.bytes 0 2
    if s.poisoned p (s.bucketAddr p b) 64 then
      (s.endPacket p k.id stPoisoned).poisonConsumed (surveyorSource p) 0 (pktSeq k.bytes) (s.bucketAddr p b)
    else if s.roundBegun p b then s.refuse p k.id stPartState 4 0
    else (s.undeclare p b).endPacket p k.id stOk))

/-! ## Activation (R342, R343, R345, R349) -/

/-- Buffers of the partition in use on an engine (R342). -/
def Partition.buffersUsed (q : Partition) (i : Iod) : Nat :=
  (q.rounds.filter (fun r => decide (r.state ≠ .pending))).foldl (fun a r =>
    match q.bucket? r.bucket with
    | some b => a + (if r.engine = i then b.credits * b.children else b.children)
    | none => a) 0

/-- Rounds activated and not done whose primary engine this is. -/
def Partition.incomplete (q : Partition) (i : Iod) : Nat :=
  (q.rounds.filter (fun r => decide (r.state ≠ .pending ∧ r.engine = i))).length

/-- The least round of a list in the order of R340. -/
def leastRound : List Round → Option Round
  | [] => none
  | r :: l =>
    match leastRound l with
    | none => some r
    | some x => if x.before r then some x else some r

/-- The lowest port of an I/O die that is UP with a rank as its neighbour (R349). -/
def State.portToRank (s : State) (i : Iod) (rank : Nat) : Option FPort :=
  allFPorts.find? (fun n => decide (fabIod n = i) && decide ((s.fab n).state = .up) && decide ((s.fab n).nbrRank.toNat = rank))

/-- The ranks of a member's parent, left and right child (R338). -/
def Bucket.edges (b : Bucket) : List (Option Nat) :=
  [if b.position = 0 then none else b.ranks[(b.position - 1) / 2]?,
   if b.hasLeft then b.ranks[2 * b.position + 1]? else none,
   if b.hasRight then b.ranks[2 * b.position + 2]? else none]

/-- The six ports of a round (R349). -/
def State.resolvePorts (s : State) (b : Bucket) : List (Option FPort) :=
  let other : Iod := if b.engine = 0 then 1 else 0
  b.edges.map (fun e => e.bind (s.portToRank b.engine)) ++ b.edges.map (fun e => e.bind (s.portToRank other))

/-- An edge of the tree that has no port. -/
def edgeMissing (edges : List (Option Nat)) (ports : List (Option FPort)) : Bool :=
  (edges.zip ports).any (fun x => x.1.isSome && x.2.isNone)

/-- A CREDIT reaches an activated round (R344): the count is cumulative. -/
def Round.credited (r : Round) (mirror : Bool) (count : Nat) : Round :=
  if mirror then { r with mcreditUp := Nat.max r.mcreditUp count } else { r with creditUp := Nat.max r.creditUp count }

/-- COLL_KEY_MISMATCH, and the round fails (R345). -/
def State.keyMismatch (s : State) (p : Part) (r : Round) (received sender : Nat) (port : Option FPort) : State :=
  (s.log (colSource r.engine) 4 (f2 r.bucket ++ f4 r.step ++ f4 received ++ f4 sender)).failRound p r 4 port

/-- Apply the CREDITs held for a bucket whose round has just been activated. -/
def State.takeEarly (s : State) (p : Part) (b : Bucket) (r : Round) : State :=
  let mine := s.earlyCredits.filter (fun x => decide (x.bucket = r.bucket ∧ x.tag = b.groupTag))
  let s := s.dropCredits r.bucket b.groupTag (fun _ => true)
  match mine.find? (fun x => decide (x.step ≠ r.step)) with
  | some x => s.keyMismatch p r x.step x.sender none
  | none => mine.foldl (fun s x => s.onRound p r (fun r => r.credited x.mirror x.count)) s

/-- Activate a round: ports resolved, CREDITs sent; a missing primary port fails it, a missing mirror port skips
its checks. -/
def State.activate (s : State) (p : Part) (b : Bucket) (r : Round) : State :=
  let ports := s.resolvePorts b
  let s := s.writeVa p (s.bucketAddr p r.bucket + 42) (ports.map (fun x => BitVec.ofNat 8 (portByte x))) false
  let r' := { r with state := .active, ports := ports, position := b.position, engine := b.engine, stride := s.regN .colCheckStride p.val }
  let s := s.onRound p r (fun _ => r')
  if edgeMissing b.edges (ports.take 3) then s.failRound p r' 3 none
  else
    let s := (s.grantPrimary p b r').grantMirror p b r'
    let s := if edgeMissing b.edges (ports.drop 3) then s.skipChecks p r' none else s
    s.takeEarly p b r'

/-- No round that is still to be listed comes before this one: the next round of a bucket whose round is under way is
listed only when that one is done (R343, R345). -/
def Partition.noneBefore (q : Partition) (iod : Iod) (r : Round) : Bool :=
  !q.rounds.any (fun x => decide (x.engine = iod ∧ x.state ≠ .pending ∧ (x.cls = 1 ∨ x.cls = 2))
    && Round.before { x with step := x.step + 1 } r)

/-- ROUND_ACTIVATE (R343): the partition's first expected round in the order of R340 on this engine. -/
def execRoundActivate (p : Part) (iod : Iod) (s : State) : Out :=
  .next (if s.live && s.running p then
    let q := s.part p
    match leastRound (q.rounds.filter (fun r => decide (r.state = .pending ∧ r.engine = iod))) with
    | none => s
    | some r =>
      match q.bucket? r.bucket with
      | none => s
      | some b =>
        let other : Iod := if iod = 0 then 1 else 0
        if decide (q.incomplete iod < s.regN .colWindow p.val) && (q.openRound r.bucket).isNone && q.noneBefore iod r
            && decide (q.buffersUsed iod + b.credits * b.children ≤ s.colBuffers p)
            && decide (q.buffersUsed other + b.children ≤ s.colBuffers p)
        then s.activate p b r
        else s
  else s)

/-! ## Becoming ready (R341) -/

/-- The memory a round's source lies in. -/
def State.sourceRange (s : State) (p : Part) (b : Bucket) (r : Round) : List (Nat × Nat) :=
  if r.cls = 1 then [((s.desc p b.src.toNat).base, r.size / r.itemSize b * (if b.srcBf16 then 2 else 4))]
  else if r.cls = 2 then [(s.regN .gauSrcBase p.val, r.size)]
  else []

/-- A round's source as items, each with the poison of its lines (R346, R356, R358). -/
def State.sourceItems (s : State) (p : Part) (b : Bucket) (r : Round) : List Item :=
  if r.cls = 1 then
    let f := fmtOfFlag b.srcBf16
    (s.rowElems p f (s.desc p b.src.toNat).base 0 (r.items b)).map (fun x =>
      (leBytes 4 (if b.srcBf16 then x.1 * 65536 else x.1), x.2))
  else if r.cls = 2 then
    (upTo (r.size / 64)).map (fun i => s.readLine p (s.regN .gauSrcBase p.val + 64 * i))
  else r.source

/-- ROUND_READY (R341): an activated round becomes ready and starts to reduce. -/
def execRoundReady (p : Part) (bucket : BitVec 12) (s : State) : Out :=
  .next (if s.live && s.running p then
    match (s.part p).openRound bucket.toNat, (s.part p).bucket? bucket.toNat with
    | some r, some b =>
      if decide (r.state = .active) && s.readyNow b r then
        let ranges := s.sourceRange p b r
        if !s.ready p ranges then s.ask p ranges
        else
          let xs := s.sourceItems p b r
          let s := s.dropHost p ranges
          let s := s.onRound p r (fun x => { x with
            source := xs, state := .reducing, flags := if xs.any (fun y => y.2) then x.flags ||| 8 else x.flags })
          s.pumpRound p r
      else s
    | _, _ => s
  else s)

/-! ## Messages (R344-R346, R351, R354, R357) -/

/-- Fields of a collective target (Table 12.5). -/
def collDir (c : Cell) : Nat := bitsOf c.target.toNat 47 46
def collBucket (c : Cell) : Nat := bitsOf c.target.toNat 45 34
def collStepLo (c : Cell) : Nat := bitsOf c.target.toNat 33 30
def collChunk (c : Cell) : Nat := bitsOf c.target.toNat 29 16
def collIndex (c : Cell) : Nat := bitsOf c.target.toNat 15 9
/-- Fields of a control payload (R351). -/
def ctlStep (c : Cell) : Nat := field c.payload 0 8
def ctlType (c : Cell) : Nat := field c.payload 8 1
def ctlCount (c : Cell) : Nat := field c.payload 10 2
def ctlFlags (c : Cell) : Nat := field c.payload 12 2
def ctlMismatch (c : Cell) : Nat := field c.payload 14 2
def ctlSender (c : Cell) : Nat := field c.payload 16 2

/-- The partition whose declared bucket a cell names by id and group tag. -/
def State.collOwner (s : State) (c : Cell) : Option (Part × Bucket) :=
  allParts.findSome? (fun p =>
    match (s.part p).bucket? (collBucket c) with
    | some b => if b.groupTag = c.tag then some (p, b) else none
    | none => none)

/-- A step is one the bucket has already done. -/
def Bucket.past (b : Bucket) (step : Nat) : Bool :=
  match b.lastStep with
  | some n => decide (step ≤ n)
  | none => false

/-- Hold a CREDIT until its round is activated (R345). -/
def State.holdCredit (s : State) (c : Cell) : State :=
  { s with earlyCredits := s.earlyCredits ++
    [⟨collBucket c, c.tag, ctlStep c, decide (collDir c = 2), ctlCount c, ctlSender c⟩] }

/-- A CREDIT for a declared bucket (R344, R345): one for a round not yet activated, or for a later round while the
previous one drains, is held; one for a round already done, with none under way, is ignored (log 117). -/
def State.takeCredit (s : State) (n : FPort) (p : Part) (b : Bucket) (c : Cell) : State :=
  match (s.part p).openRound (collBucket c) with
  | none => if b.past (ctlStep c) then s else s.holdCredit c
  | some r =>
    if r.step = ctlStep c then
      (s.onRound p r (fun x => x.credited (decide (collDir c = 2)) (ctlCount c))).pumpRound p r
    else if r.state = .draining ∧ r.step < ctlStep c then s.holdCredit c
    else s.keyMismatch p r (ctlStep c) (ctlSender c) (some n)

/-- A round that some partition has done for a bucket no longer declared as it was (R359). -/
def State.roundKnown (s : State) (c : Cell) : Bool :=
  allParts.any (fun p => (s.part p).doneKeys.any (fun k =>
    decide (k.bucket = collBucket c ∧ k.tag = c.tag ∧ ctlStep c ≤ k.step)))

/-- A control message for a bucket that no partition declares: a CREDIT is held until the bucket is declared and its
round activated (R345), a message of a round that is done is ignored (R359), any other is a violation. -/
def State.ctlUnowned (s : State) (n : FPort) (c : Cell) : State :=
  if ctlType c = 1 then s.holdCredit c
  else if (ctlType c = 2 || ctlType c = 3) && s.roundKnown c then s
  else s.fabViolation n vioTarget c

/-- Take the control message at the head of VC1 if its type is one of these. -/
def State.ctlRow (s : State) (n : FPort) (accept : Nat → Bool) (act : Part → Bucket → Cell → State → State) : State :=
  match s.headCell n tyCollCtrl with
  | none => s
  | some c =>
    if accept (ctlType c) then
      let s := s.consume n 1
      (match s.collOwner c with
        | some (p, b) => act p b c s
        | none => s.ctlUnowned n c).isolateCheck n
    else s

/-- CREDIT (R344). A control message of a type that is not defined is a violation. -/
def execCredit (port : FPort) (s : State) : Out :=
  .next (if s.live then
    s.ctlRow port (fun t => t ≠ 2 && t ≠ 3) (fun p b c s =>
      if ctlType c = 1 then s.takeCredit port p b c else s.fabViolation port vioType c)
  else s)

/-- RESULT_END (R354): the round's flags and mismatch chunk, passed on to the children. -/
def execResultEnd (port : FPort) (s : State) : Out :=
  .next (if s.live then
    s.ctlRow port (fun t => t = 2) (fun p b c s =>
      match (s.part p).openRound (collBucket c) with
      | none => s
      | some r =>
        if r.step = ctlStep c ∧ r.parent = some port then
          let s := s.onRound p r (fun x => { x with ended := true, flags := x.flags ||| ctlFlags c, mismatch := ctlMismatch c })
          match s.round? p r with
          | none => s
          | some r =>
            let m := collCtrl b r 1 2 0
            ((s.sendOn p r.left m).sendOn p r.right m).finishRound p r
        else s)
  else s)

/-- ABORT (R357): the round fails with cause 5; one for a round that is done is ignored (R359). -/
def execAbort (port : FPort) (s : State) : Out :=
  .next (if s.live then
    s.ctlRow port (fun t => t = 3) (fun p _ c s =>
      match (s.part p).openRound (collBucket c) with
      | none => s
      | some r => if r.step = ctlStep c then s.failRound p r 5 (some port) else s)
  else s)

/-- Cells of a chunk, and payload bytes of its cell `i` (R350). -/
def Round.cellsIn (r : Round) (b : Bucket) (c : Nat) : Nat := ceilDiv (r.itemsIn b c * r.itemSize b) 512
def Round.cellLen (r : Round) (b : Bucket) (c i : Nat) : Nat :=
  ceilDiv (Nat.min 512 (r.itemsIn b c * r.itemSize b - 512 * i)) 32 * 32

/-- Where a chunk of a direction coming on a port goes: reading it, writing it, and whether the credits allow it. -/
def Round.slot (r : Round) (b : Bucket) (n : FPort) (dir c : Nat) : Option (Sparse Chunk × (Sparse Chunk → Round) × Bool) :=
  let up := decide (c < b.credits + r.nextUp)
  let mup := (r.checked.take (1 + r.nextMirror)).contains c
  match dir with
  | 0 => if r.left = some n then some (r.upLeft, fun m => { r with upLeft := m }, up)
         else if r.right = some n then some (r.upRight, fun m => { r with upRight := m }, up) else none
  | 1 => if r.parent = some n then some (r.down, fun m => { r with down := m }, true) else none
  | 2 => if r.mleft = some n then some (r.mupLeft, fun m => { r with mupLeft := m }, mup)
         else if r.mright = some n then some (r.mupRight, fun m => { r with mupRight := m }, mup) else none
  | _ => none

/-- A chunk's cell joins those before it, if it is the next one of its chunk and as long as it must be. -/
def Round.addCell (r : Round) (b : Bucket) (m : Sparse Chunk) (c : Cell) : Option (Sparse Chunk) :=
  let k := (Sparse.find? m (collChunk c)).getD ⟨[], [], false⟩
  let i := k.marks.length
  let n := r.cellsIn b (collChunk c)
  if collChunk c < r.chunks ∧ collIndex c = i ∧ i < n ∧ c.first = decide (i = 0) ∧ c.last = decide (i + 1 = n)
      ∧ c.payload.length = r.cellLen b (collChunk c) i then
    some (Sparse.put m (collChunk c) ⟨k.bytes ++ c.payload, k.marks ++ [c.poison], decide (i + 1 = n)⟩)
  else none

/-- A collective data cell joins its chunk, and the round goes on; a cell of another round of the bucket is a key
mismatch, any other that fits no round is a violation. -/
def State.takeColl (s : State) (n : FPort) (c : Cell) : State :=
  match s.collOwner c with
  | none => s.fabViolation n vioTarget c
  | some (p, b) =>
    match (s.part p).openRound (collBucket c) with
    | none => s.fabViolation n vioTarget c
    | some r =>
      if r.step % 16 ≠ collStepLo c then s.keyMismatch p r (collStepLo c) 0xFFFFFFFF (some n)
      else match r.slot b n (collDir c) (collChunk c) with
        | none => s.fabViolation n vioTarget c
        | some (m, put, allowed) =>
          match r.addCell b m c with
          | some m' => if allowed then (s.onRound p r (fun _ => put m')).pumpRound p r else s.fabViolation n vioTarget c
          | none => s.fabViolation n vioTarget c

/-- COLL_DATA (R345, R346, R350, R351). -/
def execCollData (port : FPort) (s : State) : Out :=
  .next (if s.live then
    match s.headCell port tyCollData with
    | none => s
    | some c => ((s.consume port 0).takeColl port c).isolateCheck port
  else s)

/-! ## Timers (R355, R357) -/

/-- The number of a round state (Table 12.4). -/
def RoundState.code : RoundState → Nat
  | .pending => 0 | .active => 1 | .reducing => 2 | .draining => 3

/-- Chunks a round has received whole: those combined from its children, those waiting, and result chunks. -/
def Round.received (r : Round) (b : Bucket) : Nat :=
  let whole (m : Sparse Chunk) : Nat := (m.filter (fun e => e.2.whole)).length
  r.nextUp * b.children + whole r.upLeft + whole r.upRight + r.gotDown + whole r.down

/-- ROUND_TIMEOUT (R357): a ready round with no traffic for COL_ROUND_TIMEOUT fails with cause 2. -/
def execRoundTimeout (p : Part) (bucket : BitVec 12) (s : State) : Out :=
  .next (if s.live && s.running p then
    match (s.part p).openRound bucket.toNat, (s.part p).bucket? bucket.toNat with
    | some r, some b =>
      if r.state = .reducing ∨ r.state = .draining then
        (s.log (colSource r.engine) 6 (f2 r.bucket ++ f4 r.step ++ f1 r.state.code ++ f4 (r.received b))).failRound p r 2 none
      else s
    | _, _ => s
  else s)

/-- MIRROR_COMPARE_TIMEOUT (R355): the root gives up the comparison of the oldest formed chunk whose mirror result
has not come. -/
def execMirrorCompareTimeout (p : Part) (bucket : BitVec 12) (s : State) : Out :=
  .next (if s.live && s.running p then
    match (s.part p).openRound bucket.toNat with
    | some r =>
      match r.kept with
      | (c, _) :: _ =>
        let port := if r.mleft.isSome then r.mleft else r.mright
        let s := s.log (colSource r.engine) 3 (f2 r.bucket ++ f4 r.step ++ f4 c ++ f1 (portByte port))
        let s := s.onRound p r (fun x => { x with
          compared := x.compared ++ [c], kept := Sparse.erase x.kept c, flags := x.flags ||| 4 })
        s.finishRound p r
      | [] => s
    | none => s
  else s)

end Sys2Proof.Machine
end

