-- ==== Sys2Proof/Machine/Gauger.lean ====
section
/-! DEFINITION. Gauger (R133-R147): merging statistics partials into records and scale entries, the held queue,
the snapshot's summary entries and the release of the held records. -/

namespace Sys2Proof.Machine

/-! ## The record (Table 5.1) -/

/-- A numbered field of a record: its offset and bytes (R140): 0 count, 1 zeros, 2 saturations, 3 nonfinite,
4 null_channels, 5 sumsq. -/
def statField (n : Nat) : Nat × Nat :=
  match n with
  | 0 => (5, 6)
  | 1 => (11, 6)
  | 2 => (17, 5)
  | 3 => (22, 5)
  | 4 => (27, 3)
  | _ => (34, 6)

/-- hist_base, signed; hist_shift, at most 63 (R139). -/
def recBase (r : List Byte) : Int := signed 8 (field r 3 1)
def recShift (r : List Byte) : Nat := Nat.min (field r 4 1) 63
/-- amax, count and flags of a record. -/
def recAmax (r : List Byte) : Nat := field r 30 4
def recCount (r : List Byte) : Nat := field r 5 6
def recFlags (r : List Byte) : Nat := field r 0 3
/-- Bin `i`. -/
def recBin (r : List Byte) (i : Nat) : Nat := bitsOf (field r 40 24) (12 * i + 11) (12 * i)

/-- Set flag bits of a record. -/
def setFlags (r : List Byte) (f : Nat) : List Byte := splice r 0 (leBytes 3 (recFlags r ||| f))

/-- A sampled element (R138). -/
def sampledAt (shift index : Nat) : Bool :=
  shift = 0 || decide (index * 0x9E3779B97F4A7C15 % 2 ^ 64 / 2 ^ (64 - shift) = 0)

/-- The bin of an exponent under a base (R138). -/
def binOf (e base : Int) : Nat := Int.toNat (min (max (e - base + 15) 0) 15)

/-- floor(x² / 2^(2·hist_base − 16)) of a square `n × 2^e` (R136). -/
def squareTerm (base : Int) (x : Nat × Int) : Nat :=
  let k := x.2 - (2 * base - 16)
  if k ≥ 0 then x.1 * 2 ^ k.toNat else x.1 / 2 ^ (-k).toNat

/-- Add to a numbered field, saturating: the new record, flagged when an addition leaves it at its limit (log 91), and
whether the limit was reached from below (R140). -/
def addField (r : List Byte) (n v : Nat) : List Byte × Bool :=
  let f := statField n
  let top := 2 ^ (8 * f.2) - 1
  let old := field r f.1 f.2
  let r := splice r f.1 (leBytes f.2 (Nat.min (old + v) top))
  (if v > 0 ∧ old + v ≥ top then setFlags r (if n = 5 then 4 else 1) else r, decide (old < top ∧ old + v ≥ top))

/-- Add to one bin, saturating at 0xFFF. -/
def addBin (r : List Byte) (i v : Nat) : List Byte × Bool :=
  let old := recBin r i
  let all := field r 40 24
  let new := Nat.min (old + v) 0xFFF
  let r := splice r 40 (leBytes 24 (all - old * 2 ^ (12 * i) + new * 2 ^ (12 * i)))
  (if v > 0 ∧ old + v ≥ 0xFFF then setFlags r 2 else r, decide (old < 0xFFF ∧ old + v ≥ 0xFFF))

/-- The counts a partial adds to the numbered fields, under the record's base. -/
def Partial.adds (m : Partial) (base : Int) : List Nat :=
  [m.count, m.zeros, m.sats, m.nonfin, m.nulls, (m.squares.map (squareTerm base)).foldl (fun a x => a + x) 0]

/-- A maximum with a stored amax; one that is NaN, which only a host write leaves, gives a free value (log 52). -/
def mergeAmax (free old new : Nat) : Nat :=
  if (v32 old).isNan then (if new = 0 then old else Config.freeValue free % 2 ^ 32)
  else if cmpVal (v32 old) (v32 new) = .lt then new else old

/-- A record after one partial, and the fields and bins that reached their limits (R140). -/
def mergeRecord (free : Nat) (r : List Byte) (m : Partial) : List Byte × List Nat :=
  let base := recBase r
  let x := (m.adds base).zipIdx.foldl (fun (a : List Byte × List Nat) v =>
    let y := addField a.1 v.2 v.1
    (y.1, if y.2 then a.2 ++ [v.2] else a.2)) (r, [])
  let hits := (m.samples.filter (fun e => sampledAt (recShift r) e.1)).map (fun e => binOf e.2 base)
  let y := (upTo 16).foldl (fun (a : List Byte × List Nat) i =>
    let y := addBin a.1 i (hits.filter (fun h => decide (h = i))).length
    (y.1, if y.2 then a.2 ++ [6] else a.2)) x
  let amax := if m.count = m.nonfin then recAmax r else mergeAmax free (recAmax r) m.amax.toNat
  (splice y.1 30 (leBytes 4 amax), y.2)

/-! ## Merging (R118, R120, R140, R142) -/

/-- The record of a partial is held. -/
def State.recordHeld (s : State) (m : Partial) : Bool :=
  decide (m.record ≠ 0) && Sparse.get false (s.part m.part).assize.held m.record

/-- The memory a partial touches. -/
def Partial.ranges (m : Partial) : List (Nat × Nat) :=
  (if m.record = 0 then [] else [(m.record, 64)]) ++ m.chans.map (fun c => (m.scales + 16 * c.1, 16))

/-- The command that a partial came from hears that Gauger has taken it (R142). -/
def State.partialTaken (s : State) (m : Partial) : State :=
  match m.owner with
  | none => s
  | some (t, st) =>
    let x := s.stream t st
    match x.cur with
    | some r => s.setStream t st { x with cur := some { r with parts := r.parts - 1 } }
    | none => s

/-- One amax merge into a scale entry (R118, R120). -/
def State.mergeEntry (s : State) (d : Die) (m : Partial) (c : Nat × Word) : State :=
  let a := m.scales + 16 * c.1
  let e := parseEntry (s.readVa m.part a 16)
  if m.firstPass || e.kind = 2 || e.kind = 0 then
    let amax := mergeAmax s.freeCount e.amax c.2.toNat
    let flags := if e.formed then e.flags - 4 ||| 16 else e.flags
    let s := if (v32 e.amax).isNan then s.bumpFree else s
    let s := s.writeVa m.part a (entryData { e with amax := amax, flags := flags }) (s.poisoned m.part a 16)
    if e.formed then s.log (gaugerSource d) 2 (f2 m.handle.toNat ++ f4 c.1) else s
  else s

/-- Apply a partial: one atomic update of the record's line, and of the scale entries it collects into. -/
def State.applyPartial (s : State) (d : Die) (m : Partial) : State :=
  let s :=
    if m.record = 0 then s
    else
      let old := s.readVa m.part m.record 64
      let x := mergeRecord s.freeCount old m
      let s := if (v32 (recAmax old)).isNan then s.bumpFree else s
      let s := s.writeVa m.part m.record x.1 (s.poisoned m.part m.record 64)
      x.2.foldl (fun s f => s.log (gaugerSource d) 3 (f2 m.handle.toNat ++ f1 f)) s
  let s := m.chans.foldl (fun s c => s.mergeEntry d m c) s
  s.setRegN .gauMerges d.val 0 (s.regN .gauMerges d.val + 1)

/-- The next step of a die's Gauger: a queued partial whose record is released, else the first arrival that can
go on: into its record, or into the held queue while that has room. -/
def State.mergeNext (s : State) (d : Die) : State :=
  let g := s.die d
  match takeFirst (fun m => !s.recordHeld m) g.held with
  | some (m, rest) =>
    if s.ready m.part m.ranges then (s.setDie d { g with held := rest }).applyPartial d m else s.ask m.part m.ranges
  | none =>
    match takeFirst (fun m => !s.recordHeld m || decide (g.held.length < 4096)) g.arrivals with
    | none => s
    | some (m, rest) =>
      if s.recordHeld m then
        let s := (s.setDie d { g with arrivals := rest, held := g.held ++ [m] }).partialTaken m
        if g.held.length + 1 = 4096 then s.log (gaugerSource d) 4 (f1 d.val ++ f4 (s.regN .partStep m.part.val)) else s
      else if s.ready m.part m.ranges then ((s.setDie d { g with arrivals := rest }).applyPartial d m).partialTaken m
      else s.ask m.part m.ranges

/-- STATS_PARTIAL_MERGE (R140, R142). -/
def execStatsPartialMerge (d : Die) (s : State) : Out :=
  .next (if s.live then s.mergeNext d else s)

/-- No partial of a partition is on its way or queued. -/
def State.partialsDone (s : State) (p : Part) : Bool :=
  allDies.all (fun d => !((s.die d).arrivals ++ (s.die d).held).any (fun m => decide (m.part = p)))

/-! ## The snapshot and the release of the records (R141, R142) -/

/-- floor(log2 amax) of an amax field, −127 for a subnormal; none for zero, NaN, infinity or a negative one. -/
def amaxBase (a : Nat) : Option Int :=
  let e := bitsOf a 30 23
  if a ≥ 2 ^ 31 ∨ a = 0 ∨ e = 255 then none else if e = 0 then some (-127) else some ((e : Int) - 127)

/-- hist_base set from an amax and a count (R141, R142). -/
def rebase (r : List Byte) (amax count : Nat) : List Byte :=
  match amaxBase amax with
  | some b => if count = 0 then r else splice r 3 (leBytes 1 (unsigned 8 b))
  | none => r

/-- A record after the step-end clear (R141). -/
def clearedRecord (r : List Byte) (watched : Bool) : List Byte :=
  let r' := if watched then r else rebase r (recAmax r) (recCount r)
  leBytes 3 (recFlags r / 8 * 8) ++ (r'.drop 3).take 2 ++ List.replicate 59 0

/-- A watched record's summary entry (Table 5.4). -/
def summaryEntry (h : Nat) (r : List Byte) : List Byte :=
  leBytes 8 (recCount r) ++ leBytes 8 (field r 11 6) ++ leBytes 8 (field r 17 5) ++ leBytes 8 (field r 22 5)
    ++ leBytes 4 (field r 27 3) ++ leBytes 4 (recAmax r) ++ leBytes 8 (field r 34 6)
    ++ leBytes 1 (field r 3 1) ++ leBytes 1 (field r 3 1) ++ leBytes 1 (recShift r) ++ leBytes 1 (recShift r)
    ++ leBytes 4 (recFlags r) ++ leBytes 4 0 ++ leBytes 2 h ++ leBytes 2 h
    ++ (upTo 16).flatMap (fun i => leBytes 4 (recBin r i))

/-- An entry with no data: its handles and nothing else (R531). -/
def emptyEntry (least greatest : Nat) : List Byte :=
  List.replicate 60 0 ++ leBytes 2 least ++ leBytes 2 greatest ++ List.replicate 64 0

/-- The header (Table 5.3). -/
def summaryHeader (step digest : Nat) (invalid : Bool) : List Byte :=
  leBytes 8 0 ++ leBytes 8 step ++ leBytes 8 step ++ leBytes 4 digest ++ leBytes 4 digest ++ leBytes 4 (b2n invalid)
    ++ leBytes 4 1 ++ List.replicate 24 0

/-- Release a partition's held records: each watched record's base from its reduced entry, unless the summary is
suspect (R142, R147). -/
def State.releaseRecords (s : State) (p : Part) (bytes : List Byte) (keepBases : Bool) : State :=
  let a := (s.part p).assize
  let s := if keepBases then s else
    a.watch.zipIdx.foldl (fun s w =>
      if w.1.record = 0 || !Sparse.get false a.held w.1.record then s
      else
        let e := (bytes.drop (64 + 128 * w.2)).take 128
        let r := s.readVa p w.1.record 64
        s.writeVa p w.1.record (rebase r (field e 36 4) (field e 0 8)) (s.poisoned p w.1.record 64)) s
  s.onAssize p (fun a => { a with held := [] })

end Sys2Proof.Machine
end

