-- ==== Sys2Proof/Machine/Steering.lean ====
section
/-! DEFINITION. Assize and the step end (R141-R161): the snapshot, the width rule, the silent rule, the width
words, the state record, restore, agreement, cold start and divergence. -/

namespace Sys2Proof.Machine

/-! ## Configuration (R148-R150, R531) -/

/-- A four-byte table entry, if its memory is mapped and sound (R531). -/
def State.tableEntry (s : State) (p : Part) (a : Nat) : Option Nat :=
  if s.pageMapped p a && !s.poisoned p a 4 then some (leNat (s.readVa p a 4)) else none

/-- The group configuration and the watch table as memory holds them. -/
def State.groupTable (s : State) (p : Part) : List (Option Nat) :=
  (upTo (s.regN .aszGroupCount p.val)).map (fun g => s.tableEntry p (s.regN .aszGroupBase p.val + 4 * g))
def State.watchTable (s : State) (p : Part) : List (Option Nat) :=
  (upTo (s.regN .aszWatchCount p.val)).map (fun i => s.tableEntry p (s.regN .aszWatchBase p.val + 4 * i))

/-- The record of a watched handle: none when the handle is free, fails its check or names none (R531). -/
def State.watchedRecord (s : State) (p : Part) (h : Nat) : Nat :=
  match s.checkHandle p h with
  | .ok d => d.stats
  | .fail _ _ => 0

/-- A watch entry as Assize keeps it (R149). -/
def State.watchEntry (s : State) (p : Part) (e : Option Nat) : WatchEntry :=
  match e with
  | none => ⟨false, 0, 0, 3, 0⟩
  | some e => ⟨true, bitsOf e 15 0, bitsOf e 27 16, bitsOf e 29 28, s.watchedRecord p (bitsOf e 15 0)⟩

/-- The parameters of Table 5.7, as the registers hold them. -/
def State.aszParams (s : State) (p : Part) : List Nat :=
  (upTo 3).map (fun r => s.regN .aszThresh p.val r) ++ (upTo 3).map (fun r => s.regN .aszUflow p.val r)
    ++ (upTo 3).map (fun r => s.regN .aszRun p.val r) ++ [s.regN .aszSilent p.val, s.regN .aszColdSteps p.val]

/-- Places of a list that hold nothing. -/
def missing (l : List (Option Nat)) : List Nat := l.zipIdx.filterMap (fun x => if x.1.isNone then some x.2 else none)

/-- A role at a width with no run; a group with every role at its w_max (R148, R160). -/
def RoleState.start (code : Nat) : RoleState := ⟨code, 0, 0, false⟩
def GroupState.cold (e : Nat) : GroupState :=
  ⟨RoleState.start (cfgMax e 0), RoleState.start (cfgMax e 1), RoleState.start (cfgMax e 2), false⟩

/-- A group's configuration in force. -/
def Assize.cfg (a : Assize) (g : Nat) : Nat := (Sparse.find? a.config g).getD 0xFFF
/-- A group's state; one with none starts at its w_max. -/
def Assize.group (a : Assize) (g : Nat) : GroupState := (Sparse.find? a.groups g).getD (GroupState.cold (a.cfg g))

/-- The watched G tensors of a group that have a record. -/
def Assize.gTensors (a : Assize) (g : Nat) : List Nat :=
  (a.watch.filter (fun w => w.readable && decide (w.role = 2 ∧ w.group = g ∧ w.record ≠ 0))).map (fun w => w.handle)

/-- Take the tables and parameters in force: groups new to the count start at w_max, those beyond it lose their
state (R148, R149). -/
def State.loadConfig (s : State) (p : Part) : State :=
  let groups := s.groupTable p
  let watch := (s.watchTable p).map (fun e => s.watchEntry p e)
  let n := groups.length
  let params := s.aszParams p
  s.onAssize p (fun a =>
    let config := groups.zipIdx.foldl (fun c x => match x.1 with
      | some e => Sparse.put c x.2 e
      | none => c) (a.config.filter (fun e => decide (e.1 < n)))
    let fresh := (upTo n).filter (fun g => (Sparse.find? a.groups g).isNone)
    let b := { a with config := config, unread := missing groups, watch := watch, params := params, groupCount := n }
    let runs := a.silentRuns.filter (fun e => decide (e.1 / 65536 < n) && !fresh.contains (e.1 / 65536))
    { b with groups := (upTo n).map (fun g => (g, b.group g)), silentRuns := runs })

/-- The memory a reading of the tables touches. -/
def State.configRanges (s : State) (p : Part) : List (Nat × Nat) :=
  [(s.regN .aszGroupBase p.val, 4 * s.regN .aszGroupCount p.val), (s.regN .aszWatchBase p.val, 4 * s.regN .aszWatchCount p.val)]
    ++ (s.watchTable p).flatMap (fun e => match e with
      | some e => s.handleRanges p (bitsOf e 15 0)
      | none => [])

/-- CRC-32C over the tables and parameters (R158, R531); the order and sizes are the model's (log 39). -/
def State.configDigest (s : State) (p : Part) : Nat :=
  let four (e : Option Nat) : List Byte := leBytes 4 (e.getD 0xFFFFFFFF)
  let params := s.aszParams p
  crc32c ((s.groupTable p).flatMap four ++ (s.watchTable p).flatMap four
    ++ (params.take 10).flatMap (fun v => leBytes 8 v) ++ leBytes 4 (params.getD 10 0))

/-! ## The state record (R157, Tables 5.10 and 5.11) -/

/-- One role's word. -/
def roleWord (r : RoleState) : List Byte := leBytes 4 (r.code % 4 + 256 * r.up + 65536 * r.down)

/-- The silent run of a watched G tensor of a group (R156). -/
def Assize.silent (a : Assize) (g h : Nat) : Nat := Sparse.get 0 a.silentRuns (65536 * g + h)

/-- A group's 16 bytes. -/
def Assize.groupBytes (a : Assize) (g : Nat) : List Byte :=
  let x := a.group g
  let run := (a.gTensors g).foldl (fun m h => Nat.max m (a.silent g h)) 0
  roleWord x.a ++ roleWord x.w ++ roleWord x.g
    ++ leBytes 4 (run + 65536 * b2n x.promoted + 131072 * b2n x.a.atMax + 262144 * b2n x.w.atMax + 524288 * b2n x.g.atMax)

/-- CRC-32C over bytes 27:0 of the header and the group states. -/
def recordCrc (header groups : List Byte) : Nat := crc32c (header.take 28 ++ groups)

/-- The per-tensor silent runs kept beside the record (R157): two bytes for each watch entry, in watch table order, of
the run of the G tensor it names and zero for any other (DESIGN CHOICE, log 64). -/
def Assize.runBytes (a : Assize) : List Byte :=
  a.watch.flatMap (fun w => leBytes 2 (if w.readable && decide (w.role = 2) then a.silent w.group w.handle else 0))

/-- The record of the current state. -/
def State.aszRecord (s : State) (p : Part) (step : Nat) : List Byte :=
  let a := (s.part p).assize
  let groups := (upTo a.groupCount).flatMap a.groupBytes
  let head := leBytes 4 0x315A5341 ++ leBytes 4 1 ++ leBytes 8 step ++ leBytes 4 a.groupCount
    ++ leBytes 4 (s.configDigest p) ++ leBytes 4 a.coldLeft
  head ++ leBytes 4 (recordCrc head groups) ++ List.replicate 32 0 ++ groups

/-- One role's state from its word. -/
def parseRole (w : Nat) (atMax : Bool) : RoleState := ⟨bitsOf w 1 0, bitsOf w 15 8, bitsOf w 31 16, atMax⟩

/-- A group's state and its silent run from 16 bytes. -/
def parseGroup (bs : List Byte) : GroupState × Nat :=
  let x := field bs 12 4
  (⟨parseRole (field bs 0 4) (bitOf x 17), parseRole (field bs 4 4) (bitOf x 18), parseRole (field bs 8 4) (bitOf x 19),
    bitOf x 16⟩, bitsOf x 15 0)

/-- Group states a record holds. -/
def recordGroups (bs : List Byte) : Nat := Nat.min (field bs 16 4) 4096

/-- Why a partition's state is invalid (R158): the first cause that holds. Once Assize has adopted a state or gone
cold only the first can hold (DEDUCED, log 42). -/
def State.invalidCause (s : State) (p : Part) : Option Nat :=
  let a := (s.part p).assize
  if !a.everRestored then some 1
  else if !a.awaiting then none
  else
    let bs := a.restored.getD []
    if field bs 0 4 ≠ 0x315A5341 ∨ field bs 4 4 ≠ 1 ∨ bs.length < 64
        ∨ recordCrc bs ((bs.drop 64).take (16 * recordGroups bs)) ≠ field bs 28 4 then some 2
    else if field bs 16 4 ≠ s.regN .aszGroupCount p.val then some 3
    else if field bs 20 4 ≠ s.configDigest p then some 4
    else none

/-- The state digest: the restored record's while it is judged and sound, else the current state's (R158). -/
def State.stateDigest (s : State) (p : Part) (step : Nat) : Nat :=
  let a := (s.part p).assize
  if a.awaiting && (s.invalidCause p).isNone then field (a.restored.getD []) 28 4 else field (s.aszRecord p step) 28 4

/-- The record and the runs that a snapshot of step `n` keeps for a later CHECKPOINT (R157): those of the restored state
while it is awaited and sound, as in the digest. -/
def State.savedState (s : State) (p : Part) (n : Nat) : List Byte × List Byte :=
  let a := (s.part p).assize
  if a.awaiting && (s.invalidCause p).isNone then
    let bs := a.restored.getD []
    let k := 64 + 16 * recordGroups bs
    (bs.take k, bs.drop k)
  else (s.aszRecord p n, a.runBytes)

/-- What a CHECKPOINT saves (R157): the state at the last snapshot; before the first one the state as it stands. -/
def State.savedNow (s : State) (p : Part) : List Byte × List Byte :=
  ((s.part p).assize.saved).getD (s.savedState p (s.regN .partStep p.val))

/-- This member's header, and whether its state is invalid noted and, while a restored state is awaited,
logged. -/
def State.ownHeader (s : State) (p : Part) (step : Nat) : State × List Byte :=
  let cause := s.invalidCause p
  let head := summaryHeader step (s.stateDigest p step) cause.isSome
  let awaiting := (s.part p).assize.awaiting
  let s := s.onAssize p (fun a => { a with invalid := cause.isSome })
  match cause with
  | some c => (if awaiting then s.log (assizeSource p) 5 (f1 c) else s, head)
  | none => (s, head)

/-! ## STEP_END and its snapshot (R141-R146) -/

/-- STEP_END (R141): it waits for every earlier command; the Update Die takes note of its step (R288). -/
def execStepEnd (ring : Ring) (s : State) : Out :=
  .next (s.opcodeRow ring 0x08 (fun _ _ _ => []) (fun p s k =>
    let before := ((s.part p).packets.filter (fun x =>
      decide (x.id < k.id) && decide (pktOpcode x.bytes = 0x08) && !x.ended)).length
    s.onUpdate p (fun u => { u with stepEnd := some (s.regN .partStep p.val + before) })))

/-- The memory a snapshot touches. -/
def State.snapshotRanges (s : State) (p : Part) : List (Nat × Nat) :=
  s.configRanges p ++ ((s.part p).tensors.filter (fun t => decide (t.2.record ≠ 0))).map (fun t => (t.2.record, 64))

/-- A watch entry's summary entry, with the poison of its record. -/
def State.watchSummary (s : State) (p : Part) (w : WatchEntry) : List Byte × Bool :=
  if !w.readable then (emptyEntry 0xFFFF 0, false)
  else if w.record = 0 then (emptyEntry w.handle w.handle, false)
  else (summaryEntry w.handle (s.readVa p w.record 64), s.poisoned p w.record 64)

/-- The ring of a partition's Gauger: its lowest die's. -/
def State.gaugerOf (s : State) (p : Part) : BitVec 16 := gaugerSource ((s.diesOf p).headD 0)

/-- Clear every record of the partition; the watched ones are held (R141). -/
def State.clearRecords (s : State) (p : Part) : State :=
  let watched := (((s.part p).assize.watch.map (fun w => w.record)).filter (fun a => decide (a ≠ 0))).eraseDups
  let all := ((((s.part p).tensors.map (fun t => t.2.record)).filter (fun a => decide (a ≠ 0))) ++ watched).eraseDups
  let s := all.foldl (fun s a =>
    s.writeVa p a (clearedRecord (s.readVa p a 64) (watched.contains a)) (s.poisoned p a 64)) s
  s.onAssize p (fun a => { a with held := watched.foldl (fun m x => Sparse.put m x true) a.held })

/-- Copy the widths into a slot and mark them provisional (R141). -/
def Assize.provisional (a : Assize) (slot : Nat) : Assize :=
  let old := a.words.filter (fun e => decide (e.1 / 4096 ≠ slot))
  { a with words := (upTo a.groupCount).foldl (fun m g =>
      let x := if a.awaiting then GroupState.cold (a.cfg g) else a.group g
      Sparse.put m (slot * 4096 + g) (mkWord x.a.code x.w.code x.g.code x.promoted (a.cold || a.awaiting) false true)) old }

/-- A page of the partition's own HBM that may be written (R154). -/
def State.ownHbmPage (s : State) (p : Part) (va : Nat) : Bool :=
  match pageIndex va with
  | some i => let e := (s.part p).page i
              e.valid && e.writable && decide (e.target = .hbm) && !e.foreign
  | none => false

/-- Both slots of the memory copy lie in such pages. -/
def State.copyOk (s : State) (p : Part) : Bool :=
  let base := s.regN .aszWordBase p.val
  s.ownHbmPage p base && s.ownHbmPage p (base + 16383)

/-- Keep the copy of a slot's words in memory; when its pages cannot take it, that is logged once after each write of
ASZ_WORD_BASE (R153, R154). -/
def State.copyWords (s : State) (p : Part) (slot : Nat) (words : List (Nat × BitVec 16)) : State :=
  let base := s.regN .aszWordBase p.val
  if s.copyOk p then words.foldl (fun s w => s.writeVa p (base + 8192 * slot + 2 * w.1) (leBytes 2 w.2.toNat) false) s
  else if (s.part p).assize.copyLogged then s
  else (s.onAssize p (fun a => { a with copyLogged := true })).log (assizeSource p) 11 (f8 base)

/-- Promotions that software has ended (R156). -/
def Assize.endPromotions (a : Assize) : Assize :=
  { a with
    groups := a.groups.map (fun e => (e.1, if a.clears.contains e.1 then { e.2 with promoted := false } else e.2))
    demote := a.demote ++ (a.clears.filter (fun g => (a.group g).promoted)).flatMap a.gTensors
    clears := [] }

/-- The partition's statistics bucket (R144). -/
def Partition.statsBucket (q : Partition) : Option (Nat × Bucket) := List.find? (fun b => b.2.kind = 1) q.buckets

/-- The statistics round of a step has ended before the step's snapshot, and its result waits for it (R147). -/
def Assize.statsDone (a : Assize) (n : Nat) : Bool := a.arrived.any (fun x => !x.agreement && decide (x.step = n))

/-- The statistics round that a snapshot of step `n` starts has key step `n` (R339): a round expected under another
step, as after a RESTORE, is expected anew under this one (DEDUCED, log 118). -/
def State.keyStats (s : State) (p : Part) (id : Nat) (b : Bucket) (n : Nat) : State :=
  if (s.part p).assize.statsDone n || (s.part p).rounds.any (fun r => decide (r.bucket = id ∧ r.cls = 2 ∧ r.step = n)) then s
  else s.onPart p (fun q => { q with rounds := q.rounds.filter (fun r => decide (¬ (r.bucket = id ∧ r.cls = 2)))
    ++ [Round.pending id 2 n b.size b.engine b.position] })

/-- The summary starts on its way (R141, R146): over the bucket, or at once when the partition declares none; a
bucket of another size ends its round with failed and suspect set. A summary with a poisoned line counts as suspect
(DESIGN CHOICE, log 115). -/
def State.sendSummary (s : State) (p : Part) (n : Nat) (items : List (List Byte × Bool)) : State :=
  let need := 64 * (items.foldl (fun a x => a + x.1.length / 64) 0)
  match (s.part p).statsBucket with
  | none => s.onAssize p (fun a => { a with
      arrived := a.arrived ++ [⟨items.flatMap (fun x => x.1), items.any (fun x => x.2), false, n⟩] })
  | some (id, b) =>
    let s := s.keyStats p id b n
    let mine (r : Round) : Bool := decide (r.bucket = id ∧ r.cls = 2 ∧ r.step = n)
    if b.size = need then s.onPart p (fun q => { q with rounds := updateFirst mine (fun r => { r with ready := true }) q.rounds })
    else
      let s := s.log (assizeSource p) 9 (f4 b.size ++ f4 need ++ f4 n)
      match (s.part p).rounds.find? mine with
      | some r => s.closeRound p b { r with flags := 3 }
      | none => if (s.part p).assize.statsDone n then s else
          s.onAssize p (fun a => { a with arrived := a.arrived ++ [⟨[], true, false, n⟩] })

/-- The snapshot (R141). -/
def State.snapshot (s : State) (p : Part) (k : Packet) : State :=
  let n := s.regN .partStep p.val
  let s := s.setRegN .partStep p.val 0 (n + 1)
  let s := s.loadConfig p
  let s := (missing (s.watchTable p)).foldl (fun s i => s.log (assizeSource p) 10 (f1 0 ++ f4 i ++ f4 n)) s
  let s := (missing (s.groupTable p)).foldl (fun s i => s.log (assizeSource p) 10 (f1 1 ++ f4 i ++ f4 n)) s
  let s := s.onAssize p (fun a => { a.endPromotions with coldLeft := a.coldLeft - 1 })
  let (s, head) := s.ownHeader p n
  let watch := (s.part p).assize.watch
  let items := (head, false) :: watch.map (fun w => s.watchSummary p w)
  let s := (watch.filter (fun w => w.readable && decide (w.record = 0))).foldl (fun s w => s.descCheck (s.gaugerOf p) w.handle) s
  let base := s.regN .gauSrcBase p.val
  let s := (items.foldl (fun (x : State × Nat) i => (x.1.writeVa p x.2 i.1 i.2, x.2 + i.1.length)) (s, base)).1
  let s := s.clearRecords p
  let kept := s.savedState p n
  let s := s.onAssize p (fun a => { a.provisional ((n + 1) % 2) with
    openStep := some n
    saved := some kept
    arrived := a.arrived.filter (fun x => x.agreement || decide (n ≤ x.step)) })
  let slot := (n + 1) % 2
  let s := s.copyWords p slot ((upTo (s.part p).assize.groupCount).map (fun g => (g, s.wordAt p slot g)))
  let s := s.sendSummary p n items
  (s.endPacket p k.id stOk (fun x => { x with value := n + 1 })).startWaiting p

/-- STEP_END_SNAPSHOT (R141, R143): the oldest STEP_END takes effect once every earlier command is done, no
partial is on its way, and the previous summary is applied. -/
def execStepEndSnapshot (p : Part) (s : State) : Out :=
  .next (if s.live && s.running p then
    match (s.part p).waitingPacket 0x08 with
    | none => s
    | some k =>
      let a := (s.part p).assize
      if s.earlierDone p k.id && s.partialsDone p && a.openStep.isNone && !a.arrived.any (fun x => x.agreement) && a.deciding.isNone then
        let r := s.snapshotRanges p
        if s.ready p r then s.snapshot p k else s.ask p r
      else s
  else s)

/-! ## The rule (R151, R156) -/

/-- What the reduced entries of a role sum to. -/
structure RoleSums where
  count : Nat
  sats  : Nat
  bins  : List Nat
deriving DecidableEq, Repr

/-- Entry `i` of a reduced summary. -/
def summaryAt (bytes : List Byte) (i : Nat) : List Byte := (bytes.drop (64 + 128 * i)).take 128

/-- R145. -/
def entryConsistent (e : List Byte) : Bool :=
  field e 60 2 = field e 62 2 && field e 48 1 = field e 49 1 && field e 50 1 = field e 51 1

/-- A group's role summed over its consistent watched tensors. -/
def Assize.sums (a : Assize) (bytes : List Byte) (g role : Nat) : RoleSums :=
  (a.watch.zipIdx.filter (fun w => w.1.readable && decide (w.1.group = g ∧ w.1.role = role)
      && entryConsistent (summaryAt bytes w.2))).foldl
    (fun t w =>
      let e := summaryAt bytes w.2
      ⟨t.count + field e 0 8, t.sats + field e 16 8,
        t.bins.zipIdx.map (fun b => b.1 + field e (64 + 4 * b.2) 4)⟩)
    ⟨0, 0, List.replicate 16 0⟩

/-- U(w): values lost at a width, below half a step (R151). -/
def RoleSums.under (t : RoleSums) (w : Nat) : Nat := if w ≥ 16 then 0 else (t.bins.take (15 - w)).foldl (fun a x => a + x) 0

/-- What the rule reports: a new width, or the top reached. -/
inductive RoleEvent where
  | none | changed (bits : Nat) | atMax
deriving DecidableEq, Repr

/-- A code within a role's limits; pinned at w_max when they cross (R148). -/
def clampCode (cfg role code : Nat) : Nat := Nat.min (Nat.max code (cfgMin cfg role)) (cfgMax cfg role)

/-- The width rule for one role (R151). -/
def RoleState.rule (x : RoleState) (params : List Nat) (cfg role : Nat) (t : RoleSums) : RoleState × RoleEvent :=
  let lo := cfgMin cfg role
  let hi := cfgMax cfg role
  let th := params.getD role 0
  let uf := params.getD (3 + role) 0
  let rn := params.getD (6 + role) 0
  let w := 4 * (x.code + 1)
  let total := t.bins.foldl (fun a b => a + b) 0
  let k := 2 ^ 24
  let r : RoleState × RoleEvent :=
    if t.count = 0 then (x, .none)
    else
      let widen := decide (t.sats * k > bitsOf th 55 32 * t.count) || (decide (total > 0) && decide (t.under w * k > bitsOf uf 55 32 * total))
      let narrow := decide (w > 4) && decide (t.sats * k < bitsOf th 23 0 * t.count)
        && (total = 0 || decide (t.under (w - 4) * k < bitsOf uf 23 0 * total))
      let x : RoleState :=
        if widen then { x with up := Nat.min (x.up + 1) 255, down := 0 }
        else if narrow then { x with down := Nat.min (x.down + 1) 65535, up := 0, atMax := false }
        else { x with up := 0, down := 0, atMax := false }
      if x.up ≥ bitsOf rn 39 32 then
        if x.code < hi then ({ x with code := x.code + 1, up := 0, atMax := false }, .changed (w + 4))
        else if !x.atMax then ({ x with atMax := true }, .atMax)
        else (x, .none)
      else if x.down ≥ bitsOf rn 15 0 ∧ x.code > lo then ({ x with code := x.code - 1, down := 0 }, .changed (w - 4))
      else (x, .none)
  ({ r.1 with code := clampCode cfg role r.1.code }, r.2)

/-- Report a role's event. -/
def State.roleEvent (s : State) (p : Part) (g role n : Nat) (e : RoleEvent) : State :=
  match e with
  | .none => s
  | .changed bits => s.log (assizeSource p) 1 (f2 g ++ f1 role ++ f1 bits ++ f4 n)
  | .atMax => s.log (assizeSource p) 2 (f2 g ++ f1 role ++ f4 n)

/-- The width rule for one group (R151, R531: none for a group whose entry could not be read). -/
def State.groupRule (s : State) (p : Part) (bytes : List Byte) (n g : Nat) : State :=
  let a := (s.part p).assize
  if a.unread.contains g then s
  else
    let x := a.group g
    let ra := x.a.rule a.params (a.cfg g) 0 (a.sums bytes g 0)
    let rw := x.w.rule a.params (a.cfg g) 1 (a.sums bytes g 1)
    let rg := x.g.rule a.params (a.cfg g) 2 (a.sums bytes g 2)
    let s := s.onAssize p (fun a => { a with groups := Sparse.put a.groups g { x with a := ra.1, w := rw.1, g := rg.1 } })
    ((s.roleEvent p g 0 n ra.2).roleEvent p g 1 n rw.2).roleEvent p g 2 n rg.2

/-- No earlier watch entry names the same G tensor of the same group: a tensor has one silent run. -/
def Assize.firstWatch (a : Assize) (w : WatchEntry) (i : Nat) : Bool :=
  !(a.watch.take i).any (fun v => v.readable && decide (v.role = 2 ∧ v.group = w.group ∧ v.handle = w.handle))

/-- The silent rule for one watch entry (R156). -/
def State.silentRule (s : State) (p : Part) (bytes : List Byte) (n : Nat) (w : WatchEntry × Nat) : State :=
  let a := (s.part p).assize
  let e := summaryAt bytes w.2
  let g := w.1.group
  let silent := a.params.getD 9 0
  let count := field e 0 8
  if w.1.readable && decide (w.1.role = 2 ∧ w.1.record ≠ 0 ∧ g < a.groupCount) && !a.unread.contains g
      && !bitOf (a.cfg g) 12 && entryConsistent e && decide (count > 0) && a.firstWatch w.1 w.2 then
    if field e 8 8 * 2 ^ 24 ≥ bitsOf silent 56 32 * count then
      let old := a.silent g w.1.handle
      let run := Nat.min (old + 1) 65535
      let s := s.onAssize p (fun a => { a with silentRuns := Sparse.set 0 a.silentRuns (65536 * g + w.1.handle) run })
      if run ≠ old ∧ bitsOf silent 15 0 ≠ 0 ∧ run % bitsOf silent 15 0 = 0 then
        let s := s.log (assizeSource p) 3 (f2 g ++ f2 w.1.handle ++ f4 run ++ f4 n)
        s.onAssize p (fun a => { a with
          groups := Sparse.put a.groups g { a.group g with promoted := true }
          promote := a.promote ++ a.gTensors g
          demote := a.demote.filter (fun h => !(a.gTensors g).contains h) })
      else s
    else s.onAssize p (fun a => { a with silentRuns := Sparse.set 0 a.silentRuns (65536 * g + w.1.handle) 0 })
  else s

/-! ## Cold start, adoption (R159-R161) -/

/-- Going cold (R160). -/
def State.goCold (s : State) (p : Part) (n : Nat) : State :=
  let a := (s.part p).assize
  let steps := a.params.getD 10 0
  let promoted := (a.groups.filter (fun e => e.2.promoted)).map (fun e => e.1)
  let s := s.onAssize p (fun a => { a with
    groups := (upTo a.groupCount).map (fun g => (g, GroupState.cold (a.cfg g)))
    silentRuns := []
    coldLeft := steps
    cold := true
    awaiting := false
    demote := a.demote ++ promoted.flatMap a.gTensors
    promote := [] })
  s.log (assizeSource p) 7 (f4 steps ++ f4 n)

/-- Adopting the restored state (R157, R159): each of a group's G tensors takes the group's silent run. The record holds
no cold flag: the state is cold while cold steps are left; the first-pass flags of promoted groups are left as they
stand (DESIGN CHOICE, log 119). -/
def Assize.adopt (a : Assize) : Assize :=
  let bs := a.restored.getD []
  let at' (g : Nat) : GroupState × Nat := parseGroup ((bs.drop (64 + 16 * g)).take 16)
  let left := field bs 24 4
  { a with
    groups := (upTo a.groupCount).map (fun g => (g, (at' g).1))
    silentRuns := (upTo a.groupCount).foldl (fun m g =>
      (a.gTensors g).foldl (fun m h => Sparse.set 0 m (65536 * g + h) (at' g).2) m) []
    coldLeft := left
    cold := decide (left > 0)
    awaiting := false }

/-- The first reduced header after a restore: every member adopts, or every member goes cold (R159). -/
def State.firstHeader (s : State) (p : Part) (bytes : List Byte) (n : Nat) : State :=
  if field bytes 32 4 = 0 ∧ field bytes 8 8 = field bytes 16 8 ∧ field bytes 24 4 = field bytes 28 4 then
    s.onAssize p Assize.adopt
  else s.goCold p n

/-- The replicas' states differ (R161). -/
def headerDiverged (bytes : List Byte) : Bool := field bytes 24 4 ≠ field bytes 28 4 || field bytes 8 8 ≠ field bytes 16 8

/-- ASSIZE_DIVERGED, and cold. -/
def State.diverge (s : State) (p : Part) (bytes : List Byte) (n : Nat) : State :=
  (s.log (assizeSource p) 6 (f4 (field bytes 24 4) ++ f4 (field bytes 28 4) ++ f4 (field bytes 8 8) ++ f4 (field bytes 16 8))).goCold p n

/-- Clear bits of ASZ_CTRL (Table 18.7). -/
def State.aszCtrlDone (s : State) (p : Part) (agreement : Bool) : State :=
  s.setRegN .aszCtrl p.val 0 (if agreement then 0 else s.regN .aszCtrl p.val / 2 * 2)

/-! ## Final words (R153, R154) -/

/-- Set or clear the first-pass flag of a tensor and the promoted flag of its record (R156). -/
def State.flagTensor (s : State) (p : Part) (h : Nat) (on : Bool) : State :=
  let at' := s.descAddr p h
  let b := (s.readVa p (at' + 9) 1).getD 0 0
  let s := s.writeVa p (at' + 9) [if on then b ||| 0x40 else b &&& 0xBF] false
  let rec' := (s.desc p h).stats
  if rec' = 0 then s
  else
    let f := (s.readVa p rec' 1).getD 0 0
    s.writeVa p rec' [if on then f ||| 8 else f &&& 0xF7] false

/-- The final word of a group: changed against the word of the previous step, which the other slot holds; cold while a
restored state is awaited (R159). -/
def State.finalWord (s : State) (p : Part) (slot g : Nat) : BitVec 16 :=
  let a := (s.part p).assize
  let x := if a.awaiting then GroupState.cold (a.cfg g) else a.group g
  let codes := x.a.code + 4 * x.w.code + 16 * x.g.code
  mkWord x.a.code x.w.code x.g.code x.promoted (a.cold || a.awaiting)
    (decide (codes ≠ (s.wordAt p ((slot + 1) % 2) g).toNat % 64)) false

/-- Write a slot's final words: descriptor flags first, then the copy in memory, then Assize's own words. -/
def State.finishWords (s : State) (p : Part) (slot : Nat) : State :=
  let a := (s.part p).assize
  let words := (upTo a.groupCount).map (fun g => (g, s.finalWord p slot g))
  let s := a.demote.foldl (fun s h => s.flagTensor p h false) s
  let s := a.promote.foldl (fun s h => s.flagTensor p h true) s
  let s := s.copyWords p slot words
  s.onAssize p (fun a => { a with
    words := words.foldl (fun m w => Sparse.put m (slot * 4096 + w.1) w.2) (a.words.filter (fun e => decide (e.1 / 4096 ≠ slot)))
    promote := []
    demote := [] })

/-- The memory the flags lie in. -/
def State.flagRanges (s : State) (p : Part) : List (Nat × Nat) :=
  let a := (s.part p).assize
  a.watch.flatMap (fun w => if w.readable && decide (w.record ≠ 0) then [(s.descAddr p w.handle, 128), (w.record, 64)] else [])

/-! ## The summary arrives (R142, R145, R147, R151-R161) -/

/-- STATS_INCONSISTENT for each entry whose members disagree (R145). -/
def State.logInconsistent (s : State) (p : Part) (bytes : List Byte) (n : Nat) : State :=
  (upTo (s.part p).assize.watch.length).foldl (fun s i =>
    if entryConsistent (summaryAt bytes i) then s else s.log (s.gaugerOf p) 5 (f4 i ++ f4 n)) s

/-- The decision of step `n` (R151, R156, R160): none while cold steps remain. -/
def State.decideStep (s : State) (p : Part) (bytes : List Byte) (n : Nat) : State :=
  let a := (s.part p).assize
  if a.cold && decide (a.coldLeft > 0) then s
  else
    let s := if a.cold then (s.onAssize p (fun a => { a with cold := false })).log (assizeSource p) 8 (f4 n) else s
    let s := (upTo a.groupCount).foldl (fun s g => s.groupRule p bytes n g) s
    a.watch.zipIdx.foldl (fun s w => s.silentRule p bytes n w) s

/-- A statistics summary (not an agreement header) for step `n`: a suspect one decides nothing (R147). -/
def State.takeSummary (s : State) (p : Part) (x : Summary) (n : Nat) : State :=
  let slot := (n + 1) % 2
  if x.suspect then
    ((s.log (assizeSource p) 4 (f4 n)).releaseRecords p x.bytes true).onAssize p (fun a => { a with deciding := some slot })
  else
    let s := (s.logInconsistent p x.bytes n).releaseRecords p x.bytes false
    let awaiting := (s.part p).assize.awaiting
    let s := s.aszCtrlDone p false
    let s :=
      if awaiting then s.firstHeader p x.bytes n
      else if headerDiverged x.bytes then s.diverge p x.bytes n
      else s.decideStep p x.bytes n
    s.onAssize p (fun a => { a with deciding := some slot })

/-- An agreement header: its outcome is written at once to the slot of the current step (R159). -/
def State.takeAgreement (s : State) (p : Part) (x : Summary) : State :=
  let n := s.regN .partStep p.val
  let awaiting := (s.part p).assize.awaiting
  if x.suspect then s.log (assizeSource p) 4 (f4 n)
  else
    let s := s.aszCtrlDone p true
    if awaiting then (s.firstHeader p x.bytes n).finishWords p (n % 2)
    else if headerDiverged x.bytes then (s.diverge p x.bytes n).finishWords p (n % 2)
    else s

/-- The oldest summary that can be acted on, and the rest: an agreement header, or the summary of the open step; one that
came before its step's STEP_END stays for it (R147). -/
def Assize.nextSummary (a : Assize) : Option (Summary × List Summary) :=
  takeFirst (fun x => x.agreement || decide (a.openStep = some x.step)) a.arrived

/-- STATS_SUMMARY_ARRIVAL (R142-R161). -/
def execStatsSummaryArrival (p : Part) (s : State) : Out :=
  .next (if s.live && s.running p then
    let a := (s.part p).assize
    match a.nextSummary with
    | none => s
    | some (x, rest) =>
      let r := s.flagRanges p
      if a.deciding.isSome then s
      else if !s.ready p r then s.ask p r
      else
        let s := s.onAssize p (fun a => { a with arrived := rest })
        if x.agreement then s.takeAgreement p x else s.takeSummary p x x.step
  else s)

/-- ASSIZE_DECISION_COMPLETE (R143, R154). -/
def execAssizeDecisionComplete (p : Part) (s : State) : Out :=
  .next (if s.live && s.running p then
    match (s.part p).assize.deciding with
    | none => s
    | some slot =>
      let r := s.flagRanges p
      if s.ready p r then
        (s.finishWords p slot).onAssize p (fun a => { a with deciding := none, openStep := none })
      else s.ask p r
  else s)

/-! ## ASZ_CTRL and ASZ_PROMOTE_CLR (R156, R159) -/

/-- The saved area at UPD_ASZ_SAVE: the record, the parameter table at the next multiple of 64, then the silent runs
(log 64): where the table and the runs stand, and the length of the whole, for a record of so many groups. -/
def savedTableAt (groups : Nat) : Nat := ceilDiv (64 + 16 * groups) 64 * 64
def State.savedRunsAt (s : State) (p : Part) (groups : Nat) : Nat := savedTableAt groups + 64 * s.regN .updPtabCount p.val
def State.savedLength (s : State) (p : Part) (groups : Nat) : Nat :=
  s.savedRunsAt p groups + 2 * s.regN .aszWatchCount p.val

/-- The memory of a saved record and of the runs beside it. -/
def State.savedRanges (s : State) (p : Part) : List (Nat × Nat) :=
  let at' := s.regN .updAszSave p.val
  let groups := recordGroups (s.readVa p at' 64)
  [(at', 64 + 16 * groups), (at' + s.savedRunsAt p groups, 2 * s.regN .aszWatchCount p.val)]

/-- Read the saved record and the silent runs beside it, and publish cold words. Memory that is not mapped or is
poisoned reads as no record at all, so that the state is invalid with cause 2 (DESIGN CHOICE, log 120). -/
def State.restoreAssize (s : State) (p : Part) : State :=
  let r := s.savedRanges p
  if !s.ready p r then s.ask p r
  else
    let bs := if r.all (fun x => s.mapped p x.1 x.2 && !s.poisoned p x.1 x.2) then r.flatMap (fun x => s.readVa p x.1 x.2)
      else []
    let s := s.setRegN .aszCtrl p.val 0 (s.regN .aszCtrl p.val ||| 1)
    s.onAssize p (fun a => { a with restored := some bs, everRestored := true, awaiting := true, words := [] })

/-- ASZ_RESTORE (R159). -/
def execAszRestore (p : Part) (s : State) : Out :=
  .next (if s.live then s.ownWrite (partReq p) .aszCtrl p.val 0 (fun s => s.restoreAssize p) else s)

/-- Start the agreement round: the tables are read while a restored state is awaited (log 53); an expected or
activated statistics round that has not begun makes room (log 51). -/
def State.agree (s : State) (p : Part) : State :=
  let r := s.configRanges p
  if !s.ready p r then s.ask p r
  else
    let s := if (s.part p).assize.awaiting then s.loadConfig p else s
    let n := s.regN .partStep p.val
    let (s, head) := s.ownHeader p n
    let s := s.setRegN .aszCtrl p.val 0 (s.regN .aszCtrl p.val ||| 2)
    match (s.part p).statsBucket with
    | none => s.onAssize p (fun a => { a with arrived := a.arrived ++ [⟨head, false, true, n⟩] })
    | some (id, b) =>
      if (s.part p).rounds.any (fun r => decide (r.bucket = id ∧ r.cls = 0)) then s
      else
        let back (r : Round) : Round :=
          if r.bucket = id ∧ r.state = .active ∧ r.ready = false ∧ s.roundBegun p id = false then
            { Round.pending id r.cls r.step r.size r.engine r.position with ready := r.ready }
          else r
        let x := { Round.pending id 0 n 64 b.engine b.position with ready := true, source := [(head, false)] }
        s.onPart p (fun q => { q with rounds := q.rounds.map back ++ [x] })

/-- ASZ_AGREE (R159). -/
def execAszAgree (p : Part) (s : State) : Out :=
  .next (if s.live then s.ownWrite (partReq p) .aszCtrl p.val 0 (fun s => s.agree p) else s)

/-- ASZ_PROMOTE_CLR (R156). -/
def execAszPromoteClr (p : Part) (group : BitVec 12) (s : State) : Out :=
  .next (if s.live then s.ownWrite (partReq p) .aszPromoteClr p.val 0 (fun s => s.onAssize p (fun a => { a with
    clears := if a.clears.contains group.toNat then a.clears else a.clears ++ [group.toNat] })) else s)

end Sys2Proof.Machine
end

