-- ==== Sys2Proof/Machine/UpdateDie.lean ====
section
/-! DEFINITION. The Update Die's UPDATE_STEP (R281, R284-R301): the parameter table, the packet's checks, pass one,
pass two, the release of entries. -/

namespace Sys2Proof.Machine

/-! ## Parameter table entries (Table 10.3) -/

def peMaster (e : List Byte) : Nat := field e 2 2
def peM (e : List Byte) : Nat := field e 4 2
def peV (e : List Byte) : Nat := field e 6 2
def peGrad (e : List Byte) : Nat := field e 8 2
def peWork (e : List Byte) : Nat := field e 10 2
def peCopy (e : List Byte) : Nat := field e 12 2
def peMscale (e : List Byte) : Nat := field e 14 2
def peScale (e : List Byte) : Nat := field e 16 2
def peGroup (e : List Byte) : Nat := field e 18 2 % 4096
def peBucket (e : List Byte) : Nat := field e 20 2 % 4096
def peObj (e : List Byte) : SyncObj := BitVec.ofNat 15 (field e 22 2)
def peRule (e : List Byte) : Nat := field e 24 1 % 4
def peLearned (e : List Byte) : Bool := bitOf (field e 24 1) 2
def peRole (e : List Byte) : Nat := bitsOf (field e 24 1) 4 3
def peDecayOff (e : List Byte) : Bool := bitOf (field e 24 1) 5
def peMask (e : List Byte) : Nat := field e 32 6
def peElements (e : List Byte) : Nat := field e 40 6

/-- Granules of an entry; elements of granule `g`. -/
def granules (e : List Byte) : Nat := ceilDiv (peElements e) 4096
def granuleSize (e : List Byte) (g : Nat) : Nat := Nat.min 4096 (peElements e - 4096 * g)

/-! ## The packet (Table 10.4) -/

def usStep (bs : List Byte) : Nat := pktParam bs 0 4
def usLr (bs : List Byte) : Nat := pktParam bs 4 4
def usBeta1 (bs : List Byte) : Nat := pktParam bs 8 4
def usBeta2 (bs : List Byte) : Nat := pktParam bs 12 4
def usEps (bs : List Byte) : Nat := pktParam bs 16 4
def usWd (bs : List Byte) : Nat := pktParam bs 20 4
def usClip (bs : List Byte) : Nat := pktParam bs 24 4
def usFirst (bs : List Byte) : Nat := pktParam bs 28 2
def usCount (bs : List Byte) : Nat := pktParam bs 30 2
def usNorm (bs : List Byte) : Nat := pktParam bs 32 2
def usCopyEn (bs : List Byte) : Bool := bitOf (pktParam bs 34 1) 0
def usServing (bs : List Byte) : Bool := bitOf (pktParam bs 34 1) 1
def usRewrite (bs : List Byte) : Bool := bitOf (pktParam bs 34 1) 2

/-- Address of a table entry; the entries a packet names. -/
def State.ptabAddr (s : State) (p : Part) (i : Nat) : Nat := s.regN .updPtabBase p.val + 64 * i
def State.ptabEntries (s : State) (p : Part) (bs : List Byte) : List (List Byte) :=
  (upTo (usCount bs)).map (fun i => s.readVa p (s.ptabAddr p (usFirst bs + i)) 64)

/-- The handles of an entry: those of its state, then the others. -/
def stateHandles (e : List Byte) : List Nat :=
  [peMaster e, peM e] ++ (if peRule e = 0 then [peV e] else []) ++ [peMscale e]
def otherHandles (bs e : List Byte) : List Nat :=
  [peGrad e, peWork e] ++ (if usCopyEn bs ∧ peCopy e ≠ 0 then [peCopy e] else [])

/-- A tensor lies in the state region (R282). -/
def State.inStateRegion (s : State) (p : Part) (d : Desc) : Bool :=
  decide (s.regN .updStateBase p.val ≤ d.base ∧ d.base + d.footprint ≤ s.regN .updStateBase p.val + s.regN .updStateSize p.val)

/-- The first handle of a list that fails its check, with what the check gives. -/
def State.firstBadHandle (s : State) (p : Part) (l : List Nat) : Option (Nat × BitVec 8 × Bool) :=
  l.findSome? (fun h => match s.checkHandle p h with
    | .fail st d => some (h, st, d)
    | .ok _ => none)

/-- A scale_entry that breaks R285; it must name a learned entry (log 58). -/
def scaleEntryBad (first : Nat) (all : List (List Byte)) (i : Nat) (e : List Byte) : Bool :=
  !peLearned e && peScale e ≠ 0xFFFF && (decide (peScale e < first) || decide (peScale e ≥ first + i)
    || !peLearned (all.getD (peScale e - first) []))

/-- The checks of an entry that give HANDLE_INVALID beside its handles (R287); in rewrite mode no bucket is needed
(R296, log 55). -/
def State.entryBad (s : State) (p : Part) (bs : List Byte) (all : List (List Byte)) (i : Nat) (e : List Byte) : Bool :=
  (stateHandles e).any (fun h => !s.inStateRegion p (s.desc p h))
    || !s.ownsSync p (peObj e) || (!usRewrite bs && ((s.part p).bucket? (peBucket e)).isNone)
    || scaleEntryBad (usFirst bs) all i e || peRule e = 3
    || (!peLearned e && peScale e = 0xFFFF && (s.desc p (peWork e)).scaleHandle = 0)

/-- R287's formats. -/
def State.entryFmtBad (s : State) (p : Part) (e : List Byte) : Bool :=
  let f (h : Nat) : Nat := (s.desc p h).fmt
  let moment (h : Nat) : Bool := f h = 8 || f h = 9 || f h = bf16
  decide (f (peMaster e) ≠ f48) || !moment (peM e) || (peRule e = 0 && !moment (peV e))
    || !(f (peGrad e) = fp32 || f (peGrad e) = bf16) || (!peLearned e && decide (f (peWork e) ≥ 8))

/-- R287's shapes: the moment scales have an extent of their own. -/
def State.entryShapeBad (s : State) (p : Part) (bs e : List Byte) : Bool :=
  let hs := [peMaster e, peM e] ++ (if peRule e = 0 then [peV e] else []) ++ otherHandles bs e
  hs.any (fun h => decide ((s.desc p h).maxElements ≠ peElements e))

/-- The memory the checks read. -/
def State.updRanges (s : State) (p : Part) (bs : List Byte) : List (Nat × Nat) :=
  let n := if usFirst bs + usCount bs ≤ s.regN .updPtabCount p.val then usCount bs else 0
  (s.ptabAddr p (usFirst bs), 64 * n) :: ((s.ptabEntries p bs).take n).flatMap (fun e =>
    (stateHandles e ++ otherHandles bs e).flatMap (fun h => s.handleRanges p h))

/-- R12's checks of an UPDATE_STEP; what ends it, if anything does. -/
def State.updCheck (s : State) (p : Part) (bs : List Byte) (es : List (List Byte)) : Option (BitVec 8 × Option (Nat × Bool)) :=
  if usFirst bs + usCount bs > s.regN .updPtabCount p.val then some (stHandle, none)
  else match s.firstBadHandle p (es.flatMap (fun e => stateHandles e ++ otherHandles bs e)) with
    | some (h, st, d) => some (st, some (h, d))
    | none =>
      if es.zipIdx.any (fun e => s.entryBad p bs es e.2 e.1)
          || (usNorm bs ≠ 0xFFF && !usRewrite bs && ((s.part p).bucket? (usNorm bs)).isNone) then some (stHandle, none)
      else if es.any (fun e => s.entryFmtBad p e) then some (stFormat, none)
      else if es.any (fun e => s.entryShapeBad p bs e) then some (stShapeOver, none)
      else none

/-- Bytes an UPDATE_STEP moves: its masters, moments and gradients. -/
def State.updBytes (s : State) (p : Part) (k : Packet) : Nat :=
  match pktOpcode k.bytes with
  | 0x11 => (s.ptabEntries p k.bytes).foldl (fun a e =>
      ([peMaster e, peM e] ++ (if peRule e = 0 then [peV e] else []) ++ [peGrad e]).foldl (fun a h => a + (s.desc p h).footprint) a) 0
  | 0x12 => s.regN .updStateSize p.val
  | 0x13 => s.regN .updStateSize p.val
  | _ => s.copyBytes p k

/-- A job for a packet whose checks have passed. -/
def mkJob (k : Packet) (es : List (List Byte)) (bound : Nat) : UpdJob where
  packet := k.id
  rewrite := usRewrite k.bytes
  step := usStep k.bytes
  boundStep := bound
  entries := es.zipIdx.map (fun e => ⟨usFirst k.bytes + e.2, e.1, none, []⟩)
  norm := none
  normSuspect := false
  normPoison := false
  skip := none
  passTwo := false
  written := 0
  released := 0
  saturated := false
  poison := none

/-- An UPDATE_STEP whose checks have passed asks for its unit of the Update Die and joins the partition's work, with its norm
round (R281, R290). -/
def State.admitUpdate (s : State) (p : Part) (k : Packet) (es : List (List Byte)) (bound : Nat) : State :=
  let bs := k.bytes
  let s := s.request p k updKey (s.updBytes p k) (fun x => s.updBytes p x) (fun s => s)
  let s := s.onUpdate p (fun u => { u with jobs := u.jobs ++ [mkJob k es bound] })
  match (s.part p).bucket? (usNorm bs) with
  | some b =>
    if usRewrite bs ∨ usNorm bs = 0xFFF then s
    else s.onPart p (fun q => { q with
      rounds := q.rounds ++ [Round.pending (usNorm bs) 3 bound b.size b.engine b.position] })
  | none => s

/-- Check an UPDATE_STEP and copy its entries (R284, R287): its place on the Update Die comes before its handles, formats and
shapes (R12). -/
def State.takeUpdate (s : State) (p : Part) (k : Packet) (bound : Nat) : State :=
  let bs := k.bytes
  if usCount bs = 0 then s.endPacket p k.id stEmpty
  else match s.admission p updKey with
    | .refused _ => s.request p k updKey (s.updBytes p k) (fun x => s.updBytes p x) (fun s => s)
    | _ =>
      let es := s.ptabEntries p bs
      let at' := s.ptabAddr p (usFirst bs)
      if usFirst bs + usCount bs ≤ s.regN .updPtabCount p.val ∧ s.poisoned p at' (64 * usCount bs) then
        (s.endPacket p k.id stPoisoned).poisonConsumed (surveyorSource p) 0 (pktSeq bs) at'
      else match s.updCheck p bs es with
        | some (st, some (h, d)) => s.failHandle p k h st d
        | some (st, none) => s.endPacket p k.id st
        | none => s.admitUpdate p k es bound

/-- An UPDATE_STEP row, by its rewrite flag. -/
def State.updateRow (s : State) (ring : Ring) (rewrite : Bool) (act : Part → State → Packet → State) : State :=
  s.packetRow ring (fun _ _ bs => isPacket 0x11 bs && usRewrite bs == rewrite) (fun s p bs => s.updRanges p bs)
    (fun p s k => if s.powerRefuses then s.refuse p k.id stPower 5 0 else act p s k)

/-- UPDATE_STEP (R286-R288): it binds to the last STEP_END posted since the previous one. -/
def execUpdateStep (ring : Ring) (s : State) : Out :=
  .next (s.updateRow ring false (fun p s k =>
    match (s.part p).update.stepEnd with
    | none => s.refuse p k.id stPartState 4 0
    | some n => (s.onUpdate p (fun u => { u with stepEnd := none })).takeUpdate p k n))

/-- UPDATE_STEP_REWRITE (R288, R296). -/
def execUpdateStepRewrite (ring : Ring) (s : State) : Out :=
  .next (s.updateRow ring true (fun p s k => s.takeUpdate p k 0))

/-! ## Order (R281, R299, R306) -/

/-- An earlier UPDATE_STEP, CHECKPOINT or RESTORE of the partition stands in the way: a CHECKPOINT that has begun does
not. -/
def Partition.updBlocked (q : Partition) (id : Nat) : Bool :=
  q.packets.any (fun k => decide (k.id < id) && !k.ended
    && (pktOpcode k.bytes = 0x11 || pktOpcode k.bytes = 0x13
      || (pktOpcode k.bytes = 0x12 && !q.update.ckpt.any (fun j => decide (j.packet = k.id)))))

/-- The job at work, once its packet is served and nothing earlier blocks it, with its packet. -/
def Partition.updJob (q : Partition) : Option (UpdJob × Packet) :=
  match q.update.jobs.head? with
  | none => none
  | some j =>
    match q.packets.find? (fun k => decide (k.id = j.packet)) with
    | some k => if k.started && !k.ended && !q.updBlocked k.id then some (j, k) else none
    | none => none

/-- Change the job at work. -/
def State.onJob (s : State) (p : Part) (f : UpdJob → UpdJob) : State :=
  s.onUpdate p (fun u => { u with jobs := match u.jobs with
    | [] => []
    | j :: r => f j :: r })

/-- The job at work is over. -/
def State.dropJob (s : State) (p : Part) : State := s.onUpdate p (fun u => { u with jobs := u.jobs.tail })

/-- The address of a poisoned line under a granule of an entry: master, gradient, moments, moment scales. -/
def State.poisonAddr (s : State) (p : Part) (e : List Byte) (g : Nat) : Nat :=
  let n := granuleSize e g
  let hs := [peMaster e, peGrad e, peM e] ++ (if peRule e = 0 then [peV e] else [])
  let ranges := hs.flatMap (fun h => (s.desc p h).elemRanges (4096 * g) n) ++ [((s.desc p (peMscale e)).base + 8 * g, 8)]
  (s.firstPoisoned p ranges).getD 0

/-- An UPDATE_STEP ends with POISONED: entry and granule in the reply and in UPDATE_POISONED (R300). -/
def State.poisonJob (s : State) (p : Part) (j : UpdJob) (k : Packet) (x : Nat × Nat) : State :=
  let addr := match j.entries.find? (fun y => decide (y.index = x.1)) with
    | some y => s.poisonAddr p y.raw x.2
    | none => 0
  let s := s.endPacket p k.id stPoisoned (fun y => { y with detail := x.1, detail2 := x.2 })
  let s := s.poisonConsumed updSource 0 (pktSeq k.bytes) addr
  (s.dropJob p).log updSource 3 (f4 j.step ++ f4 x.1 ++ f4 x.2)

/-! ## Pass one (R289, R297, R298) -/

/-- The mask of an entry that has one (R297). -/
def State.maskRange (s : State) (p : Part) (e : List Byte) : Option (Nat × Nat) :=
  if (s.desc p (peMaster e)).frozenEligible && decide (peMask e ≠ 0) then some (peMask e, ceilDiv (granules e) 8) else none

/-- The frozen granules, as the mask in memory has them. -/
def State.frozenNow (s : State) (p : Part) (e : List Byte) : List Nat :=
  match s.maskRange p e with
  | none => []
  | some (a, n) =>
    let bs := s.readVa p a n
    (upTo (granules e)).filter (fun g => (bs.getD (g / 8) 0).getLsbD (g % 8))

/-- A gradient element widened to FP32. -/
def gradBits (f bits : Nat) : Nat := if f = bf16 then bits * 65536 else bits

/-- The norm partial of one granule's gradients: 512 lanes, then nine pairwise levels. -/
def granuleNorm (xs : List Nat) : Nat :=
  let lane (j : Nat) : Nat := (upTo (ceilDiv xs.length 512)).foldl (fun a k =>
    match xs[512 * k + j]? with
    | some x => r32 (vAdd (vMul (v32 x) (v32 x)) (v32 a))
    | none => a) 0
  (combineTree add32 9 ((upTo 512).map lane)).headD 0

/-- Pass one of an entry: its partial, or the granule whose gradient is poisoned. -/
def State.passOne (s : State) (p : Part) (e : List Byte) (frozen : List Nat) : Nat ⊕ Nat :=
  let d := s.desc p (peGrad e)
  let live := (upTo (granules e)).filter (fun g => !frozen.contains g)
  live.foldl (fun a g =>
    match a with
    | .inr x => .inr x
    | .inl acc =>
      let xs := s.elems p d (4096 * g) (granuleSize e g)
      if xs.any (fun x => x.2) then .inr g
      else .inl (add32 acc (granuleNorm (xs.map (fun x => gradBits d.fmt x.1))))) (.inl 0)

/-- All entries have a partial: S is summed in table order and kept, or sent over the norm bucket. -/
def State.sumNorm (s : State) (p : Part) (j : UpdJob) (k : Packet) : State :=
  if j.entries.any (fun e => e.norm.isNone) then s
  else
    let sum := j.entries.foldl (fun a e => add32 a (e.norm.getD 0).toNat) 0
    let nb := usNorm k.bytes
    if nb = 0xFFF then s.onJob p (fun j => { j with norm := some (BitVec.ofNat 32 sum) })
    else
      let mine (r : Round) : Bool := decide (r.bucket = nb ∧ r.cls = 3 ∧ r.step = j.boundStep)
      let form (r : Round) : Round := { r with source := [(leBytes 4 sum, false)], ready := true }
      s.onPart p (fun q => { q with rounds := updateFirst mine form q.rounds })

/-- The gradient bucket of an entry has completed the round of the job's step (R27). -/
def Partition.bucketDone (q : Partition) (e : List Byte) (step : Nat) : Bool :=
  match q.bucket? (peBucket e) with
  | some b => (match b.lastStep with
    | some n => decide (step ≤ n)
    | none => false)
  | none => false

/-- Pass one of the entry at a table index. -/
def State.passOneEntry (s : State) (p : Part) (j : UpdJob) (k : Packet) (x : UpdEntry) : State :=
  let e := x.raw
  let suspect := match (s.part p).bucket? (peBucket e) with
    | some b => b.flags % 2 = 1
    | none => false
  let frozen := s.frozenNow p e
  match s.passOne p e frozen with
  | .inr g => s.poisonJob p j k (x.index, g)
  | .inl v =>
    let mark (y : UpdEntry) : UpdEntry := { y with norm := some (BitVec.ofNat 32 v), frozen := frozen }
    let s := s.onJob p (fun j =>
      let entries := updateFirst (fun y => decide (y.index = x.index)) mark j.entries
      { j with entries := entries, skip := if suspect && j.skip.isNone then some (1, peBucket e) else j.skip })
    match (s.part p).update.jobs.head? with
    | some j => s.sumNorm p j k
    | none => s

/-- A link carries every line that the Update Die reads or writes, be it the page's own or the other (R280). -/
def State.updLinked (s : State) (p : Part) (ranges : List (Nat × Nat)) : Bool :=
  ranges.all (fun r => (linesOf r.1 r.2).all (fun l => (s.lineLink p l).isSome))

/-- The memory pass one of an entry reads. -/
def State.passOneRanges (s : State) (p : Part) (x : UpdEntry) : List (Nat × Nat) :=
  s.handleRanges p (peGrad x.raw) ++ s.handleRanges p (peMaster x.raw)
    ++ (s.desc p (peGrad x.raw)).elemRanges 0 (peElements x.raw) ++ (s.maskRange p x.raw).toList

/-- Pass one of an entry can go ahead (R27, R280, R289). -/
def State.oneReady (s : State) (p : Part) (j : UpdJob) (x : UpdEntry) : Bool :=
  !j.rewrite && !j.passTwo && x.norm.isNone && (s.part p).bucketDone x.raw j.boundStep && s.updLinked p (s.passOneRanges p x)

/-! ## Pass two (R291-R294) -/

/-- The slot whose width words a job uses (R288). -/
def State.jobSlot (s : State) (p : Part) (j : UpdJob) : Nat :=
  if j.rewrite then s.regN .partStep p.val % 2 else (j.boundStep + 1) % 2

/-- The width code of an entry: role W for a weight, its own role for a learned scale (R294). -/
def State.entryCode (s : State) (p : Part) (slot : Nat) (e : List Byte) : Nat :=
  let w := (s.wordAt p slot (peGroup e)).toNat
  let r := if peLearned e then Nat.min (peRole e) 2 else 1
  bitsOf w (2 * r + 1) (2 * r)

/-- The state of a granule as stored: masters, moments under the granule's scales, and whether any of it is
poisoned. -/
def State.readGranule (s : State) (p : Part) (e : List Byte) (g : Nat) : List Elt × Bool :=
  let n := granuleSize e g
  let ws := s.elems p (s.desc p (peMaster e)) (4096 * g) n
  let dm := s.desc p (peM e)
  let dv := s.desc p (peV e)
  let ms := s.elems p dm (4096 * g) n
  let vs := if peRule e = 0 then s.elems p dv (4096 * g) n else []
  let at' := (s.desc p (peMscale e)).base + 8 * g
  let sc := s.readVa p at' 8
  let sm := field sc 0 4
  let sv := field sc 4 4
  (ws.zipIdx.map (fun w => {
      w := w.1.1
      m := readMoment dm.fmt (ms.getD w.2 (0, false)).1 sm
      v := if peRule e = 0 then readMoment dv.fmt (vs.getD w.2 (0, false)).1 sv else 0 }),
    (ws ++ ms ++ vs).any (fun x => x.2) || s.poisoned p at' 8)

/-- Write a granule's state after the rule (R293); the flag of an element says whether the rule stepped it. The moments of
a channel that is not stepped stay as they are stored, under the granule's new scale (R116; DEDUCED, log 60). -/
def State.writeGranule (s : State) (p : Part) (k : Packet) (x : UpdEntry) (g : Nat) (xs : List (Elt × Bool)) : State :=
  let e := x.raw
  let seed := s.regN .partSeed p.val
  let put (s : State) (h purpose off : Nat) (val : Elt → Nat) : State :=
    let d := s.desc p h
    let old := s.elems p d (4096 * g) xs.length
    let sc := momentScale d.fmt (xs.map (fun y => val y.1))
    let bits := xs.zipIdx.map (fun y =>
      if y.1.2 then
        storeMoment d.fmt (val y.1.1) sc.2 (srBits seed h (4096 * g + y.2) (usStep k.bytes) purpose)
      else (old.getD y.2 (0, false)).1)
    let s := s.storeElems p d d.fmt (4096 * g) bits
    s.writeVa p ((s.desc p (peMscale e)).base + 8 * g + off) (leBytes 4 sc.1) false
  let s := s.storeElems p (s.desc p (peMaster e)) f48 (4096 * g) (xs.map (fun y => y.1.w))
  let s := put s (peM e) 1 0 Elt.m
  if peRule e = 0 then put s (peV e) 2 4 Elt.v else s

/-- A granule's dirty bits are set for both slots (R304). -/
def State.dirty (s : State) (p : Part) (index g : Nat) : State :=
  let key := index * 2 ^ 36 + g
  s.onUpdate p (fun u => { u with clean0 := Sparse.erase u.clean0 key, clean1 := Sparse.erase u.clean1 key })

/-- The learned entry of channel `c` as it stands. -/
def State.learnedAt (s : State) (p : Part) (e : List Byte) (c : Nat) : ScaleEntry :=
  parseEntry (s.readVa p (scaleAt (s.desc p (peWork e)) c) 16)

/-- The rule on one granule (R292, R116, R123): each element with whether it was stepped. -/
def State.ruleGranule (s : State) (p : Part) (h : Hyper) (e : List Byte) (g : Nat) (xs : List Elt) (grads : List Nat) :
    List (Elt × Bool) :=
  let ad := if peDecayOff e then 0 else h.a
  xs.zipIdx.map (fun x =>
    let gr := grads.getD x.2 0
    let old := s.learnedAt p e (4096 * g + x.2)
    if peLearned e && decide (old.kind = 0) && old.formed then ({ w := r48 (v32 old.scale), m := 0, v := 0 }, true)
    else if peLearned e && decide (gr % 2 ^ 31 = 0) then (x.1, false)
    else (stepElt (peRule e) h ad gr x.1, true))

/-- Step one granule of an entry, or find it poisoned. A granule that is frozen or skipped is read for its masters
alone. -/
def State.stepGranule (s : State) (p : Part) (k : Packet) (h : Hyper) (apply : Bool) (x : UpdEntry) (g : Nat) : State × Bool :=
  let e := x.raw
  if apply && !x.frozen.contains g then
    let d := s.desc p (peGrad e)
    let grads := s.elems p d (4096 * g) (granuleSize e g)
    let old := s.readGranule p e g
    if old.2 || grads.any (fun y => y.2) then (s, true)
    else
      let out := s.ruleGranule p h e g old.1 (grads.map (fun y => gradBits d.fmt y.1))
      if out.any (fun y => y.2) then ((s.writeGranule p k x g out).dirty p x.index g, false)
      else (s, false)
  else (s, (s.elems p (s.desc p (peMaster e)) (4096 * g) (granuleSize e g)).any (fun y => y.2))

/-- Write the learned entries of one granule's channels at the new width (R115): a changed width rescales the
master first. -/
def State.learnGranule (s : State) (p : Part) (x : UpdEntry) (code g : Nat) : State :=
  let e := x.raw
  let dm := s.desc p (peMaster e)
  (upTo (granuleSize e g)).foldl (fun s i =>
    let c := 4096 * g + i
    let old := s.learnedAt p e c
    let f := widthFmt code old.fmt
    let w := ((s.elems p dm c 1).headD (0, false)).1
    let change := old.formed && decide (old.fmt / 2 ≠ code)
    let w' := if change then rescale48 w old.fmt f else w
    let s := if change then (s.storeElems p dm f48 c [w']).dirty p x.index g else s
    s.writeVa p (scaleAt (s.desc p (peWork e)) c) (entryData (learnedEntry old w' f)) false) s

/-- The tensor whose entries scale a weight: the one its scale_entry writes, else the working tensor's own
(R294). -/
def State.scaleTensor (s : State) (p : Part) (j : UpdJob) (e : List Byte) : Desc :=
  if peScale e = 0xFFFF then s.desc p (s.desc p (peWork e)).scaleHandle
  else match j.entries.find? (fun y => decide (y.index = peScale e)) with
    | some y => s.desc p (peWork y.raw)
    | none => s.desc p (peWork e)

/-- Form the entries of kind 0 or 2 of a weight without a scale_entry, over its masters (R124); under the first-pass flag
every entry counts as kind 2 (R110). The state, and how many channels were formed null (R119). -/
def State.formWeights (s : State) (p : Part) (j : UpdJob) (e : List Byte) (f : Nat) (ws : List Nat) : State × Nat :=
  let d := s.desc p (peWork e)
  let t := s.scaleTensor p j e
  if peScale e ≠ 0xFFFF then (s, 0)
  else (upTo (d.maxExtent d.scaleAxis)).foldl (fun (a : State × Nat) c =>
    let old := parseEntry (a.1.readVa p (scaleAt t c) 16)
    if d.firstPass || old.kind = 0 || old.kind = 2 then
      let amax := masterAmax ((ws.zipIdx.filter (fun w => decide (d.channelOf w.2 = c))).map (fun w => w.1))
      let new := (formEntry f { old with amax := amax }).1
      (a.1.writeVa p (scaleAt t c) (entryData new) false, a.2 + b2n new.null)
    else a) (s, 0)

/-- Write a weight's working elements and its copy, up to element `limit` (R294): the state, and whether any was
clamped. -/
def State.writeWeights (s : State) (p : Part) (j : UpdJob) (k : Packet) (x : UpdEntry) (code limit : Nat) : State × Bool :=
  let e := x.raw
  let d := s.desc p (peWork e)
  let f := widthFmt code d.fmt
  let ws := (s.elems p (s.desc p (peMaster e)) 0 limit).map (fun y => y.1)
  let (s, nulls) := s.formWeights p j e f ws
  let t := s.scaleTensor p j e
  let out := ws.zipIdx.map (fun w =>
    workElem f w.1 (srBits (s.regN .partSeed p.val) (peWork e) w.2 (usStep k.bytes) 0) w.2
      (parseEntry (s.readVa p (scaleAt t (d.channelOf w.2)) 16)))
  let s := s.storeElems p d f 0 (out.map (fun y => y.1))
  let s := s.sendPartial { mkPartial p d 0 true false (out.map (fun y => y.2.2)) none with nulls := nulls }
  (s, out.any (fun y => y.2.1))

/-- The BF16 copy of an entry's masters (R294). -/
def State.writeCopy (s : State) (p : Part) (k : Packet) (x : UpdEntry) (limit : Nat) : State :=
  let e := x.raw
  if usCopyEn k.bytes ∧ peCopy e ≠ 0 then
    let mode : Rnd := if usServing k.bytes then .away else .even
    let ws := (s.elems p (s.desc p (peMaster e)) 0 limit).map (fun y => y.1)
    s.storeElems p (s.desc p (peCopy e)) bf16 0 (ws.map (fun w => (toFloat bf16 mode (v48 w)).bits))
  else s

/-- Pass two of one entry: the granules before the first poisoned one. -/
def State.entryTwo (s : State) (p : Part) (j : UpdJob) (k : Packet) (h : Hyper) (apply : Bool) (x : UpdEntry) :
    State × Option Nat × Bool :=
  let code := s.entryCode p (s.jobSlot p j) x.raw
  let r := (upTo (granules x.raw)).foldl (fun (a : State × Option Nat) g =>
    if a.2.isSome then a
    else
      let y := a.1.stepGranule p k h apply x g
      if y.2 then (y.1, some g) else (if peLearned x.raw then y.1.learnGranule p x code g else y.1, none)) (s, none)
  let limit := match r.2 with
    | some g => 4096 * g
    | none => peElements x.raw
  let y := if peLearned x.raw then (r.1, false) else r.1.writeWeights p j k x code limit
  (y.1.writeCopy p k x limit, r.2, y.2)

/-- The constants of a packet (R292). -/
def hyperOf (bs : List Byte) (s : Nat) : Hyper where
  lr := usLr bs
  eps := usEps bs
  b1 := usBeta1 bs
  b2 := usBeta2 bs
  clip := clipFactor (usClip bs) s
  b1c := oneMinus (usBeta1 bs)
  b2c := oneMinus (usBeta2 bs)
  a := mul32 (usLr bs) (usWd bs)

/-- Why the step is skipped (R291): a norm that is not finite, or a suspect bucket. -/
def skipCause (j : UpdJob) (nb : Nat) : Option (Nat × Nat) :=
  if j.rewrite then none
  else if !(v32 ((j.norm.getD 0).toNat)).finite then some (0, nb)
  else if j.normSuspect then some (1, nb)
  else j.skip

/-- Pass two over every entry, in table order. -/
def State.passTwo (s : State) (p : Part) (j : UpdJob) (k : Packet) : State :=
  let nb := usNorm k.bytes
  let skip := skipCause j nb
  let s := match skip with
    | some c => s.log updSource 1 (f4 j.step ++ f1 c.1 ++ f2 c.2)
    | none => s
  let h := hyperOf k.bytes (j.norm.getD 0).toNat
  let apply := !j.rewrite && skip.isNone
  let r := j.entries.foldl (fun (a : State × UpdJob) x =>
    if a.2.poison.isSome then a
    else
      let y := a.1.entryTwo p j k h apply x
      match y.2.1 with
      | some g => (y.1, { a.2 with poison := some (x.index, g) })
      | none => (y.1, { a.2 with written := a.2.written + 1, saturated := a.2.saturated || (y.2.2 && skip.isNone) }))
    (s, { j with passTwo := true, skip := skip })
  r.1.onJob p (fun _ => r.2)

/-- The memory pass two reads before it writes: descriptors, scale entries, and rows it writes in part. -/
def State.passTwoRanges (s : State) (p : Part) (j : UpdJob) (k : Packet) : List (Nat × Nat) :=
  j.entries.flatMap (fun x =>
    let e := x.raw
    let d := s.desc p (peWork e)
    let t := s.scaleTensor p j e
    (stateHandles e ++ otherHandles k.bytes e).flatMap (fun h => s.handleRanges p h)
      ++ (if peLearned e then [(scaleAt d 0, 16 * peElements e)]
          else [(scaleAt t 0, 16 * d.maxExtent d.scaleAxis)] ++ d.elemRanges 0 (peElements e)))

/-- Granules of a job's entries that a checkpoint has still to send or to see acknowledged (R306). -/
def Update.overlaps (u : Update) (j : UpdJob) : Bool :=
  match u.ckpt with
  | none => false
  | some c => (c.todo ++ c.flying.map Prod.fst).any (fun key => j.entries.any (fun x => decide (x.index = key / 2 ^ 36)))

/-- Every group's word is final in a slot. -/
def State.wordsFinal (s : State) (p : Part) (j : UpdJob) : Bool :=
  j.entries.all (fun x => !(s.wordAt p (s.jobSlot p j) (peGroup x.raw)).getLsbD 9)

/-- Pass two of a job is due: S is there and its STEP_END has taken effect; a rewrite waits for neither. -/
def State.twoDue (s : State) (p : Part) (j : UpdJob) : Bool :=
  !j.passTwo && (j.rewrite || (j.norm.isSome && decide (s.regN .partStep p.val > j.boundStep)))

/-- Pass two of a job can go ahead: the width words are final, no granule waits for a checkpoint, the links are there. -/
def State.twoReady (s : State) (p : Part) (j : UpdJob) (k : Packet) : Bool :=
  s.twoDue p j && s.wordsFinal p j && !(s.part p).update.overlaps j && s.updLinked p (s.passTwoRanges p j k)

/-! ## The turns of the partitions (R411) -/

/-- A partition has granules that the Update Die could work on now. -/
def State.updWants (s : State) (p : Part) : Bool :=
  s.running p && (match (s.part p).updJob with
    | none => false
    | some (j, k) => j.entries.any (fun x => s.oneReady p j x) || s.twoReady p j k)

/-- The partition whose granules the Update Die works on next: weighted rotation over granules, each partition up to its
upd_share in a row; an idle partition's turn passes to the others, and one with no share is served when no other
waits. -/
def State.updFirst (s : State) : Option Part :=
  let last : Part := ⟨s.updTurn % 4, Nat.mod_lt _ (by decide)⟩
  if 0 < s.updLeft && s.updWants last then some last
  else
    let turn := (rotation s.updTurn).filter (fun p => s.updWants p)
    (turn.find? (fun p => decide (0 < s.updShare p))).or turn.head?

/-- A partition has the Update Die's turn, or none has work for it. -/
def State.updServes (s : State) (p : Part) : Bool := s.updFirst.all (fun q => decide (q = p))

/-- Granules of a partition's turn are spent; an entry or a pass is not cut, so that its turn may overrun its share
(DESIGN CHOICE, log 124). -/
def State.updSpend (s : State) (p : Part) (n : Nat) : State :=
  let left := if s.updTurn = p.val ∧ 0 < s.updLeft then s.updLeft else s.updShare p
  { s with updTurn := p.val, updLeft := left - n }

/-- UPDATE_PASS_ONE_ENTRY (R289, R411). -/
def execUpdatePassOneEntry (p : Part) (entry : Nat) (s : State) : Out :=
  .next (if s.live && s.running p then
    match (s.part p).updJob with
    | none => s
    | some (j, k) =>
      match j.entries.find? (fun x => decide (x.index = entry)) with
      | none => s
      | some x =>
        let ranges := s.passOneRanges p x
        if !s.oneReady p j x || !s.updServes p then s
        else if s.ready p ranges then (s.updSpend p (granules x.raw)).passOneEntry p j k x else s.ask p ranges
  else s)

/-- UPDATE_PASS_TWO_START (R28, R292, R300, R306, R411). -/
def execUpdatePassTwoStart (p : Part) (s : State) : Out :=
  .next (if s.live && s.running p then
    match (s.part p).updJob with
    | none => s
    | some (j, k) =>
      if !s.twoDue p j then s
      else if j.normPoison then
        s.onJob p (fun j => { j with passTwo := true, poison := some (usFirst k.bytes, 0) })
      else
        let ranges := s.passTwoRanges p j k
        if !s.twoReady p j k || !s.updServes p then s
        else if s.ready p ranges then
          (s.updSpend p (j.entries.foldl (fun a x => a + granules x.raw) 0)).passTwo p j k
        else s.ask p ranges
  else s)

/-! ## Release (R295) -/

/-- Every output of an entry is visible. -/
def State.entryVisible (s : State) (p : Part) (j : UpdJob) (e : List Byte) : Bool :=
  !s.writesWait p (s.desc p (peWork e)) && !(decide (peCopy e ≠ 0) && s.writesWait p (s.desc p (peCopy e)))
    && !s.writesWait p (s.scaleTensor p j e)

/-- The packet of a finished job completes (R291, R309). -/
def State.finishJob (s : State) (p : Part) (j : UpdJob) (k : Packet) : State :=
  let frozen := j.entries.foldl (fun a x => a + x.frozen.length) 0
  let s := s.endPacket p k.id (if j.saturated then stSaturated else stOk) (fun x => { x with value := j.step })
  (s.dropJob p).log updSource 2 (f4 j.step ++ f4 (j.norm.getD 0).toNat ++ f4 j.entries.length ++ f4 frozen)

/-- ENTRY_RELEASE (R295, R300). -/
def execEntryRelease (p : Part) (s : State) : Out :=
  .next (if s.live && s.running p then
    match (s.part p).updJob with
    | none => s
    | some (j, k) =>
      if !j.passTwo then s
      else match (if j.released < j.written then j.entries[j.released]? else none) with
        | none =>
          match j.poison with
          | some x => s.poisonJob p j k x
          | none => s
        | some x =>
          if !s.entryVisible p j x.raw then s
          else
            let s := s.signalObj (peObj x.raw) 1 updSource
            let j := { j with released := j.released + 1 }
            let s := s.onJob p (fun _ => j)
            if j.released = j.entries.length then s.finishJob p j k else s
  else s)

end Sys2Proof.Machine
end

