-- ==== Sys2Proof/Machine/Mirror.lean ====
section
/-! DEFINITION. Mirrored checkpoints and restores (R302-R308): the CHECKPOINT and RESTORE packets, the mirror cells at
both ends. -/

namespace Sys2Proof.Machine

/-! ## What is sent (R303-R305) -/

/-- The whole parameter table as memory holds it. -/
def State.ptabBytes (s : State) (p : Part) : List Byte :=
  s.readVa p (s.regN .updPtabBase p.val) (64 * s.regN .updPtabCount p.val)

/-- The ranges of one granule of an entry: master, moments, moment scales (R304). -/
def State.granuleRanges (s : State) (p : Part) (e : List Byte) (g : Nat) : List (Nat × Nat) :=
  let hs := [peMaster e, peM e] ++ (if peRule e = 0 then [peV e] else [])
  hs.flatMap (fun h => (s.desc p h).elemRanges (4096 * g) (granuleSize e g)) ++ [((s.desc p (peMscale e)).base + 8 * g, 8)]

/-- An entry of the table whose state lies in the state region. -/
def State.entryLive (s : State) (p : Part) (e : List Byte) : Bool :=
  (stateHandles e).all (fun h => decide ((s.desc p h).rank ≠ 0) && s.inStateRegion p (s.desc p h))

/-- A granule's key: entry times 2^36 plus granule; a piece of the saved area: 2^60 plus its number. -/
def granuleKey (i g : Nat) : Nat := i * 2 ^ 36 + g
def pieceKey (i : Nat) : Nat := 2 ^ 60 + i

/-- The granules that checkpoint number `c` sends, in increasing order; `full` sends all. -/
def State.dirtyGranules (s : State) (p : Part) (c : Nat) (full : Bool) : List Nat :=
  let u := (s.part p).update
  let clean := if c % 2 = 0 then u.clean0 else u.clean1
  (upTo (s.regN .updPtabCount p.val)).flatMap (fun i =>
    let e := s.readVa p (s.ptabAddr p i) 64
    if s.entryLive p e then
      ((upTo (granules e)).map (fun g => granuleKey i g)).filter (fun key => full || !Sparse.get false clean key)
    else [])

/-- Bytes of the saved area as the state region holds it. -/
def State.savedBytes (s : State) (p : Part) : Nat :=
  s.savedLength p (recordGroups (s.readVa p (s.regN .updAszSave p.val) 64))

/-- The pieces of the saved area, 32,768 bytes each. -/
def State.savedPieces (s : State) (p : Part) : List Nat :=
  let n := s.savedBytes p
  (upTo (ceilDiv n 32768)).map pieceKey

/-- The memory a key stands for, cut to the state region. -/
def State.keyRanges (s : State) (p : Part) (key : Nat) : List (Nat × Nat) :=
  if key < 2 ^ 60 then s.granuleRanges p (s.readVa p (s.ptabAddr p (key / 2 ^ 36)) 64) (key % 2 ^ 36)
  else
    let n := s.savedBytes p
    let o := 32768 * (key - 2 ^ 60)
    [(s.regN .updAszSave p.val + o, Nat.min 32768 (n - o))]

/-- Offset of a state byte in the mirror region of slot `c mod 2`. -/
def State.slotOffset (s : State) (p : Part) (c : Nat) : Nat := pageSize + c % 2 * s.regN .updStateSize p.val

/-- One message of mirror writes: its pieces at their region offsets, on 32-byte boundaries. -/
def mirrorMessage (tag : BitVec 16) (pieces : List (Nat × List (Byte × Bool))) : List Cell :=
  let cells := pieces.flatMap (fun x => messageCells tyMirrorWrite tag false false (fun o => x.1 + o) x.2)
  cells.zipIdx.map (fun c => { c.1 with first := decide (c.2 = 0), last := decide (c.2 + 1 = cells.length) })

/-- The message tag of a checkpoint's cells (R319): no two partitions' messages share one. -/
def ckptTag (p : Part) (number : Nat) : BitVec 16 := BitVec.ofNat 16 (4 * number + p.val)

/-- The cells of a key. -/
def State.keyCells (s : State) (p : Part) (c key : Nat) : List Cell :=
  let base := s.regN .updStateBase p.val
  mirrorMessage (ckptTag p c) ((s.keyRanges p key).map (fun r =>
    let lo := r.1 / 32 * 32
    let n := ceilDiv (r.1 + r.2) 32 * 32 - lo
    (s.slotOffset p c + (lo - base), s.readMarked p lo n)))

/-- A slot header (Table 10.6). -/
def mirrorHeader (state rank number step size count digest : Nat) : List Byte :=
  let body := leBytes 4 0x5252494D ++ leBytes 4 0 ++ leBytes 4 state ++ leBytes 4 1 ++ leBytes 4 0 ++ leBytes 4 rank
    ++ leBytes 8 number ++ leBytes 8 step ++ leBytes 8 size ++ leBytes 4 count ++ leBytes 4 digest ++ leBytes 4 0
  body ++ leBytes 4 (crc32c body)

/-- Put the header of a checkpoint's slot. -/
def State.putHeader (s : State) (p : Part) (j : CkptJob) (state : Nat) : State :=
  let bs := mirrorHeader state (s.regN .fabRank) j.number (s.regN .partStep p.val) (s.regN .updStateSize p.val) j.sent
    (crc32c (s.ptabBytes p))
  s.fabSend j.port (some p) (mirrorMessage (ckptTag p j.number) [(64 * (j.number % 2), bs.map (fun b => (b, false)))])

/-- Change the checkpoint. -/
def State.setCkpt (s : State) (p : Part) (j : CkptJob) : State := s.onUpdate p (fun u => { u with ckpt := some j })

/-- Send what may fly: up to 64 granules and pieces; when all are acknowledged, the last header (R305). `fuel` bounds
the number sent. -/
def State.pumpCkpt (s : State) (p : Part) : Nat → State
  | 0 => s
  | fuel + 1 =>
    match (s.part p).update.ckpt with
    | none => s
    | some j =>
      if j.stage ≠ 1 then s
      else match j.todo with
        | [] =>
          if j.flying.isEmpty then
            let j := { j with stage := 2, flying := [(0, 64 * (j.number % 2))] }
            (s.setCkpt p j).putHeader p j 2
          else s
        | key :: rest =>
          if j.flying.length ≥ 64 then s
          else
            let cells := s.keyCells p j.number key
            let off := match cells.getLast? with
              | some c => c.target.toNat
              | none => 0
            let n := if key < 2 ^ 60 then 1 else 0
            let s := s.setCkpt p { j with todo := rest, flying := j.flying ++ [(key, off)], sent := j.sent + n }
            State.pumpCkpt (s.fabSend j.port (some p) cells) p fuel

/-! ## CHECKPOINT (R305, R307) -/

/-- The port byte of a CHECKPOINT or a RESTORE. -/
def mirrorPort (bs : List Byte) : FPort := ⟨pktParam bs 0 1 % 32, Nat.mod_lt _ (by decide)⟩

/-- A CHECKPOINT or RESTORE packet: a port the partition does not hold is refused; else it asks for its unit of the
Update Die. -/
def State.mirrorPacket (s : State) (p : Part) (k : Packet) : State :=
  if !s.ownsFab p (mirrorPort k.bytes).val then s.refuse p k.id stQuota 1 (mirrorPort k.bytes).val
  else s.request p k updKey (s.updBytes p k) (fun x => s.updBytes p x) (fun s => s)

/-- CHECKPOINT (R305). -/
def execCheckpoint (ring : Ring) (s : State) : Out :=
  .next (s.opcodeRow ring 0x12 (fun _ _ _ => []) (fun p s k => s.mirrorPacket p k))

/-- The oldest served packet of an opcode that has not ended. -/
def Partition.servedPacket (q : Partition) (op : Nat) : Option Packet :=
  q.packets.find? (fun k => decide (pktOpcode k.bytes = op) && k.started && !k.ended)

/-- Save the Assize record and the table, and put the slot's header in state writing. -/
def State.beginCkpt (s : State) (p : Part) (k : Packet) : State :=
  let n := mirrorPort k.bytes
  let c := (s.regN .updCkptNumber p.val + 1) % 2 ^ 32
  let s := s.setRegN .updCkptNumber p.val 0 c
  let at' := s.regN .updAszSave p.val
  let kept := s.savedNow p
  let groups := recordGroups kept.1
  let runs := (kept.2 ++ List.replicate (2 * s.regN .aszWatchCount p.val) 0).take (2 * s.regN .aszWatchCount p.val)
  let s := s.writeVa p at' kept.1 false
  let s := s.writeVa p (at' + savedTableAt groups) (s.ptabBytes p) false
  let s := s.writeVa p (at' + s.savedRunsAt p groups) runs false
  let todo := s.dirtyGranules p c (bitOf (pktParam k.bytes 1 1) 0) ++ s.savedPieces p
  let j : CkptJob := { packet := k.id, port := n, number := c, stage := 0, todo := todo, flying := [(0, 64 * (c % 2))], sent := 0, acked := 0 }
  let s := s.setCkpt p j
  if (s.fab n).state = .up then s.putHeader p j 1 else s.failCheckpoint p

/-- The memory a checkpoint reads that a host may own. -/
def State.ckptRanges (s : State) (p : Part) : List (Nat × Nat) :=
  (s.regN .updPtabBase p.val, 64 * s.regN .updPtabCount p.val) :: s.configRanges p
    ++ (upTo (s.regN .updPtabCount p.val)).flatMap (fun i =>
      (stateHandles (s.readVa p (s.ptabAddr p i) 64)).flatMap (fun h => s.handleRanges p h))

/-- CHECKPOINT_START (R280, R305): every earlier command has completed, and a link carries the port's mirror traffic. -/
def execCheckpointStart (p : Part) (s : State) : Out :=
  .next (if s.live && s.running p then
    match (s.part p).servedPacket 0x12 with
    | none => s
    | some k =>
      if (s.part p).update.ckpt.isSome || !s.earlierDone p k.id || (s.mirrorLink (mirrorPort k.bytes)).isNone then s
      else if s.ready p (s.ckptRanges p) then s.beginCkpt p k else s.ask p (s.ckptRanges p)
  else s)

/-- The acknowledgement of what flies at an offset. -/
def State.ackCkpt (s : State) (p : Part) (j : CkptJob) (key : Nat) (rest : List (Nat × Nat)) : State :=
  match j.stage with
  | 0 => (s.setCkpt p { j with stage := 1, flying := rest }).pumpCkpt p 65
  | 1 =>
    let n := if key < 2 ^ 60 then 1 else 0
    let s := s.setCkpt p { j with flying := rest, acked := j.acked + n }
    let s := if key < 2 ^ 60 then s.onUpdate p (fun u =>
        if j.number % 2 = 0 then { u with clean0 := Sparse.put u.clean0 key true } else { u with clean1 := Sparse.put u.clean1 key true })
      else s
    s.pumpCkpt p 65
  | _ =>
    let s := s.onUpdate p (fun u => { u with ckpt := none })
    let s := s.endPacket p j.packet stOk (fun k => { k with value := j.number + j.sent * 2 ^ 32 })
    s.log updSource 4 (f4 j.number ++ f1 (j.number % 2) ++ f4 j.sent)

/-- The partition whose checkpoint awaits an acknowledgement at an offset on a port. -/
def State.ackOwner (s : State) (n : FPort) (off : Nat) : Option (Part × CkptJob × Nat × List (Nat × Nat)) :=
  allParts.findSome? (fun p =>
    match (s.part p).update.ckpt with
    | some j =>
      if j.port = n then (takeFirst (fun x => decide (x.2 = off)) j.flying).map (fun x => (p, j, x.1.1, x.2)) else none
    | none => none)

/-- MIRROR_ACK (R305). -/
def execMirrorAck (port : FPort) (s : State) : Out :=
  .next (if s.live then
    match s.headCell port tyMirrorAck with
    | none => s
    | some c =>
      let s := s.consume port 6
      match s.ackOwner port c.target.toNat with
      | some (p, j, key, rest) => s.ackCkpt p j key rest
      | none => (s.fabViolation port vioOutside c).isolateCheck port
  else s)

/-- CHECKPOINT_ACK_TIMEOUT (R307, R308): 100 ms without an acknowledgement, or without the data of a restore's
read. -/
def execCheckpointAckTimeout (p : Part) (s : State) : Out :=
  .next (if s.live then
    let u := (s.part p).update
    if u.ckpt.any (fun j => !j.flying.isEmpty) then s.failCheckpoint p
    else if u.restore.isSome then s.failRestore p
    else s
  else s)

/-! ## RESTORE (R308) -/

/-- RESTORE (R308). -/
def execRestore (ring : Ring) (s : State) : Out :=
  .next (s.opcodeRow ring 0x13 (fun _ _ _ => []) (fun p s k =>
    if s.powerRefuses then s.refuse p k.id stPower 5 0 else s.mirrorPacket p k))

/-- Ask the neighbour for a range of its mirror region. -/
def State.mirrorRead (s : State) (p : Part) (n : FPort) (off len : Nat) : State :=
  s.fabSend n (some p) [mkCell tyMirrorRead 0 off true true false (padPayload 32 (leBytes 4 len))]

/-- RESTORE_START (R281, R308): every UPDATE_STEP, CHECKPOINT and RESTORE before it has completed; both headers are
read. -/
def execRestoreStart (p : Part) (s : State) : Out :=
  .next (if s.live && s.running p then
    match (s.part p).servedPacket 0x13 with
    | none => s
    | some k =>
      let early (x : Packet) : Bool := decide (x.id < k.id) && !x.ended && [0x11, 0x12, 0x13].contains (pktOpcode x.bytes)
      if (s.part p).update.restore.isSome || (s.part p).packets.any early || (s.mirrorLink (mirrorPort k.bytes)).isNone then s
      else
        let n := mirrorPort k.bytes
        let s := s.onUpdate p (fun u => { u with restore := some ⟨k.id, n, none, none, none, 0⟩ })
        if (s.fab n).state = .up then (s.mirrorRead p n 0 64).mirrorRead p n 64 64 else s.failRestore p
  else s)

/-- A slot header that may be restored (R308). -/
def State.headerUsable (s : State) (p : Part) (h : List Byte) : Bool :=
  field h 0 4 = 0x5252494D && field h 12 4 = 1 && crc32c (h.take 60) = field h 60 4 && field h 8 4 = 2
    && field h 20 4 = s.regN .fabRank && field h 40 8 = s.regN .updStateSize p.val

/-- The usable header with the higher number. -/
def State.chooseHeader (s : State) (p : Part) (x y : List Byte) : Option (List Byte) :=
  match s.headerUsable p x, s.headerUsable p y with
  | true, true => some (if field x 24 8 < field y 24 8 then y else x)
  | true, false => some x
  | false, true => some y
  | false, false => none

/-- Where the next byte of the chosen slot stands in the neighbour's region. -/
def restoreAt (h : List Byte) (size got : Nat) : Nat := pageSize + field h 24 8 % 2 * size + got

/-- Ask for the next 2 MiB of the slot. -/
def State.nextRead (s : State) (p : Part) (j : RestoreJob) (h : List Byte) : State :=
  let size := s.regN .updStateSize p.val
  s.mirrorRead p j.port (restoreAt h size j.got) (Nat.min pageSize (size - j.got))

/-- Every entry of a learned scale tensor of the table is marked kind 0, not formed (R123, log 65). -/
def State.markLearned (s : State) (p : Part) : State :=
  (upTo (s.regN .updPtabCount p.val)).foldl (fun s i =>
    let e := s.readVa p (s.ptabAddr p i) 64
    let d := s.desc p (peWork e)
    if peLearned e && decide (d.rank ≠ 0) then
      (upTo (peElements e)).foldl (fun s c =>
        let old := parseEntry (s.readVa p (scaleAt d c) 16)
        s.writeVa p (scaleAt d c) (entryData { old with flags := old.flags / 8 * 8 }) false) s
    else s) s

/-- The whole slot has come: the saved table goes to UPD_PTAB_BASE, every granule is dirty (R308). -/
def State.finishRestore (s : State) (p : Part) (j : RestoreJob) (h : List Byte) : State :=
  let at' := s.regN .updAszSave p.val
  let groups := recordGroups (s.readVa p at' 64)
  let table := s.readVa p (at' + savedTableAt groups) (64 * s.regN .updPtabCount p.val)
  let s := s.writeVa p (s.regN .updPtabBase p.val) table false
  let s := s.markLearned p
  let s := s.setRegN .updCkptNumber p.val 0 (field h 24 4)
  let s := s.onUpdate p (fun u => { u with restore := none, clean0 := [], clean1 := [] })
  let s := s.endPacket p j.packet stOk (fun k => { k with value := field h 24 4 + field h 32 4 * 2 ^ 32 })
  s.log updSource 7 (f4 (field h 24 4) ++ f4 (field h 32 4) ++ f1 j.port.val)

/-- Change the restore. -/
def State.setRestore (s : State) (p : Part) (j : RestoreJob) : State := s.onUpdate p (fun u => { u with restore := some j })

/-- Both headers are there: the packet is refused, or the slot's bytes are asked for. -/
def State.headersRead (s : State) (p : Part) (j : RestoreJob) (x y : List Byte) : State :=
  match s.chooseHeader p x y with
  | none => (s.onUpdate p (fun u => { u with restore := none })).refuse p j.packet stPartState 4 0
  | some h =>
    let j := { j with chosen := some h }
    let s := s.setRestore p j
    if s.regN .updStateSize p.val = 0 then s.finishRestore p j h else s.nextRead p j h

/-- A cell of read data for a restore. -/
def State.takeMirrorData (s : State) (n : FPort) (p : Part) (j : RestoreJob) (c : Cell) : State :=
  let off := c.target.toNat
  match j.chosen with
  | none =>
    let bs := if c.poison then [] else c.payload.take 64
    let j := if off = 0 then { j with head0 := some bs } else { j with head1 := some bs }
    if off ≠ 0 ∧ off ≠ 64 then (s.fabViolation n vioTarget c).isolateCheck n
    else
      let s := s.setRestore p j
      match j.head0, j.head1 with
      | some x, some y => s.headersRead p j x y
      | _, _ => s
  | some h =>
    let size := s.regN .updStateSize p.val
    if off ≠ restoreAt h size j.got then (s.fabViolation n vioTarget c).isolateCheck n
    else
      let bs := c.payload.take (size - j.got)
      let s := s.writeVa p (s.regN .updStateBase p.val + j.got) bs c.poison
      let j := { j with got := j.got + bs.length }
      let s := s.setRestore p j
      if j.got ≥ size then s.finishRestore p j h
      else if j.got % pageSize = 0 then s.nextRead p j h
      else s

/-- MIRROR_DATA (R308). -/
def execMirrorData (port : FPort) (s : State) : Out :=
  .next (if s.live then
    match s.headCell port tyMirrorData with
    | none => s
    | some c =>
      let s := s.consume port 6
      match allParts.find? (fun p => (s.part p).update.restore.any (fun j => decide (j.port = port))) with
      | none => (s.fabViolation port vioOutside c).isolateCheck port
      | some p =>
        match (s.part p).update.restore with
        | some j => s.takeMirrorData port p j c
        | none => s
  else s)

/-! ## The neighbour's side (R302) -/

/-- The partition that mirrors the module on a port (log 66). -/
def State.mirrorOf (s : State) (n : FPort) : Option Part :=
  allParts.find? (fun p => s.partValid p && decide (s.regN .updMirrorPort p.val = n.val)
    && decide (s.regN .updMirrorSrc p.val = (s.fab n).nbrRank.toNat))

/-- A range of a mirror region. -/
def State.mirrorAllows (s : State) (p : Part) (off len : Nat) : Bool := off + len ≤ s.regN .updMirrorSize p.val

/-- A write that R302 rejects (R332). -/
def State.mirrorReject (s : State) (n : FPort) (c : Cell) : State :=
  let s := s.log updSource 6 (f1 n.val ++ f4 (s.fab n).nbrRank.toNat ++ f8 c.target.toNat)
  (s.fabViolation n vioMirror c).isolateCheck n

/-- MIRROR_WRITE (R302, R332): a message is acknowledged at its last cell; one that carries two first cells, or of which
a cell is rejected, is dropped from there on and not acknowledged. -/
def execMirrorWrite (port : FPort) (s : State) : Out :=
  .next (if s.live then
    match s.headCell port tyMirrorWrite with
    | none => s
    | some c =>
      let s := s.consume port 3
      let under := (s.fab port).rxMirror.find? (fun m => decide (m.1 = c.tag))
      if c.first && under.isSome then
        ((s.mirrorMark port c false).fabViolation port vioOutside c).isolateCheck port
      else if under.any (fun m => !m.2) then s.mirrorMark port c false
      else match s.mirrorOf port with
      | none => (s.mirrorMark port c false).mirrorReject port c
      | some p =>
        if !s.mirrorAllows p c.target.toNat c.payload.length then (s.mirrorMark port c false).mirrorReject port c
        else
          let s := s.mirrorMark port c true
          let s := s.writeVa p (s.regN .updMirrorBase p.val + c.target.toNat) c.payload c.poison
          if c.last then s.fabSend port (some p) [mkCell tyMirrorAck c.tag c.target.toNat true true false (List.replicate 32 0)]
          else s
  else s)

/-- MIRROR_READ (R302): served only from the region and to its rank. -/
def execMirrorRead (port : FPort) (s : State) : Out :=
  .next (if s.live then
    match s.headCell port tyMirrorRead with
    | none => s
    | some c =>
      let s := s.consume port 3
      let len := field c.payload 0 4
      match s.mirrorOf port with
      | none => s
      | some p =>
        if s.mirrorAllows p c.target.toNat len then
          s.fabSend port (some p) (messageCells tyMirrorData c.tag true true (fun o => c.target.toNat + o)
            (s.readMarked p (s.regN .updMirrorBase p.val + c.target.toNat) len))
        else s
  else s)

end Sys2Proof.Machine
end

