-- ==== Sys2Proof/Machine/Partitions.lean ====
section
/-! DEFINITION. The end of a grid (R404), queued requests that get their admission unit (R413, R414), and
partitions that start and are reset (R394, R395, R466, R484). -/

namespace Sys2Proof.Machine

/-! ## LAUNCH_COMPLETE -/

/-- A LAUNCH whose every thread has been placed and is done. -/
def Packet.gridDone (k : Packet) : Bool :=
  decide (pktOpcode k.bytes = 0x02) && k.started && !k.ended && decide (k.placed = launchThreads k.bytes) && decide (k.alive = 0)

/-- The chained put of a LAUNCH: its continuation entry. -/
def chainedPut (bs : List Byte) : List Byte := pktCont bs (pktNeeds bs - 1)

/-- Send the chained put of a grid that is done (R403): it keeps the message slot the LAUNCH was admitted with. A
put whose range fails its check, or whose port carries no message, is not sent (log 50). -/
def State.sendChained (s : State) (p : Part) (k : Packet) (units : List AdmUnit) : State :=
  let bs := chainedPut k.bytes
  match s.checkHandle p (pktHandle bs 0) with
  | .fail _ _ => s
  | .ok d =>
    if putLocal bs + putLength bs > d.footprint || !(s.fab (putPort bs)).takesMessages then s
    else (s.onPart p (fun q => { q with units := q.units ++ units })).sendPut p k.id bs d

/-- LAUNCH_COMPLETE (R403, R404): every context of the grid is done; the LAUNCH ends with the first fault's status or
OK, and its chained put is sent. -/
def execLaunchComplete (p : Part) (s : State) : Out :=
  .next (if s.live then
    match (s.part p).packets.find? Packet.gridDone with
    | none => s
    | some k =>
      if !launchChained k.bytes then s.endPacket p k.id stOk
      else if !s.ready p (s.putRanges p (chainedPut k.bytes)) then s.ask p (s.putRanges p (chainedPut k.bytes))
      else
        let units := (s.part p).units.filter (fun u => decide (u.packet = k.id))
        (s.endPacket p k.id stOk).sendChained p k units
  else s)

/-! ## ADMISSION_UNIT_FREED -/

/-- The key of a resource. -/
def resourceKey : Resource → Nat
  | .fabric n => fabKey n.val
  | .update => updKey
  | .requant p h => reqKey p.val h.toNat

/-- The bytes a queued request moves. -/
def State.requestBytes (s : State) (p : Part) (k : Packet) : Nat :=
  match pktOpcode k.bytes with
  | 0x03 => s.copyBytes p k
  | 0x11 | 0x12 | 0x13 => s.updBytes p k
  | 0x14 => 0
  | _ => messageBytes k

/-- The memory the start of a queued request reads. -/
def State.requestRanges (s : State) (p : Part) (k : Packet) : List (Nat × Nat) :=
  match pktOpcode k.bytes with
  | 0x02 => s.launchRanges p k.bytes
  | 0x03 => s.copyRanges p k.bytes
  | 0x21 => s.putRanges p k.bytes
  | 0x22 => s.handleRanges p (pktHandle k.bytes 0)
  | _ => []

/-- What a request does as it starts. -/
def State.beginQueued (s : State) (p : Part) (k : Packet) : State :=
  match pktOpcode k.bytes with
  | 0x02 => s.beginLaunch p k
  | 0x03 => s.beginCopy p k
  | 0x21 => s.beginPut p k
  | 0x22 => s.beginGet p k
  | _ => s

/-- The place in the order of interpretation of a partition's queue head. -/
def State.headStamp (s : State) (p : Part) (key : Nat) : Nat :=
  match (s.queuedOn p key).head?.bind (fun id => s.packet? p id) with
  | some k => k.stamp
  | none => 0

/-- The partitions that wait for a resource, in the order they are served: the rotation, or for a REQUANT_COPY destination
the order of interpretation (R277, R413). -/
def State.waitingFor (s : State) (key : Nat) : List Part :=
  let waiting := (rotation (Sparse.get 3 s.poolTurn key)).filter (fun p => !(s.queuedOn p key).isEmpty)
  if key < 64 then waiting
  else waiting.filter (fun p => waiting.all (fun q => decide (s.headStamp p key ≤ s.headStamp q key)))

/-- Whose queue head gets a free unit, and whether it is a pool unit: a reserved unit goes to its owner; a pool unit to
the next waiting partition of the rotation. -/
def State.nextQueued (s : State) (key : Nat) : Option (Part × Bool) :=
  let waiting := s.waitingFor key
  match waiting.find? (fun p => s.ownUnitFree p key) with
  | some p => some (p, false)
  | none => if s.poolUnitFree key then waiting.head?.map (fun p => (p, true)) else none

/-- ADMISSION_UNIT_FREED (R413, R414): the head of the queue that a free unit goes to starts. -/
def execAdmissionUnitFreed (res : Resource) (s : State) : Out :=
  .next (if s.live then
    let key := resourceKey res
    match s.nextQueued key with
    | none => s
    | some (p, pool) =>
      match (s.queuedOn p key).head?.bind (fun id => s.packet? p id) with
      | none => s
      | some k =>
        if !s.ready p (s.requestRanges p k) then s.ask p (s.requestRanges p k)
        else
          let s := if pool then { s with poolTurn := Sparse.set 3 s.poolTurn key p.val } else s
          (s.startQueued p k key (s.requestBytes p k) pool).beginQueued p k
  else s)

/-! ## Start (R394, R466, R484) -/

/-- Why a start is refused (Table 16.9): 0 not ready, 1 a failed stack, 2 the Reserve, 3 both Update Die links. -/
def State.startRefusal (s : State) (p : Part) : Option Nat :=
  let usesUpd := decide (s.reserveFrames p ≠ 0) || decide (s.updShare p ≠ 0)
  if !s.boot.ready then some 0
  else if (s.stacksOf p).any (fun h => s.boot.hbmFailed.getLsbD h) then some 1
  else if usesUpd && s.boot.reserveFailed then some 2
  else if usesUpd && decide (s.boot.linkFailed = 3) then some 3
  else none

/-- The rings of a partition. -/
def State.ringsOf (s : State) (p : Part) : List Nat := (upTo 64).filter (fun r => s.ownsRing p r)

/-- A partition's ring indices return to 0 (R394). -/
def State.zeroRings (s : State) (p : Part) : State :=
  (s.ringsOf p).foldl (fun s r =>
    (((s.setRegN .hifSqHead r 0 0).setRegN .hifSqTail r 0 0).setRegN .hifRqHead r 0 0).setRegN .hifRqTail r 0 0) s

/-- A start: dropped unless the partition is STOPPED; dropped after a fatal error (R484); refused with
PART_START_REFUSED as R466 gives (causes by Config.code 3, log 41). -/
def State.startPart (s : State) (p : Part) : State :=
  if (s.part p).state ≠ 0 ∨ s.mgt.fatal = true then s
  else match s.startRefusal p with
    | some c => s.log secSource 6 (f1 p.val ++ f1 (Config.code 3 c))
    | none => (((s.zeroRings p).openTables p)).onPart p (fun q => { q with state := 1 })

/-- PART_START (R394). -/
def execPartStart (r : Requester) (p : Part) (s : State) : Out :=
  .next (if s.live then s.ownWrite r .partCtrl p.val 0 (fun s => s.startPart p) else s)

/-! ## Reset (R395) -/

/-- The cores of a partition. -/
def State.coresOf (s : State) (p : Part) : List CoreId := gridCores ((s.diesOf p).map (fun d => d.val))

/-- The command on an array loses its tiles that are not past the commit point (R102); committed rows drain. -/
def ArrayState.abandon (a : ArrayState) : ArrayState :=
  match a.cmd with
  | none => a
  | some x =>
    if x.drains.isEmpty then { a with cmd := none, held := none }
    else { a with cmd := some { x with cur := none, waiting := [], stop := x.next, fault := some (x.fault.getD (stAbandoned, x.next)) } }

/-- Every context of a core is freed and its tiles in progress abandoned. -/
def State.freeCore (s : State) (c : CoreId) : State :=
  let s := ((s.core c).contexts.filter (fun e => decide (e.2.run ≠ .free))).foldl (fun s e => s.freeCtx (threadOf c e.1)) s
  s.putCore c (fun x => { x with array := x.array.abandon })

/-- Partials and held writes no longer name a context that was freed. -/
def State.disown (s : State) (p : Part) : State :=
  let mine (o : Option (Thread × Stream)) : Bool :=
    match o with
    | some (t, _) => decide (s.partOfCore (threadCore t) = some p)
    | none => false
  let drop (x : Partial) : Partial := if mine x.owner then { x with owner := none } else x
  let s := (s.diesOf p).foldl (fun s d => s.onDie d (fun q => { q with arrivals := q.arrivals.map drop, held := q.held.map drop })) s
  { s with heldWrites := s.heldWrites.map (fun h => if mine h.owner then { h with owner := none } else h) }

/-- The tensors that an UPDATE_STEP entry writes outside the state region become undefined (R301). -/
def State.scrambleEntry (s : State) (p : Part) (e : List Byte) : State :=
  ([peWork e, peCopy e].filter (fun h => decide (h ≠ 0))).foldl (fun s h =>
    match s.checkHandle p h with
    | .ok d => s.scramble p d
    | .fail _ _ => s) s

/-- The partition's Update Die work stops (R301): the state region and the working weights of the UPDATE_STEP under
way are undefined, and so is the state region of a RESTORE that was copying into it (R308). -/
def State.stopUpdate (s : State) (p : Part) : State :=
  let s := match (s.part p).update.jobs with
    | j :: _ => (j.entries.foldl (fun (s : State) (x : UpdEntry) => s.scrambleEntry p x.raw) s).scrambleRegion p
    | [] => if (s.part p).update.restore.any (fun (j : RestoreJob) => j.chosen.isSome) then s.scrambleRegion p else s
  s.onUpdate p (fun u => { u with jobs := [], ckpt := none, restore := none, stepEnd := none })

/-- Rounds that run, and norm and agreement rounds, fail; their cause has no code of its own (Config.code 4,
log 41). -/
def State.failRounds (s : State) (p : Part) : State :=
  ((s.part p).rounds.filter (fun r => decide (r.state ≠ .pending) || decide (r.cls = 0) || decide (r.cls = 3))).foldl
    (fun s r => s.failRound p r (Config.code 4 0 % 16) none) s

/-- Puts being received into the partition's windows are dropped, and PUT_INCOMPLETE is logged (R318); their further
data is refused with the partition's state (log 67). -/
def State.dropPutsInto (s : State) (p : Part) : State :=
  allFPorts.foldl (fun s n =>
    let mine (m : RxPut) : Bool := decide (m.status = 0) && (match Sparse.find? s.windows m.window with
      | some w => decide (w.part = p)
      | none => false)
    let gone := (s.fab n).rxPuts.filter mine
    if gone.isEmpty then s
    else
      let s := s.onFab n (fun q => { q with rxPuts := q.rxPuts.map (fun m => if mine m then { m with status := 5 } else m) })
      gone.foldl (fun s m => s.log (fabSource n) 11 (f4 m.window ++ f2 m.tag.toNat ++ f4 m.written)) s) s

/-- A packet that has not ended ends: ABANDONED when its work has started, REFUSED_PARTITION_STATE otherwise. -/
def State.cutPacket (s : State) (p : Part) (k : Packet) : State :=
  if k.started && pktOpcode k.bytes = 0x14 then s.stopRequant p k true
  else if k.started then
    s.endPacket p k.id stAbandoned (fun x => { x with status := none, detail := 0, detail2 := 0, value := 0, body := none })
  else s.refuse p k.id stPartState 4 0

/-- Every packet in work ends. -/
def State.cutPackets (s : State) (p : Part) : State :=
  ((s.part p).packets.filter (fun k => !k.ended)).foldl (fun s k => s.cutPacket p k) s

/-- What waited for packets of the partition waits no more. -/
def State.clearQueues (s : State) (p : Part) : State :=
  let s := s.onPart p (fun q => { q with queues := [], units := [], drainPhase := none, launches := [] })
  { s with windows := s.windows.map (fun e => if e.2.part = p then (e.1, { e.2 with leaving := none }) else e) }

/-- A RUNNING partition is reset (R395); its final replies follow with PACKET_COMPLETE. -/
def State.resetPart (s : State) (p : Part) : State :=
  if (s.part p).state ≠ 1 then s
  else
    let s := s.onPart p (fun q => { q with state := 2 })
    let s := ((s.coresOf p).foldl State.freeCore s).disown p
    let s := ((s.stopUpdate p).stopCopiesInto p).failRounds p
    ((s.dropPutsInto p).cutPackets p).clearQueues p

/-- PART_RESET (R395). -/
def execPartReset (r : Requester) (p : Part) (s : State) : Out :=
  .next (if s.live then s.ownWrite r .partCtrl p.val 0 (fun s => s.resetPart p) else s)

/-- Nothing of a resetting partition is left: no reply owed, no row draining, no host line on its way. -/
def State.quiet (s : State) (p : Part) : Bool :=
  (s.part p).packets.isEmpty && (s.coresOf p).all (fun c => (s.core c).array.cmd.isNone)
    && allRPorts.all (fun k => !s.ownsRcl p k || (s.rclPort k).reads.all (fun x => decide (x.landing ≠ .buffer)))

/-- PARTITION_STOPPED (R395): the replies are written; the phase tag is IDLE and the partition is STOPPED. -/
def execPartitionStopped (p : Part) (s : State) : Out :=
  .next (if s.live && decide ((s.part p).state = 2) && s.quiet p then
    let s := s.onPart p (fun q => { q with phase := 0, state := 0 })
    allRPorts.foldl (fun s k => if s.ownsRcl p k then s.onRcl k (fun q => { q with hostBuf := [] }) else s) s
  else s)

end Sys2Proof.Machine
end

