-- ==== Sys2Proof/Machine/Governor.lean ====
section
/-! DEFINITION. The governor (R415-R441): operating points and clocks, the rail current loop, the module power cap,
thermal control. -/

namespace Sys2Proof.Machine

/-! ## Operating points (R420-R422) -/

/-- The effective depth of a die under its partition's cap depth. -/
def State.dieDepth (s : State) (d : Die) : Nat := s.depth d (s.partOfDie d)

/-- A die's PLL and core rails move towards operating point `t` (R421). Going down, the PLL moves first and the rails
follow; going up, the rails rise first. `volts` is the point whose voltages are assured: a fall counts at once,
a rise when it has settled. -/
def DieState.settle (q : DieState) (t : Nat) : DieState :=
  if q.pllTo.isSome then q
  else if t > q.op then { q with pllTo := some t }
  else if t < q.op then
    if q.volts ≤ t then { q with pllTo := some t, slewTo := none } else { q with slewTo := some t }
  else if q.volts = t then { q with slewTo := none }
  else { q with slewTo := some t, volts := max q.volts t }

/-- A die follows its effective depth (R422). -/
def State.retarget (s : State) (d : Die) : State := s.onDie d (fun q => q.settle (depthOp (s.dieDepth d)))

/-- PLL_CHANGE_COMPLETE (R421): the new frequency is in force; after a fall the rails begin to fall. -/
def execPllChangeComplete (d : Die) (s : State) : Out :=
  .next (if s.live then
    match (s.die d).pllTo with
    | some t => (s.onDie d (fun q => { q with op := t, pllTo := none })).retarget d
    | none => s
  else s)

/-- RAIL_SLEW_COMPLETE (R421): both core rails have settled; after a rise the PLL moves. -/
def execRailSlewComplete (d : Die) (s : State) : Out :=
  .next (if s.live then
    match (s.die d).slewTo with
    | some t => (s.onDie d (fun q => { q with volts := t, slewTo := none })).retarget d
    | none => s
  else s)

/-- The preferred point of a partition's phase tag (R424); a field above 11 is taken as 11. -/
def State.preferred (s : State) (p : Part) : Nat :=
  Nat.min (bitsOf (s.regN .govPhaseOp p.val) (4 * (s.part p).phase + 3) (4 * (s.part p).phase)) 11

/-- P follows the partition's tag on each of its dies. -/
def State.followPhase (s : State) (p : Part) : State :=
  (s.diesOf p).foldl (fun s d => (s.onDie d (fun q => { q with prefDepth := s.preferred p })).retarget d) s

/-- PHASE_PREFERENCE_UPDATE (R261, R424). -/
def execPhasePreferenceUpdate (p : Part) (s : State) : Out :=
  .next (if s.live && s.partValid p then s.followPhase p else s)

/-! ## Rails (R415, R416, R425-R428) -/

/-- The loop rails' limits in milliamperes: VCORE_A, VCORE_K, VSRAM, VHBM_C, VHBM_Q (Table 15.1). -/
def loopLimits : List Nat := [380000, 200000, 80000, 50000, 40000]

/-- The limit of a rail instance in milliamperes, instances in table order and die order (R488). -/
def railLimit (r : Nat) : Nat :=
  if r < 20 then loopLimits.getD (r / 4) 0
  else if r < 22 then 100000 else if r < 24 then 110000 else if r = 24 then 45000 else if r = 25 then 60000 else 4000

/-- The current a loop rail is judged on (R425, R428): the core rails by the larger of measurement and estimate, but
for a die whose estimate is not trusted. -/
def judged (mismatch : Bool) (loop est : List Nat) (i : Nat) : Nat :=
  if i < 2 && !mismatch then max (loop.getD i 0) (est.getD i 0) else loop.getD i 0

/-- The first loop rail over its limit. -/
def overRail (mismatch : Bool) (loop est : List Nat) : Option Nat :=
  (upTo 5).find? (fun i => decide (judged mismatch loop est i > loopLimits.getD i 0))

/-- Every loop rail lies below a percentage of its limit. -/
def belowAll (mismatch : Bool) (loop est : List Nat) (percent : Nat) : Bool :=
  (upTo 5).all (fun i => decide (judged mismatch loop est i * 100 < loopLimits.getD i 0 * percent))

/-- A rise of L_d at the end of an over-limit window, never sooner than 2 µs after the last one; RAIL_LIMIT at most
once in 100 µs (R426). -/
def State.railRise (s : State) (d : Die) (rail amps : Nat) : State :=
  let q := s.die d
  if q.sinceRise < 2 ∨ q.railDepth ≥ 27 then s
  else
    let n := q.railDepth + 1
    let s := s.onDie d (fun q => { q with railDepth := n, sinceRise := 0 })
    let s := if q.sinceLog ≥ 100 then
        (s.onDie d (fun q => { q with sinceLog := 0 })).log govSource 1 (f1 d.val ++ f4 (4 * rail + d.val) ++ f4 amps ++ f4 n) (some d.val)
      else s
    s.retarget d

/-- A window's effect on L_d (R426, R427). -/
def State.railLoop (s : State) (d : Die) (loop est : List Nat) : State :=
  let m := (s.die d).mismatch
  let s := s.onDie d (fun q => { q with sinceRise := q.sinceRise + 1, sinceLog := q.sinceLog + 1 })
  let s := if belowAll m loop est (if m then 80 else 90) then
      let n := (s.die d).quiet + 1
      if n ≥ (if m then 1000 else 100) then
        (s.onDie d (fun q => { q with quiet := 0, railDepth := q.railDepth - 1 })).retarget d
      else s.onDie d (fun q => { q with quiet := n })
    else s.onDie d (fun q => { q with quiet := 0 })
  match overRail m loop est with
  | some i => s.railRise d i (judged m loop est i)
  | none => s

/-- An FP32 number in units of 2^-149. -/
def fixed149 (bits : Nat) : Option Int :=
  match v32 bits with
  | .fin neg m e => let x : Int := (m * 2 ^ (e + 149).toNat : Nat)
                    some (if neg then -x else x)
  | _ => none

/-- Two powers differ by more than `percent` of the measured one. -/
def differsBy (percent : Nat) (est meas : Word) : Bool :=
  match fixed149 est.toNat, fixed149 meas.toNat with
  | some e, some m => decide ((e - m).natAbs * 100 > m.natAbs * percent)
  | _, _ => true

/-- The comparison of estimated and measured power over a window (R428). -/
def State.estimateLoop (s : State) (d : Die) (est meas : Word) : State :=
  let q := s.die d
  if q.mismatch then
    if differsBy 10 est meas then s.onDie d (fun q => { q with agree := 0 })
    else if q.agree + 1 ≥ 10000 then s.onDie d (fun q => { q with mismatch := false, agree := 0, differ := 0 })
    else s.onDie d (fun q => { q with agree := q.agree + 1 })
  else if differsBy 20 est meas then
    if q.differ + 1 ≥ 1000 then
      let s := s.onDie d (fun q => { q with mismatch := true, agree := 0, differ := 0, quiet := 0 })
      let s := (s.setFlag .govStatus .govStatusCounts 1).raiseAlert 9
      s.log govSource 3 (f1 d.val ++ f4 est.toNat ++ f4 meas.toNat) (some d.val)
    else s.onDie d (fun q => { q with differ := q.differ + 1 })
  else s.onDie d (fun q => { q with differ := 0 })

/-- A monitored rail's window (R416): over its limit it sets rail_over, and logs RAIL_OVER at most once in a
millisecond. -/
def State.railMonitor (s : State) (rail amps : Nat) : State :=
  if rail < 20 ∨ amps ≤ railLimit rail then s
  else
    let now := (s.time 4).toNat
    let s := (s.setFlag .govStatus .govStatusCounts 0).raiseAlert 5
    let last := Sparse.get 0 s.power.railOverLogged rail
    if last = 0 ∨ now + 1 ≥ last + 100000 then
      ({ s with power := { s.power with railOverLogged := Sparse.set 0 s.power.railOverLogged rail (now + 1) } }).log
        govSource 2 (f4 rail ++ f4 amps)
    else s

/-- RAIL_WINDOW_END (R416, R425-R428): the windows of a die's loop rails, its estimate, and the monitored rails. -/
def execRailWindowEnd (d : Die) (loopMilliamps : List Nat) (estMilliamps : List Nat) (estWatts : Word) (measWatts : Word)
    (monitored : List (Fin 27 × Nat)) (s : State) : Out :=
  .next (if s.live then
    let s := (s.railLoop d loopMilliamps estMilliamps).estimateLoop d estWatts measWatts
    monitored.foldl (fun s x => s.railMonitor x.1.val x.2) s
  else s)

/-! ## The module power cap (R429-R434) -/

/-- The effective cap. -/
def State.effectiveCap (s : State) : Nat := Nat.min (s.regN .govCapWatts) (s.regN .govBoardCap)

/-- The valid partitions. -/
def State.validParts (s : State) : List Part := allParts.filter (fun p => s.partValid p)

/-- E_p: the largest effective depth among a partition's dies. -/
def State.partDepth (s : State) (p : Part) : Nat := (s.diesOf p).foldl (fun a d => max a (s.dieDepth d)) 0

/-- The partition with the least key, the lower number on a tie. -/
def leastBy (key : Part → Nat) : List Part → Option Part
  | [] => none
  | p :: r => match leastBy key r with
    | some q => if key q < key p then some q else some p
    | none => some p

/-- The partition with the largest key, the higher number on a tie. -/
def largestBy (key : Part → Nat) : List Part → Option Part
  | [] => none
  | p :: r => match largestBy key r with
    | some q => if key q < key p then some p else some q
    | none => some p

/-- Whole watts as FP32 (Table 15.5, R476). -/
def wattsFp (w : Nat) : Nat := r32 (Val.ofInt w)

/-- A partition's cap depth changes (R430, R432): its dies follow; POWER_SHARE goes to its Surveyor ring and to the
governor's. -/
def State.setCap (s : State) (p : Part) (c watts : Nat) : State :=
  let s := s.onPart p (fun q => { q with capDepth := c })
  let s := (s.diesOf p).foldl State.retarget s
  let fields := f1 p.val ++ f4 c ++ f4 s.effectiveCap ++ f4 (wattsFp watts)
  (s.log (surveyorSource p) 7 fields).log govSource 4 fields

/-- Whether the cap is unreachable, for every die (R433). -/
def State.setUnreachable (s : State) (on : Bool) : State :=
  allDies.foldl State.retarget { s with power := { s.power with unreachable := on } }

/-- The cap is unreachable (R433): every die holds depth 27, and every valid partition's C_p is 27, so that it leaves
depth 27 only under R431 (R434; DEDUCED, log 122). -/
def State.capUnreachable (s : State) (watts : Nat) : State :=
  let s := (s.setUnreachable true).setFlag .govStatus .govStatusCounts 2
  let s := (s.raiseAlert 4).log govSource 6 (f4 s.effectiveCap ++ f4 (wattsFp watts))
  (s.validParts.filter (fun p => decide ((s.part p).capDepth < 27))).foldl (fun s p => s.setCap p 27 watts) s

/-- A window above the cap: one partition is deepened; with every one at depth 27 the cap is unreachable (R430,
R433). -/
def State.capDeepen (s : State) (watts : Nat) : State :=
  match leastBy (fun p => (s.partDepth p + 1) * s.powerWeight p) (s.validParts.filter (fun p => decide (s.partDepth p < 27))) with
  | some p => s.setCap p (s.partDepth p + 1) watts
  | none => if s.validParts.isEmpty || s.power.unreachable then s else s.capUnreachable watts

/-- A window at or below the cap ends the refusals (R434). -/
def State.capClear (s : State) (watts : Nat) : State :=
  if s.power.unreachable then
    (s.setUnreachable false).log govSource 7 (f4 s.effectiveCap ++ f4 (wattsFp watts))
  else s

/-- Ten windows below 95 % of the cap relax one partition (R431); `below` tells of this one. -/
def State.capRelax (s : State) (below : Bool) (watts : Nat) : State :=
  if !below then { s with power := { s.power with quietCaps := 0 } }
  else if s.power.quietCaps + 1 < 10 then { s with power := { s.power with quietCaps := s.power.quietCaps + 1 } }
  else
    let s := { s with power := { s.power with quietCaps := 0 } }
    match largestBy (fun p => (s.part p).capDepth * s.powerWeight p) (s.validParts.filter (fun p => decide ((s.part p).capDepth > 0))) with
    | some p => s.setCap p ((s.part p).capDepth - 1) watts
    | none => s

/-- The samples a window is judged on and shows (R430): GOV_MEAS_WATTS holds the latest, the telemetry takes its mean
over the last millisecond (R488). -/
def State.takeSamples (s : State) (samples : List Nat) : State :=
  let all := s.power.samples ++ samples
  let s := s.setRegN .govMeasWatts 0 0 (Nat.min (samples.getLastD 0) 0xFFFF)
  { s with power := { s.power with samples := all.drop (all.length - 1000) } }

/-- CAP_WINDOW_END (R430-R434): `samples` are the window's 1 µs samples in watts, oldest first; their mean is judged
exactly, and events carry it in whole watts (log 71). A window without a sample judges nothing. -/
def execCapWindowEnd (samples : List Nat) (s : State) : Out :=
  .next (if s.live && !samples.isEmpty then
    let n := samples.length
    let sum := samples.foldl (fun a x => a + x) 0
    let s := s.takeSamples samples
    let s := if sum > s.effectiveCap * n then s.capDeepen (sum / n) else s.capClear (sum / n)
    s.capRelax (decide (sum * 100 < s.effectiveCap * 95 * n)) (sum / n)
  else s)

/-- A cap register takes a value, clamped into 600-2,100; a clamp logs CAP_CLAMPED with the register's address
(R429). -/
def State.writeCap (s : State) (reg : RegName) (value : Nat) : State :=
  let v := reg.row.written 0 value
  let s := s.setRegN reg 0 0 v
  if v ≠ value &&& reg.row.mask then s.log govSource 5 (f4 (mmioAddr (reg.offset 0 0)) ++ f4 value) else s

/-- GOV_CAP_WATTS_WRITE (R429). -/
def execGovCapWattsWrite (r : Requester) (value : BitVec 32) (s : State) : Out :=
  .next (if s.live then s.ownWrite r .govCapWatts 0 0 (fun s => s.writeCap .govCapWatts value.toNat) else s)

/-- GOV_BOARD_CAP_WRITE (R429, R504): by the management port alone. -/
def execGovBoardCapWrite (r : Requester) (value : BitVec 32) (s : State) : Out :=
  .next (if s.live then s.ownWrite r .govBoardCap 0 0 (fun s => s.writeCap .govBoardCap value.toNat) else s)

/-! ## Thermal control (R435-R437) -/

/-- A reading in 0.01 °C that a working sensor gives (R436). -/
def goodReading (x : Option Int) : Bool :=
  match x with
  | some v => decide (-4000 ≤ v ∧ v ≤ 15000)
  | none => false

/-- The largest of some readings. -/
def largest : List Int → Option Int
  | [] => none
  | x :: r => match largest r with
    | some y => some (max x y)
    | none => some x

/-- Sensors that fail now: T_d is held at no less than 11, and each is logged (R436). -/
def State.failSensors (s : State) (d : Die) (bad : List Nat) : State :=
  bad.foldl (fun s i =>
    let s := s.onDie d (fun q => { q with sensorFailed := q.sensorFailed ||| BitVec.ofNat 8 (2 ^ i), thermDepth := max q.thermDepth 11 })
    ((s.retarget d).raiseAlert 8).log govSource 10 (f1 d.val ++ f2 i) (some d.val)) s

/-- THERMAL_SENSOR_READ (R435, R436): eight readings, one missing when it has not been refreshed in 100 µs; one at or
above 95 °C starts the 10 ms below it again, with the next window that lies wholly below it. -/
def execThermalSensorRead (d : Die) (readings : List (Option Int)) (s : State) : Out :=
  .next (if s.live then
    let failed := (s.die d).sensorFailed
    let s := s.failSensors d ((upTo 8).filter (fun i => !failed.getLsbD i && !goodReading (readings.getD i none)))
    let good := (upTo 8).filterMap (fun i => if (s.die d).sensorFailed.getLsbD i then none else readings.getD i none)
    match largest good with
    | some x => s.onDie d (fun q => { q with
        reading := x, hot := q.hot || decide (9500 ≤ x), cool := if 9500 ≤ x then 0 else q.cool })
    | none => s
  else s)

/-- THERMAL_WINDOW_END (R435, R436): at or above 100 °C T_d rises; below 95 °C for 10 ms, 100 windows that lie wholly
below it, it falls. -/
def execThermalWindowEnd (d : Die) (s : State) : Out :=
  .next (if s.live then
    let q := s.die d
    let s := s.onDie d (fun q => { q with hot := decide (9500 ≤ q.reading) })
    if q.reading ≥ 10000 then
      if q.thermDepth ≥ 27 then s.onDie d (fun q => { q with cool := 0 })
      else
        let s := (s.onDie d (fun q => { q with thermDepth := q.thermDepth + 1, cool := 0 })).retarget d
        if q.thermDepth = 0 then
          (s.raiseAlert 3).log govSource 8 (f1 d.val ++ f4 (unsigned 32 q.reading)) (some d.val)
        else s
    else if !q.hot && decide (q.reading < 9500) then
      if q.cool + 1 < 100 then s.onDie d (fun q => { q with cool := q.cool + 1 })
      else
        let t := q.thermDepth - 1
        let t := if q.sensorFailed = 0 then t else max t 11
        let s := (s.onDie d (fun q => { q with thermDepth := t, cool := 0 })).retarget d
        if t = 0 ∧ q.thermDepth > 0 then s.log govSource 9 (f1 d.val) (some d.val) else s
    else s.onDie d (fun q => { q with cool := 0 })
  else s)

/-- THERMAL_TRIP (R437): a reading of 115 °C asserts THERM_TRIP_n until power is removed. -/
def execThermalTrip (_unit : TripUnit) (centidegrees : Int) (s : State) : Out :=
  .next (if s.power.railsUp > 0 && decide (centidegrees ≥ 11500) then { s with power := { s.power with trip := true } } else s)

end Sys2Proof.Machine
end

