-- ==== Sys2Proof/Machine/FabPorts.lean ====
section
/-! DEFINITION. The states of a fabric port (R310-R318, R325-R327, R333, R334): detection, the BOOT lane, the
choice of a mode, the lane test, HELLO, retraining, isolation, and the link layer's own cells. -/

namespace Sys2Proof.Machine

/-! ## Modes (R310, R314, Table 11.1) -/

/-- The modes in order of preference: lanes, and the lane rate's code (0 for 53.125, 1 for 106.25, 2 for 212.5
Gb/s). -/
def fabModes : List (Nat × Nat) := [(4, 2), (4, 1), (2, 2), (4, 0), (2, 1), (1, 2), (2, 0), (1, 1), (1, 0)]

/-- The lanes a mode uses of those good on both sides, as a mask: the first of its lane sets that is all good. -/
def laneSet (lanes good : Nat) : Option Nat :=
  let sets := if lanes = 4 then [15] else if lanes = 2 then [3, 12] else [1, 2, 4, 8]
  sets.find? (fun m => decide (m &&& good = m))

/-- The first mode both sides support, with its lanes (R314). -/
def chooseMode (good rate : Nat) : Option (Fin 9 × BitVec 4) :=
  (List.finRange 9).findSome? (fun m =>
    match fabModes[m.val]? with
    | some (n, r) => if r ≤ rate then (laneSet n good).map (fun k => (m, BitVec.ofNat 4 k)) else none
    | none => none)

/-- The lanes that have not failed. -/
def FabPort.good (q : FabPort) : BitVec 4 := ~~~ q.laneFailed

/-- The PARAM payload (R314): good lanes, highest lane rate, version 1 (bytes DESIGN CHOICE, log 46). -/
def FabPort.paramPayload (q : FabPort) : List Byte := padPayload 32 (leBytes 1 q.good.toNat ++ leBytes 1 2 ++ leBytes 1 1)

/-- The HELLO payload (Table 11.7). -/
def State.helloPayload (s : State) (n : FPort) (seen : Bool) : List Byte :=
  let q := s.fab n
  padPayload 64 (leBytes 8 0 ++ leBytes 8 deviceId.toNat ++ leBytes 4 (s.regN .fabRank) ++ leBytes 4 (s.regN .fabDomain)
    ++ leBytes 1 1 ++ leBytes 1 n.val ++ leBytes 1 (match q.mode with
      | some m => m.val
      | none => 0) ++ leBytes 1 (b2n seen))

/-- Send a HELLO; its seen bit tells whether one has come from the peer. No port sends one before the identity keys are
ready (Table 16.11). -/
def State.sendHello (s : State) (n : FPort) (seen : Bool) : State :=
  if s.boot.keys then s.fabLink n tyHello (s.helloPayload n seen) else s

/-! ## Entering states (Table 11.2) -/

/-- Record a bootstrap pattern on `lanes`. -/
def FabPort.sendPattern (q : FabPort) (lanes : BitVec 4) : FabPort := { q with patterns := q.patterns ++ [lanes] }

/-- Enter DETECT: the bootstrap pattern goes out on lanes 0-3. -/
def State.enterDetect (s : State) (n : FPort) : State :=
  let now := s.fabTime n
  s.onFab n (fun q => { q.sendPattern 0xF with state := .detect, backoff := false, detectAt := now, mode := none, lanesUsed := 0, bootLane := 0 })

/-- An attempt has failed (R314, R315): the port waits in DETECT before it tries again; its 30 s run on. -/
def State.attemptFailed (s : State) (n : FPort) : State :=
  let now := s.fabTime n
  s.onFab n (fun q => { q with
    state := .detect
    backoff := true
    detectAt := if q.away then now else q.detectAt
    mode := none
    lanesUsed := 0
    bootLane := 0 })

/-- The next good lane from `b` on. -/
def FabPort.laneFrom (q : FabPort) (b : Nat) : Option Nat := (upTo 4).find? (fun l => decide (b ≤ l) && bitOf q.good.toNat l)

/-- Try BOOT on the next good lane from `b` on, sending PARAM; with none left the attempt has failed. -/
def State.bootFrom (s : State) (n : FPort) (b : Nat) : State :=
  match (s.fab n).laneFrom b with
  | some l =>
    let s := s.onFab n (fun q => { q with state := .boot, bootLane := l, mode := none, lanesUsed := 0 })
    s.fabLink n tyParam (s.fab n).paramPayload
  | none => s.attemptFailed n

/-- Enter TRAIN with the best mode of the lanes good on both sides, or give the attempt up. -/
def State.trainMode (s : State) (n : FPort) : State :=
  let q := s.fab n
  match chooseMode (q.good &&& q.peerMask).toNat q.peerRate.val with
  | some (m, lanes) => s.onFab n (fun q => { q with state := .train, mode := some m, lanesUsed := lanes })
  | none => s.attemptFailed n

/-- Causes of a retrain, in the order of R316 (numbered by Config.code 1, log 41). -/
def retrainLock : Nat := 0
def retrainUncorr : Nat := 1
def retrainSer : Nat := 2
def retrainHost : Nat := 3

/-- Enter RETRAIN, holding the unacknowledged cells (R316, R317). -/
def State.enterRetrain (s : State) (n : FPort) (cause : Nat) : State :=
  let held := (s.fab n).replay.length
  let s := s.onFab n (fun q => { q with state := .retrain, away := true, bootLane := 0, uncorr := [] })
  s.log (fabSource n) 4 (f1 (Config.code 1 cause) ++ f4 held)

/-- The port is in UP or LIMITED. -/
def FabPort.carriesCells (q : FabPort) : Bool := decide (q.state = .up) || decide (q.state = .limited)

/-! ## Detection and BOOT -/

/-- PEER_SIGNAL_DETECTED (R313): DETECT and RETRAIN go on to BOOT, DARK to DETECT; nothing trains without the I/O die's
reference (R521). -/
def execPeerSignalDetected (port : FPort) (s : State) : Out :=
  .next (if s.live && s.power.fabRefclk.getD (fabIod port).val true then
    let q := s.fab port
    match q.state with
    | .detect => if q.backoff then s else s.bootFrom port 0
    | .retrain => s.bootFrom port 0
    | .dark => s.enterDetect port
    | _ => s
  else s)

/-- DETECT_RETRY_TIMER (R313): the random wait after a failed attempt is over; the bootstrap pattern goes out again. -/
def execDetectRetryTimer (port : FPort) (s : State) : Out :=
  .next (if s.live && decide ((s.fab port).state = .detect) && (s.fab port).backoff then
    s.onFab port (fun q => { q.sendPattern 0xF with backoff := false })
  else s)

/-- DETECT_TIMEOUT (R313, R307): 30 s without HELLO, the port goes DARK; what was still in progress on it ends. -/
def execDetectTimeout (port : FPort) (s : State) : Out :=
  .next (if s.live && (decide ((s.fab port).state = .detect) || decide ((s.fab port).state = .boot)
      || decide ((s.fab port).state = .train)) then
    let waited := (s.fabTime port - (s.fab port).detectAt) / 100
    let s := s.onFab port (fun q => { q with state := .dark, backoff := false, mode := none, lanesUsed := 0 })
    (s.portLost port).log (fabSource port) 5 (f4 waited)
  else s)

/-- DARK_BEACON_TIMER (R313): the bootstrap pattern on lane 0 for 1 ms. -/
def execDarkBeaconTimer (port : FPort) (s : State) : Out :=
  .next (if s.live && decide ((s.fab port).state = .dark) then
    s.onFab port (fun q => q.sendPattern 1)
  else s)

/-- BOOT_LANE_TIMEOUT (R314): the next good lane is tried. -/
def execBootLaneTimeout (port : FPort) (s : State) : Out :=
  .next (if s.live && decide ((s.fab port).state = .boot) then s.bootFrom port ((s.fab port).bootLane + 1) else s)

/-- A cell as a received link-maintenance cell of a version that is not 1. -/
def versionCell (t : BitVec 5) (bytes : Nat) : Cell := mkCell t 0 0 true true false (List.replicate bytes 0)

/-- PARAM (R313, R314): in BOOT both sides choose the same mode; another version is a violation. -/
def execParam (port : FPort) (lanes : BitVec 4) (rate : Fin 3) (version : BitVec 8) (s : State) : Out :=
  .next (if s.live && decide ((s.fab port).state = .boot) then
    if version ≠ 1 then (s.fabViolation port vioVersion (versionCell tyParam 32)).isolateCheck port
    else (s.onFab port (fun q => { q with peerMask := lanes, peerRate := rate })).trainMode port
  else s)

/-! ## Lanes (R315, R316) -/

/-- An error ratio in FP32 is at most 10^-k. -/
def ratioAtMost (bits k : Nat) : Bool :=
  match v32 bits with
  | .fin neg m e => neg || decide (m = 0) || (if e ≥ 0 then false else decide (m * 10 ^ k ≤ 2 ^ (-e).toNat))
  | _ => false

/-- Lanes in use whose ratio passes a limit. -/
def FabPort.badLanes (q : FabPort) (ratios : List Word) (k : Nat) : List Nat :=
  (upTo 4).filter (fun l => bitOf q.lanesUsed.toNat l && !ratioAtMost (ratios.getD l 0).toNat k)

/-- Mark lanes failed and log each (R315). -/
def State.failLanes (s : State) (n : FPort) (ratios : List Word) (bad : List Nat) : State :=
  bad.foldl (fun s l =>
    (s.onFab n (fun q => { q with laneFailed := q.laneFailed ||| BitVec.ofNat 4 (2 ^ l) })).log
      (fabSource n) 3 (f1 l ++ f4 (ratios.getD l 0).toNat)) s

/-- LANE_TEST_COMPLETE (R315): lanes above 10^-5 fail and the port chooses again; else it enters HELLO. -/
def execLaneTestComplete (port : FPort) (ratios : List Word) (s : State) : Out :=
  .next (if s.live && decide ((s.fab port).state = .train) then
    let bad := (s.fab port).badLanes ratios 5
    if bad.isEmpty then
      (s.onFab port (fun q => { q with state := .hello, seenPeer := false })).sendHello port false
    else (s.failLanes port ratios bad).trainMode port
  else s)

/-- LANE_LOCK_LOSS (R313, R316): a port that carries cells retrains; an isolated one, whose peer's signal is gone,
retrains with fresh state (R333). -/
def execLaneLockLoss (port : FPort) (lane : Fin 4) (s : State) : Out :=
  .next (if s.live then
    let q := s.fab port
    if q.carriesCells && bitOf q.lanesUsed.toNat lane.val then s.enterRetrain port retrainLock
    else if q.state = .isolated then (s.onFab port FabPort.fresh).enterRetrain port retrainLock
    else s
  else s)

/-- SER_WINDOW_END (R316): a lane above 10^-4 over 10 ms is marked failed first, and the port retrains. -/
def execSerWindowEnd (port : FPort) (ratios : List Word) (s : State) : Out :=
  .next (if s.live && (s.fab port).carriesCells then
    let bad := (s.fab port).badLanes ratios 4
    if bad.isEmpty then s else (s.failLanes port ratios bad).enterRetrain port retrainSer
  else s)

/-- RETRAIN_LIMIT_EXPIRY (R318): the port has been away too long; what was in progress on it ends. -/
def execRetrainLimitExpiry (port : FPort) (s : State) : Out :=
  .next (if s.live && (s.fab port).away then s.portLost port else s)

/-! ## HELLO (R325-R327) -/

/-- Whether the neighbour's domain is ours and both ranks are assigned. -/
def State.mayUp (s : State) (q : FabPort) : Bool :=
  decide (q.nbrDomain.toNat = s.regN .fabDomain) && decide (q.nbrRank ≠ 0xFFFFFFFF) && decide (s.regN .fabRank ≠ 0xFFFFFFFF)

/-- HELLO_MISMATCH when the domains differ (R326). -/
def State.domainCheck (s : State) (n : FPort) : State :=
  if (s.fab n).nbrDomain.toNat = s.regN .fabDomain then s
  else s.log (fabSource n) 6 (f4 (s.regN .fabDomain) ++ f4 (s.fab n).nbrDomain.toNat)

/-- Record the peer of a HELLO (R326). -/
def FabPort.meet (q : FabPort) (h : Hello) : FabPort :=
  { q with nbrId := h.deviceId, nbrRank := h.rank, nbrPort := h.port, nbrDomain := h.domain, seenPeer := true, known := true }

/-- Leave HELLO for UP or LIMITED (R326): unacknowledged cells are replayed and waiting ones go on. -/
def State.enterUp (s : State) (n : FPort) : State :=
  let up := s.mayUp (s.fab n)
  let s := s.onFab n (fun q => { q with
    state := if up then .up else .limited
    away := false
    resends := if q.replay.isEmpty then q.resends else q.resends + 1 })
  let q := s.fab n
  let mode := match q.mode with
    | some m => m.val
    | none => 0
  let s := s.log (fabSource n) 1 (f1 mode ++ f2 q.lanesUsed.toNat ++ f8 q.nbrId.toNat ++ f4 q.nbrRank.toNat ++ f1 q.nbrPort.toNat)
  let s := if mode = 0 then s else s.log (fabSource n) 2 (f1 mode ++ f2 (15 - q.lanesUsed.toNat))
  (s.domainCheck n).fabPump n

/-- Move between UP and LIMITED without retraining (R327). -/
def State.reconsider (s : State) (n : FPort) : State :=
  if (s.fab n).carriesCells then
    let up := s.mayUp (s.fab n)
    (s.onFab n (fun q => { q with state := if up then .up else .limited })).fabPump n
  else s

/-- HELLO (R318, R325-R327): in HELLO the peer is recorded, a changed identity ends what was in progress, and a
seen bit brings the port up; in UP and LIMITED the neighbour entry is updated. -/
def execHello (port : FPort) (h : Hello) (s : State) : Out :=
  .next (if s.live then
    let q := s.fab port
    if h.version ≠ 1 then
      if q.state = .hello ∨ q.carriesCells then (s.fabViolation port vioVersion (versionCell tyHello 64)).isolateCheck port else s
    else if q.state = .hello then
      let s := if q.known && decide (q.nbrId ≠ h.deviceId) then s.portLost port else s
      let s := s.onFab port (fun q => q.meet h)
      if h.seen then s.enterUp port else s
    else if q.carriesCells then
      let s := (s.onFab port (fun q => q.meet h)).log (fabSource port) 7 (f4 q.nbrRank.toNat ++ f4 h.rank.toNat)
      (s.domainCheck port).reconsider port
    else s
  else s)

/-- HELLO_RESEND_TIMER (R325). -/
def execHelloResendTimer (port : FPort) (s : State) : Out :=
  .next (if s.live && decide ((s.fab port).state = .hello) then s.sendHello port (s.fab port).seenPeer else s)

/-- FAB_RANK or FAB_DOMAIN takes a value: every port in UP or LIMITED sends a fresh HELLO, and is UP or LIMITED as
R326 gives with the new value (R327). -/
def State.newRank (s : State) (domain : Bool) (value : BitVec 32) : State :=
  let s := s.setRegN (if domain then .fabDomain else .fabRank) 0 0 value.toNat
  let limited (s : State) (n : FPort) : State := if (s.fab n).state = .limited then s.domainCheck n else s
  allFPorts.foldl (fun s n => if (s.fab n).carriesCells then limited ((s.sendHello n true).reconsider n) n else s) s

/-- FAB_RANK_WRITE (R327). -/
def execFabRankWrite (r : Requester) (domain : Bool) (value : BitVec 32) (s : State) : Out :=
  .next (if s.live then s.ownWrite r (if domain then .fabDomain else .fabRank) 0 0 (fun s => s.newRank domain value) else s)

/-! ## The link layer's own cells (R322, R323, R333) -/

/-- Cells of the replay buffer that an acknowledgement of `ack` leaves. -/
def ackReplay (l : List Cell) (ack : BitVec 12) : List Cell :=
  match l with
  | [] => []
  | c :: _ => let n := (ack - c.seq).toNat + 1
              if n ≤ l.length then l.drop n else l

/-- LINK_CTRL (R322, R323): credits, the acknowledgement, and on a nak every unacknowledged cell again. -/
def execLinkCtrl (port : FPort) (credits : List (BitVec 16)) (ack : BitVec 12) (nak : Bool) (s : State) : Out :=
  .next (if s.live && (s.fab port).carriesCells then
    let s := s.onFab port (fun q =>
      let left := ackReplay q.replay ack
      { q with
        granted := (upTo 7).map (fun v => match credits[v]? with
          | some c => c.toNat
          | none => q.granted.getD v 0)
        replay := left
        resends := if nak && !left.isEmpty then q.resends + 1 else q.resends })
    s.fabPump port
  else s)

/-- LINK_CTRL_TIMER (R322): at least one LINK_CTRL every 10 µs. -/
def execLinkCtrlTimer (port : FPort) (s : State) : Out :=
  .next (if s.live && (s.fab port).carriesCells then s.sendLinkCtrl port else s)

/-- A cell that R323 drops: a link error; a gap in the sequence asks once for a resend. -/
def State.linkDrop (s : State) (n : FPort) (gap : Bool) : State :=
  let s := s.countUp .fabLinkErrors n.val 1
  if gap && !(s.fab n).gap then
    (s.onFab n (fun q => { q with gap := true, sendNak := true })).sendLinkCtrl n
  else s

/-- Why an accepted cell is a violation (R332). -/
def FabPort.cellFault (q : FabPort) (c : Cell) : Option Nat :=
  if cellVc c.type ≠ some c.vc.toNat ∨ c.vc = 7 then some vioType
  else if !cellLenOk c then some vioLen
  else if (q.rx.filter (fun x => decide (x.vc = c.vc))).length ≥ vcBuffers c.vc.toNat then some vioCredit
  else none

/-- SEQUENCED_CELL_RECEIVED (R313, R316, R319, R321-R323, R332): accepted in sequence and buffered, or dropped as a link
error; too many uncorrectable codewords within 1 ms retrain the port. A port in LIMITED carries VC4 alone: a cell of
another channel is not acted on, and its buffer is given back (DESIGN CHOICE, log 116). `crc` is the word of the header
that follows the bytes it checks. -/
def execSequencedCellReceived (port : FPort) (c : Cell) (crc : BitVec 32) (fecOk : Bool) (s : State) : Out :=
  .next (if s.live && (s.fab port).carriesCells then
    let q := s.fab port
    if !fecOk then
      let now := s.fabTime port
      let s := (s.linkDrop port true).onFab port (fun q => { q with uncorr := lastMilli now q.uncorr ++ [now] })
      if (s.fab port).uncorr.length > s.regN .fabUncorrLimit then s.enterRetrain port retrainUncorr else s
    else if field (cellHeader c) 12 4 ≠ crc.toNat then s.linkDrop port true
    else if c.seq ≠ q.expectSeq then s.linkDrop port (decide ((c.seq - q.expectSeq).toNat < 2048))
    else
      let s := s.onFab port (fun q => { q with expectSeq := q.expectSeq + 1, gap := false })
      match q.cellFault c with
      | some f =>
        let s := s.onFab port (fun q => { q with
          returned := q.returned.set c.vc.toNat ((q.returned.getD c.vc.toNat 0 + 1) % 65536) })
        (((s.sendLinkCtrl port).answerFault port c).fabViolation port f c).isolateCheck port
      | none =>
        if q.state = .limited ∧ c.vc ≠ 4 then
          (s.onFab port (fun q => { q with
            returned := q.returned.set c.vc.toNat ((q.returned.getD c.vc.toNat 0 + 1) % 65536) })).sendLinkCtrl port
        else (s.onFab port (fun q => { q with rx := q.rx ++ [c] })).sendLinkCtrl port
  else s)

/-- REPLAY_TIMER (R323): 20 µs without progress resends every unacknowledged cell. -/
def execReplayTimer (port : FPort) (s : State) : Out :=
  .next (if s.live && (s.fab port).carriesCells && !(s.fab port).replay.isEmpty then
    s.onFab port (fun q => { q with resends := q.resends + 1 })
  else s)

/-- ISOLATE_NOTICE (R333). -/
def execIsolateNotice (port : FPort) (cause : BitVec 8) (s : State) : Out :=
  .next (if s.live && (decide ((s.fab port).state = .hello) || (s.fab port).carriesCells) then
    s.log (fabSource port) 10 (f1 cause.toNat)
  else s)

/-- ISOLATE_NOTICE_TIMER (R313): an isolated port tells its peer every millisecond (the cause by Config.code 2,
log 41). -/
def execIsolateNoticeTimer (port : FPort) (s : State) : Out :=
  .next (if s.live && decide ((s.fab port).state = .isolated) then
    s.fabLink port tyIsolate (padPayload 32 (leBytes 1 (Config.code 2 0)))
  else s)

/-! ## Host requests (R315, R316, R333, R334, R506) -/

/-- A host request for retraining. -/
def State.hostRetrain (s : State) (n : FPort) : State :=
  let q := s.fab n
  if q.state = .isolated then (s.onFab n FabPort.fresh).enterRetrain n retrainHost
  else if q.carriesCells then s.enterRetrain n retrainHost
  else s

/-- A write to FAB_PORT_CTRLn: relane re-admits failed lanes and retrains, wake moves a DARK port to DETECT. -/
def State.portCtrl (s : State) (n : FPort) (value : Nat) : State :=
  let s := if bitOf value 2 && decide ((s.fab n).state = .dark) then s.enterDetect n else s
  let s := if bitOf value 1 then s.onFab n (fun q => { q with laneFailed := 0 }) else s
  if bitOf value 0 || bitOf value 1 then s.hostRetrain n else s

/-- FAB_PORT_RETRAIN (R316, R333). -/
def execFabPortRetrain (r : Requester) (port : FPort) (s : State) : Out :=
  .next (if s.live then s.ownWrite r .fabPortCtrl port.val 0 (fun s => s.portCtrl port 1) else s)

/-- FAB_PORT_RELANE (R315, R506). -/
def execFabPortRelane (r : Requester) (port : FPort) (s : State) : Out :=
  .next (if s.live then s.ownWrite r .fabPortCtrl port.val 0 (fun s => s.portCtrl port 2) else s)

/-- FAB_PORT_WAKE (R313, R506). -/
def execFabPortWake (r : Requester) (port : FPort) (s : State) : Out :=
  .next (if s.live then s.ownWrite r .fabPortCtrl port.val 0 (fun s => s.portCtrl port 4) else s)

/-- MGMT (R320): the cell goes to I/O-die firmware, whose handling the spec does not give. -/
def execMgmt (port : FPort) (s : State) : Out :=
  .next (if s.live then
    match s.headCell port tyMgmt with
    | some _ => s.consume port 4
    | none => s
  else s)

end Sys2Proof.Machine
end

