-- ==== Sys2Proof/Machine/RclLost.lean ====
section
/-! DEFINITION. Ratil Coherent Link ports: answers, violations, coherent regions, snoops that end, and what a port
that leaves ACTIVE for good loses (R376-R383, R386-R389). -/

namespace Sys2Proof.Machine

/-! ## Answers and violations (R370, R386, R387) -/

/-- A response to a request. -/
def rclReply (op : BitVec 8) (m : RclMsg) (status : BitVec 8) (data : List Byte) (poison : Bool) : RclMsg :=
  { rclHeader op m.tag 0 with status := status, data := data, poison := poison }

/-- The answer of a request that is not performed: DATA of zeros for a read, else ERR (R372, R387). -/
def rclRefusal (m : RclMsg) (status : BitVec 8) : RclMsg :=
  if m.opcode = opRdUnc ∨ m.opcode = opRdShared ∨ m.opcode = opRdOwn then rclReply opData m status (List.replicate 64 0) false
  else if m.opcode = opMmioRd then rclReply opDataMmio m status (List.replicate 16 0) false
  else rclReply opErr m status [] false

/-- The violations of R386 in its order (numbered by Config.code 5, log 41). -/
def rclVioOpcode : Nat := 0
def rclVioLength : Nat := 1
def rclVioCredit : Nat := 2
def rclVioTag : Nat := 3
def rclVioAddr : Nat := 4
def rclVioResponse : Nat := 5
def rclVioRegion : Nat := 6
def rclVioLate : Nat := 7
def rclVioFeature : Nat := 8

/-- The time of a port's I/O die. -/
def State.rclTime (s : State) (k : RPort) : Nat := (s.time (4 + (rclIod k).val)).toNat

/-- A violation is counted, in RCL_VIOL_COUNT and in the last millisecond (R387). -/
def State.countRclViolation (s : State) (k : RPort) : State :=
  let now := s.rclTime k
  (s.countUp .rclViolCount k.val 1).onRcl k (fun q => { q with violations := lastMilli now q.violations ++ [now] })

/-- A violating message: answered, counted and logged, never performed (R387). -/
def State.rclViolation (s : State) (k : RPort) (cause : Nat) (m : RclMsg) (status : BitVec 8) : State :=
  ((s.rclSend k (rclRefusal m status)).countRclViolation k).log (rclSource k) 6 (f1 (Config.code 5 cause) ++ headerUnit m)

/-! ## Regions (R376, R377, R383) -/

/-- Cached accesses of a port at an address are allowed (R378, R383): an enabled region whose request is still set
holds it. -/
def State.cacheable (s : State) (k : RPort) (va : Nat) : Bool :=
  (upTo 8).any (fun n => s.cohEnabled k n && s.cohRequest k n && s.inRegion k n va)

/-- The lines a port's host holds, with the addresses it named them by. -/
def State.portLines (s : State) (k : RPort) : List (Nat × Nat) :=
  ((s.filters.filter (fun e => decide (e.1 % 2 = (rclIod k).val))).map (fun e => e.1 / 2)).filterMap (fun l =>
    if s.holds k l = .invalid then none else some (l, s.heldVa k l))

/-- The lines a port's host holds of a region. -/
def State.regionLines (s : State) (k : RPort) (n : Nat) : List (Nat × Nat) :=
  (s.portLines k).filter (fun x => s.inRegion k n x.2)

/-- Set or clear bit `b` of RCL_COH_CTRL. -/
def State.setCohBit (s : State) (k : RPort) (b : Nat) (on : Bool) : State :=
  let v := s.regN .rclCohCtrl k.val
  s.setRegN .rclCohCtrl k.val 0 (v - b2n (bitOf v b) * 2 ^ b + b2n on * 2 ^ b)

/-- The recalls of a port's regions go on (R383): every line of a region whose request is 0 is recalled by SNP_INV, after
any snoop of it that is unanswered; when the last recall has completed, the enabled flag falls. -/
def State.settleRegions (s : State) (k : RPort) : State :=
  (upTo 8).foldl (fun s n =>
    if s.cohEnabled k n && !s.cohRequest k n then
      if (s.regionLines k n).isEmpty then s.setCohBit k (8 + n) false
      else (s.regionLines k n).foldl (fun s x => s.sendSnoop k x.1 true) s
    else s) s

/-! ## A snooped line is given up -/

/-- The requests that wait for a line take their turns; EVENTs that waited for writes to become visible go out. -/
def State.settleLine (s : State) (line : Nat) : State :=
  if s.heldWrites.any (fun h => decide (h.line = some line)) then (s.drainLine line s.heldWrites.length).flushAll else s

/-- A port's entry for a line is removed without its data: an Owned line is poisoned at its home (R382, R389). -/
def State.loseLine (s : State) (k : RPort) (line : Nat) : State :=
  let s := if s.holds k line = .owned then s.storeHbm (line * 64) [] true else s
  s.setHolds k line .invalid 0

/-! ## A port that has lost its peer (R389) -/

/-- The port's sequence numbers, credits, buffers and tags begin anew; the sources whose EVENT was lost owe one. -/
def RclPort.fresh (q : RclPort) : RclPort :=
  let lost := (q.waiting.map RclOut.msg ++ q.replay.map Prod.snd).filterMap (fun m => if m.opcode = opEvent then some (m.addr.toNat) else none)
  { q with
    reqs := []
    rsps := []
    rxUnits := []
    waiting := []
    replay := []
    nextSeq := 0
    expectSeq := 0
    sendNak := false
    avail := [8192, 8192, 1024, 256]
    seen := [0, 0, 0, 0]
    freed := [0, 0]
    hostTags := []
    reads := []
    away := false
    owed := q.owed ++ lost.filter (fun x => !q.owed.contains x) }

/-- A device read completes with a poisoned line (R389). -/
def State.poisonRead (s : State) (k : RPort) (r : HostRead) : State :=
  match r.landing with
  | .buffer => s.onRcl k (fun q => { q with hostBuf := q.hostBuf ++ [⟨r.addr, List.replicate 64 0, true⟩] })
  | .page p page line =>
    match (s.part p).migrations.find? (fun m => m.started && decide (m.page = page)) with
    | none => s
    | some m =>
      (s.storeHbm (m.newFrame * pageSize + line * 64) ((upTo 64).map (fun i => (i, 0))) true).onMigration p page
        (fun m => { m with inFlight := m.inFlight - 1 })

/-- The writes to host memory not acknowledged at flit level, by address. -/
def RclPort.unacked (q : RclPort) : List Nat :=
  (q.replay.map Prod.snd ++ q.waiting.map RclOut.msg).filterMap (fun m =>
    if m.opcode = opWrLine ∨ m.opcode = opWrPartial then some m.addr.toNat else none)

/-- What the port loses when it enters ISOLATED, stays away from ACTIVE too long, or finds another peer (R389). -/
def State.rclLost (s : State) (k : RPort) : State :=
  let q := s.rclPort k
  let lines := s.portLines k
  let owned := lines.filter (fun x => decide (s.holds k x.1 = .owned))
  let s := lines.foldl (fun s x => s.loseLine k x.1) s
  let s := { s with
    snoops := s.snoops.filter (fun n => decide (n.port ≠ k))
    heldWrites := s.heldWrites.filter (fun h => !h.claim.any (fun (c : RPort × BitVec 12 × Bool) => decide (c.1 = k))) }
  let s := s.setRcl k q.fresh
  let s := match owned with
    | [] => s
    | x :: _ => s.log (rclSource k) 10 (f4 owned.length ++ f8 x.2)
  let s := match q.unacked with
    | [] => s
    | a :: _ => (s.writesLost k a q.unacked.length).log (rclSource k) 11 (f4 q.unacked.length ++ f8 a)
  let s := q.reads.foldl (fun s r => s.poisonRead k r) s
  let s := (lines.map Prod.fst ++ s.heldWrites.filterMap (fun h => h.line)).foldl State.settleLine s
  s.settleRegions k

/-- A port that has counted more than RCL_VIOL_LIMIT violations within 1 ms is isolated; a retrain in progress is
abandoned (R387, R389). -/
def State.rclIsolateCheck (s : State) (k : RPort) : State :=
  let q := s.rclPort k
  let v := lastMilli (s.rclTime k) q.violations
  if v.length > s.regN .rclViolLimit ∧ q.state ≠ .isolated then
    let s := s.onRcl k (fun q => { q with state := .isolated, violations := [] })
    ((s.rclLost k).log (rclSource k) 7 (f4 v.length)).raiseAlert 7
  else s

/-! ## Region requests (R376, R377, R383) -/

/-- Why a region is not enabled (R377, numbered by Config.code 6 in its order, log 41). A page that is leaving HBM, its
migration begun, counts as not mapped there (DESIGN CHOICE, log 103). -/
def State.regionRefusal (s : State) (p : Part) (k : RPort) (n : Nat) : Option Nat :=
  let r := s.cohRegion k n
  let others := s.enabledRegions p
  let hbmPage (j : Nat) : Bool := match s.place p (r.1 + j * pageSize) with
    | .hbm _ => !((s.part p).page ((r.1 + j * pageSize) / pageSize)).migrating
    | _ => false
  if !(upTo (r.2 / pageSize)).all hbmPage then some 0
  else if others.any (fun o => decide (r.1 < o.1 + o.2 ∧ o.1 < r.1 + r.2)) then some 1
  else if others.foldl (fun a o => a + o.2) r.2 > 64 * 2 ^ 30 then some 2
  else if !bitOf (s.rclPort k).features.toNat 0 then some 3
  else none

/-- An enable request of 1 after 0: the region is enabled, or COH_REGION_REFUSED says why not. A region whose recall
runs stays as it is (log 69). -/
def State.askRegion (s : State) (p : Part) (k : RPort) (n : Nat) : State :=
  if s.cohRequest k n then s
  else
    let s := s.setCohBit k n true
    if s.cohEnabled k n then s
    else match s.regionRefusal p k n with
      | none => s.setCohBit k (8 + n) true
      | some c => s.log (rclSource k) 9 (f4 n ++ f1 (Config.code 6 c))

/-- A request of 0 after 1: every filter entry of the region is recalled by SNP_INV (R383). -/
def State.dropRegion (s : State) (k : RPort) (n : Nat) : State :=
  if !s.cohRequest k n then s
  else
    let s := s.setCohBit k n false
    s.settleRegions k

/-- A write to RCL_COH_CTRL's request field: each bit that changes asks for its region (R376). -/
def State.cohCtrl (s : State) (p : Part) (k : RPort) (value : Nat) : State :=
  (upTo 8).foldl (fun s n => if bitOf value n then s.askRegion p k n else s.dropRegion k n) s

/-- COH_REGION_ENABLE (R377). -/
def execCohRegionEnable (p : Part) (port : RPort) (region : Fin 8) (s : State) : Out :=
  .next (if s.live then
    s.ownWrite (partReq p) .rclCohCtrl port.val 0 (fun s => s.askRegion p port region.val)
  else s)

/-- COH_REGION_DISABLE (R383). -/
def execCohRegionDisable (p : Part) (port : RPort) (region : Fin 8) (s : State) : Out :=
  .next (if s.live then
    s.ownWrite (partReq p) .rclCohCtrl port.val 0 (fun s => s.dropRegion port region.val)
  else s)

/-! ## Snoop answers (R380-R382) -/

/-- A snoop of a port is answered: data of a line that the port still owns become its value; the host keeps Shared after
SNP_DATA; the entry is removed after SNP_INV. A line that the host has given up by WB meanwhile stays given up (R381). -/
def State.endSnoop (s : State) (k : RPort) (n : Snoop) (data : Option (List Byte × Bool)) : State :=
  let s := { s with snoops := s.snoops.filter (fun x => decide (x ≠ n)) }
  let s := s.sendWaiting k
  let s := match data with
    | some (bs, poison) =>
      if s.holds k n.line = CacheState.owned then s.storeHbm (n.line * 64) (bs.zipIdx.map (fun (x : Byte × Nat) => (x.2, x.1))) poison else s
    | none => s
  let s := if n.inv then s.setHolds k n.line .invalid 0
    else if s.holds k n.line = .invalid then s else s.setHolds k n.line .shared n.va
  (s.settleLine n.line).settleRegions k

/-- SNOOP_TIMEOUT (R382): the oldest unanswered snoop of the port is a violation; the entry is removed, an Owned line
poisoned, and what waited proceeds. -/
def execSnoopTimeout (port : RPort) (s : State) : Out :=
  .next (if s.live then
    match s.snoops.find? (fun n => n.sent && decide (n.port = port)) with
    | none => s
    | some n =>
      let held := match s.holds port n.line with
        | .invalid => 0
        | .shared => 1
        | .owned => 2
      let s := (s.countRclViolation port).log (rclSource port) 8 (f8 n.va ++ f1 held)
      let s := (s.loseLine port n.line)
      let s := ({ s with snoops := s.snoops.filter (fun x => decide (x ≠ n)) } : State).sendWaiting port
      ((s.settleLine n.line).settleRegions port).rclIsolateCheck port
  else s)

end Sys2Proof.Machine
end

