-- ==== Sys2Proof/Machine/RclPorts.lean ====
section
/-! DEFINITION. The states of a Ratil Coherent Link port (R361-R365, R388, R389), its flits (R366-R368), and what
makes a received message a violation (R386). -/

namespace Sys2Proof.Machine

/-! ## Modes (R361, R364, Table 13.1) -/

/-- The modes in order of preference: lanes, and the lane rate's code (0 for 32, 1 for 56, 2 for 112 Gb/s). -/
def rclModes : List (Nat × Nat) := [(16, 2), (16, 1), (8, 2), (16, 0), (8, 1), (4, 2), (8, 0), (4, 1), (4, 0)]

/-- The first lane set of a mode whose lanes are all good, as a mask. -/
def rclLaneSet (lanes good : Nat) : Option Nat :=
  let sets := if lanes = 16 then [0xFFFF] else if lanes = 8 then [0xFF, 0xFF00] else [0xF, 0xF0, 0xF00, 0xF000]
  sets.find? (fun m => decide (m &&& good = m))

/-- The first mode both sides support, with its lanes (R364). -/
def chooseRclMode (good rate : Nat) : Option (Fin 9 × BitVec 16) :=
  (List.finRange 9).findSome? (fun m =>
    match rclModes[m.val]? with
    | some (n, r) => if r ≤ rate then (rclLaneSet n good).map (fun k => (m, BitVec.ofNat 16 k)) else none
    | none => none)

/-- The features of this device (R364): all four. -/
def ownFeatures : BitVec 4 := 0xF

/-- The training pattern on lanes 0-15, the DARK beacon on lane 0. -/
def sentPattern : RclControl := .pattern 0xFFFF
def sentBeacon : RclControl := .pattern 1

/-- The highest lane rate of this device, 112 Gb/s, and its link version (Table 13.1, R364). -/
def ownRate : Fin 3 := 2
def ownRclVersion : BitVec 8 := 1

/-- Record a transmission. -/
def RclPort.transmit (q : RclPort) (x : RclControl) : RclPort := { q with control := q.control ++ [x] }

/-! ## Entering states (Table 13.2) -/

/-- Enter DETECT: the training pattern goes out. -/
def State.enterRclDetect (s : State) (k : RPort) : State :=
  let now := s.rclTime k
  s.onRcl k (fun q => { q.transmit sentPattern with state := .detect, backoff := false, detectAt := now, mode := none, lanesUsed := 0 })

/-- An attempt has failed: the port waits in DETECT before it tries again; its 30 s run on. -/
def State.rclAttemptFailed (s : State) (k : RPort) : State :=
  let now := s.rclTime k
  s.onRcl k (fun q => { q with
    state := .detect
    backoff := true
    detectAt := if q.away then now else q.detectAt
    mode := none
    lanesUsed := 0 })

/-- The parameter flit of this side (R364): the lanes it finds good, its highest rate, link version 1, its identifier (that
of the device, DEDUCED, log 104) and its features. -/
def State.ownParams (s : State) (k : RPort) : RclControl :=
  .params (~~~ (s.rclPort k).laneFailed) ownRate ownRclVersion deviceId ownFeatures

/-- Enter PARAM: lanes 0-3 train and the parameter flit goes out. -/
def State.enterParam (s : State) (k : RPort) : State :=
  let params := s.ownParams k
  s.onRcl k (fun q => { q.transmit params with state := .param, mode := none, lanesUsed := 0 })

/-- Enter TRAIN with the best mode of the lanes good on both sides, or give the attempt up. -/
def State.rclTrain (s : State) (k : RPort) : State :=
  let q := s.rclPort k
  match chooseRclMode (~~~ q.laneFailed &&& q.peerMask).toNat q.peerRate.val with
  | some (m, lanes) => s.onRcl k (fun q => { q with state := .train, mode := some m, lanesUsed := lanes })
  | none => s.rclAttemptFailed k

/-- Causes of a retrain (numbered by Config.code 7, log 41): dropped flits, loss of signal, the host. -/
def rclRetrainCrc : Nat := 0
def rclRetrainLoss : Nat := 1
def rclRetrainHost : Nat := 2

/-- Enter RETRAIN, holding unacknowledged flits and messages (R363). -/
def State.enterRclRetrain (s : State) (k : RPort) (cause : Nat) : State :=
  let held := (s.rclPort k).replay.length
  let s := s.onRcl k (fun q => { q with state := .retrain, away := true, drops := [] })
  s.log (rclSource k) 4 (f1 (Config.code 7 cause) ++ f4 held)

/-- Enter ACTIVE (R365, R388, R389): unacknowledged flits are replayed, waiting messages go on, owed EVENTs are
sent. -/
def State.enterActive (s : State) (k : RPort) : State :=
  let s := s.onRcl k (fun q =>
    let q := { q with state := .active, away := false }
    (if q.replay.isEmpty then q else q.resend).idle)
  let q := s.rclPort k
  let mode := match q.mode with
    | some m => m.val
    | none => 0
  let s := s.log (rclSource k) 1 (f1 mode ++ f2 q.lanesUsed.toNat ++ f4 q.features.toNat ++ f8 q.peer.toNat)
  let s := if mode = 0 then s else s.log (rclSource k) 2 (f1 mode ++ f2 (0xFFFF - q.lanesUsed.toNat))
  (s.rclPump k).flushEvents k

/-! ## Detection and parameters -/

/-- RCL_PEER_SIGNAL_DETECTED (R363): DETECT and RETRAIN go on to PARAM, DARK to DETECT. -/
def execRclPeerSignalDetected (port : RPort) (s : State) : Out :=
  .next (if s.live then
    let q := s.rclPort port
    match q.state with
    | .detect => if q.backoff then s else s.enterParam port
    | .retrain => s.enterParam port
    | .dark => s.enterRclDetect port
    | _ => s
  else s)

/-- RCL_DETECT_RETRY_TIMER (R363): the random wait after a failed attempt is over; the training pattern goes out again. -/
def execRclDetectRetryTimer (port : RPort) (s : State) : Out :=
  .next (if s.live && decide ((s.rclPort port).state = .detect) && (s.rclPort port).backoff then
    s.onRcl port (fun q => { q.transmit sentPattern with backoff := false })
  else s)

/-- RCL_DETECT_TIMEOUT (R363, R389): 30 s without ACTIVE, the port goes DARK. -/
def execRclDetectTimeout (port : RPort) (s : State) : Out :=
  .next (if s.live && (decide ((s.rclPort port).state = .detect) || decide ((s.rclPort port).state = .param)
      || decide ((s.rclPort port).state = .train)) then
    let waited := (s.rclTime port - (s.rclPort port).detectAt) / 100
    let s := s.onRcl port (fun q => { q with state := .dark, backoff := false, mode := none, lanesUsed := 0 })
    (s.rclLost port).log (rclSource port) 5 (f4 waited)
  else s)

/-- RCL_DARK_BEACON_TIMER (R363): the pattern on lane 0 for 1 ms. -/
def execRclDarkBeaconTimer (port : RPort) (s : State) : Out :=
  .next (if s.live && decide ((s.rclPort port).state = .dark) then s.onRcl port (fun q => q.transmit sentBeacon) else s)

/-- RCL_PARAM_TIMEOUT (R363): 5 ms in PARAM without a parameter flit is a failed attempt. -/
def execRclParamTimeout (port : RPort) (s : State) : Out :=
  .next (if s.live && decide ((s.rclPort port).state = .param) then s.rclAttemptFailed port else s)

/-- RCL_PEER_SIGNAL_LOSS (R363): an ISOLATED port, and an ACTIVE one (log 70), retrains. -/
def execRclPeerSignalLoss (port : RPort) (s : State) : Out :=
  .next (if s.live && (decide ((s.rclPort port).state = .isolated) || decide ((s.rclPort port).state = .active)) then
    s.enterRclRetrain port rclRetrainLoss
  else s)

/-- RCL_PARAM_FLIT (R364, R389): the peer's parameters are taken, a different peer ends what was in progress, and the
mode and the feature set are chosen. -/
def execRclParamFlit (port : RPort) (lanes : BitVec 16) (rate : Fin 3) (_version : BitVec 8) (peer : DWord)
    (features : BitVec 4) (s : State) : Out :=
  .next (if s.live && decide ((s.rclPort port).state = .param) then
    let q := s.rclPort port
    let s := if q.known && decide (q.peer ≠ peer) then s.rclLost port else s
    let s := s.onRcl port (fun q => { q with
      peerMask := lanes, peerRate := rate, peer := peer, known := true, features := features &&& ownFeatures })
    s.rclTrain port
  else s)

/-! ## Lanes (R365) -/

/-- RCL_LANE_TEST_COMPLETE (R365, R388): lanes in use above 10^-6 fail and the port chooses again; else it is
ACTIVE. -/
def execRclLaneTestComplete (port : RPort) (ratios : List Word) (s : State) : Out :=
  .next (if s.live && decide ((s.rclPort port).state = .train) then
    let bad := (upTo 16).filter (fun l => bitOf (s.rclPort port).lanesUsed.toNat l && !ratioAtMost (ratios.getD l 0).toNat 6)
    if bad.isEmpty then s.enterActive port
    else
      (bad.foldl (fun s l =>
        (s.onRcl port (fun q => { q with laneFailed := q.laneFailed ||| BitVec.ofNat 16 (2 ^ l) })).log
          (rclSource port) 3 (f1 l ++ f4 (ratios.getD l 0).toNat)) s).rclTrain port
  else s)

/-! ## Flits (R366, R367) -/

/-- The unacknowledged flits that an acknowledgement leaves. -/
def ackFlits (l : List (BitVec 12 × RclMsg)) (ack : BitVec 12) : List (BitVec 12 × RclMsg) :=
  match l with
  | [] => []
  | c :: _ => let n := (ack - c.1).toNat + 1
              if n ≤ l.length then l.drop n else l

/-- Credits of a class after a cumulative count. -/
def takeCredits (avail seen now : Nat) : Nat := avail + (now + 65536 - seen) % 65536

/-- A flit header's acknowledgement and credits; on a nak every unacknowledged flit goes again. -/
def RclPort.header (q : RclPort) (h : FlitHeader) : RclPort :=
  let now := [h.credReq, h.credRsp, h.credSnp, h.credEvt].map BitVec.toNat
  let left := ackFlits q.replay h.ackSeq
  let q := { q with
    replay := left
    avail := (upTo 4).map (fun c => takeCredits (q.avail.getD c 0) (q.seen.getD c 0) (now.getD c 0))
    seen := now }
  if h.nak && !left.isEmpty then q.resend else q

/-- A flit that is dropped is a link error, and a nak asks for it again; too many within 1 ms retrain the port (R367). -/
def State.dropFlit (s : State) (k : RPort) : State :=
  let now := s.rclTime k
  let s := (s.countUp .rclLinkErrors k.val 1).onRcl k (fun q => RclPort.idle { q with sendNak := true, drops := lastMilli now q.drops ++ [now] })
  if (s.rclPort k).drops.length > s.regN .rclCrcLimit then s.enterRclRetrain k rclRetrainCrc else s

/-! ## Received messages (R386) -/

/-- Requests that are answered (Table 13.7). -/
def nonPosted (op : BitVec 8) : Bool :=
  op = opRdUnc || op = opRdShared || op = opRdOwn || op = opWb || op = opMmioRd

/-- Opcodes a host may send (Table 13.7). -/
def hostSends (op : BitVec 8) : Bool :=
  (decide (0x01 ≤ op.toNat) && decide (op.toNat ≤ 0x0A)) || op = opCmp || op = opData || op = opSnpRsp || op = opSnpRspData

/-- Requests for a line. -/
def lineRequest (op : BitVec 8) : Bool := decide (0x01 ≤ op.toNat) && decide (op.toNat ≤ 0x07)

/-- An address lies in the sync-object range, in the MMIO range. -/
def inSync (va : Nat) : Bool := decide (0x210000000000 ≤ va ∧ va < 0x210000200000)
def inMmio (va : Nat) : Bool := decide (0x220000000000 ≤ va ∧ va < 0x220004000000)

/-- The address of a request has nonzero upper bits under R371, or is not aligned to its access. An MMIO_WR of 64 bits to one
half of a 64-bit field of either register range is no such violation: it follows R8 (R372). -/
def rclAddrBad (m : RclMsg) : Bool :=
  let va := m.addr.toNat
  if lineRequest m.opcode then decide (va % 64 ≠ 0) || decide (va ≥ 2 ^ 48)
  else if m.opcode = opMmioRd ∨ m.opcode = opMmioWr then
    let half := m.opcode = opMmioWr && (inSync va || inMmio va)
    decide (va % (if m.sub.getLsbD 0 && !half then 8 else 4) ≠ 0) || decide (va ≥ 2 ^ 48)
  else m.opcode = opDoorbell && decide (va ≥ 2 ^ 48)

/-- Units of a class that wait in the receive buffer. -/
def unitsHeld (l : List RclMsg) : Nat := l.foldl (fun a m => a + (rclUnits m.opcode).getD 0) 0

/-- Why a received message is a violation, as far as it shows on receipt (R386). -/
def RclPort.msgFault (q : RclPort) (m : RclMsg) : Option Nat :=
  match (if hostSends m.opcode then rclUnits m.opcode else none) with
  | none => some rclVioOpcode
  | some u =>
    let buf := if rclClass m.opcode = 0 then q.reqs else q.rsps
    if m.data.length ≠ (u - 1) * 16 then some rclVioLength
    else if unitsHeld buf + u > 8192 then some rclVioCredit
    else if nonPosted m.opcode && q.hostTags.contains m.tag then some rclVioTag
    else if rclAddrBad m then some rclVioAddr
    else if (m.opcode = opWrPartial && !q.features.getLsbD 2) || (m.opcode = opEvictClean && !q.features.getLsbD 0) then
      some rclVioFeature
    else none

/-- Units of a class return to the peer as credits. -/
def RclPort.free (q : RclPort) (m : RclMsg) : RclPort :=
  let c := rclClass m.opcode
  RclPort.idle { q with freed := q.freed.set c ((q.freed.getD c 0 + (rclUnits m.opcode).getD 0) % 65536) }

/-- A message of an accepted flit: buffered for its turn, or a violation. -/
def State.receiveMsg (s : State) (k : RPort) (m : RclMsg) : State :=
  match (s.rclPort k).msgFault m with
  | some f => ((s.onRcl k (fun q => q.free m)).rclViolation k f m stMalformed).rclIsolateCheck k
  | none => s.onRcl k (fun q =>
      if rclClass m.opcode = 0 then
        { q with reqs := q.reqs ++ [m], hostTags := if nonPosted m.opcode then q.hostTags ++ [m.tag] else q.hostTags }
      else { q with rsps := q.rsps ++ [m] })

/-- The opcode of a unit that heads a message. -/
def unitOpcode (u : List Byte) : BitVec 8 := u.headD 0

/-- The next unit of a payload flit (R368, R370): `none` is padding. Units gather until the message of their header is whole,
and `marks` gives the poison of the messages so far to come. Padding within a message breaks its length (DEDUCED, log 105):
it ends the message as it is. -/
def State.takeUnit (s : State) (k : RPort) (marks : List Bool) (u : Option (List Byte)) : State × List Bool :=
  let have' := (s.rclPort k).rxUnits
  let units := have' ++ u.toList
  if units.isEmpty then (s, marks)
  else if units.length ≥ (rclUnits (unitOpcode (units.headD []))).getD 1 ∨ u.isNone then
    let s := s.onRcl k (fun q => { q with rxUnits := [] })
    if (s.rclPort k).state = .isolated then (s, marks)
    else (s.receiveMsg k { unitsMsg units with poison := marks.headD false }, marks.tail)
  else (s.onRcl k (fun q => { q with rxUnits := units }), marks)

/-- The units of an accepted payload flit, in order; those after the last valid one are padding that ends nothing. -/
def State.takeUnits (s : State) (k : RPort) (flit : List Byte) (marks : List Bool) : State :=
  let us := (upTo 14).map (flitUnit flit)
  let n := 14 - (us.reverse.takeWhile Option.isNone).length
  ((us.take n).foldl (fun (x : State × List Bool) u => x.1.takeUnit k x.2 u) (s, marks)).1

/-- RCL_FLIT_RECEIVED (R366-R368, R386, R387): an ISOLATED port discards it; the FEC corrects it; a payload flit is accepted in
sequence or dropped, and so is one whose CRC fails; every accepted flit acknowledges and returns credits, and a payload flit
is acknowledged. -/
def execRclFlitReceived (port : RPort) (head body : List Byte) (marks : List Bool) (s : State) : Out :=
  .next (if s.live && decide ((s.rclPort port).state = .active) then
    let bs := fecCorrect (head ++ body)
    let h := flitHead bs
    if !flitCrcOk bs then s.dropFlit port
    else if h.kind = 1 then
      if h.seq ≠ (s.rclPort port).expectSeq then s.dropFlit port
      else
        let s := s.onRcl port (fun q => { q.header h with expectSeq := q.expectSeq + 1, sendNak := false })
        let s := s.takeUnits port bs marks
        (s.onRcl port RclPort.idle).rclPump port
    else if h.kind = 0 ∨ h.kind = 2 then (s.onRcl port (fun q => q.header h)).rclPump port
    else s
  else s)

/-- RCL_REPLAY_TIMER (R367): 2 µs without progress resends every unacknowledged flit. -/
def execRclReplayTimer (port : RPort) (s : State) : Out :=
  .next (if s.live && decide ((s.rclPort port).state = .active) && !(s.rclPort port).replay.isEmpty then
    s.onRcl port RclPort.resend
  else s)

/-- RCL_RETRAIN_LIMIT_EXPIRY (R389): the port has been away from ACTIVE too long. -/
def execRclRetrainLimitExpiry (port : RPort) (s : State) : Out :=
  .next (if s.live && (s.rclPort port).away then s.rclLost port else s)

/-- RCL_ISOLATE_TIMER (R363): an ISOLATE control flit every millisecond. -/
def execRclIsolateTimer (port : RPort) (s : State) : Out :=
  .next (if s.live && decide ((s.rclPort port).state = .isolated) then s.onRcl port (fun q => q.transmit .isolate) else s)

/-! ## Host requests (R363, R365, R508) -/

/-- A host request for retraining. -/
def State.rclHostRetrain (s : State) (k : RPort) : State :=
  if (s.rclPort k).state = .isolated ∨ (s.rclPort k).state = .active then s.enterRclRetrain k rclRetrainHost else s

/-- A write to RCL_PORT_CTRLk. -/
def State.rclCtrl (s : State) (k : RPort) (value : Nat) : State :=
  let s := if bitOf value 2 && decide ((s.rclPort k).state = .dark) then s.enterRclDetect k else s
  let s := if bitOf value 1 then s.onRcl k (fun q => { q with laneFailed := 0 }) else s
  if bitOf value 0 || bitOf value 1 then s.rclHostRetrain k else s

/-- RCL_PORT_RETRAIN (R508). -/
def execRclPortRetrain (r : Requester) (port : RPort) (s : State) : Out :=
  .next (if s.live then s.ownWrite r .rclPortCtrl port.val 0 (fun s => s.rclCtrl port 1) else s)

/-- RCL_PORT_RELANE (R365). -/
def execRclPortRelane (r : Requester) (port : RPort) (s : State) : Out :=
  .next (if s.live then s.ownWrite r .rclPortCtrl port.val 0 (fun s => s.rclCtrl port 2) else s)

/-- RCL_PORT_WAKE (R363). -/
def execRclPortWake (r : Requester) (port : RPort) (s : State) : Out :=
  .next (if s.live then s.ownWrite r .rclPortCtrl port.val 0 (fun s => s.rclCtrl port 4) else s)

/-- EVENT_HOLDOFF_EXPIRY (R385): a source's holdoff interval ends; an EVENT owed for it goes out. -/
def execEventHoldoffExpiry (source : BitVec 16) (s : State) : Out :=
  .next (if s.live then
    allRPorts.foldl (fun s k =>
      if (s.rclPort k).holdoff.contains source.toNat then
        (s.onRcl k (fun q => { q with holdoff := q.holdoff.filter (fun x => decide (x ≠ source.toNat)) })).flushEvents k
      else s) s
  else s)

end Sys2Proof.Machine
end

