-- ==== Sys2Proof/Machine/Power.lean ====
section
/-! DEFINITION. Power, reset and reference clocks (R416, R442-R445, R517-R525). -/

namespace Sys2Proof.Machine

/-! ## Reset (R445) -/

/-- What a device reset leaves: every die in its reset state and memory unwritten (log 3). The flash, the fuses and
the queue of commands stay; `sticky` keeps the sticky fields of SEC_BOOT_STATUS. -/
def State.deviceReset (s : State) (power : Power) (sticky : Bool) : State :=
  let b := s.boot
  { State.reset with
    pending := s.pending
    power := power
    boot := { Boot.off with
      flash := b.flash
      revoke := b.revoke
      svnFuses := b.svnFuses
      causeA := if sticky then b.causeA else 0
      causeB := if sticky then b.causeB else 0
      recoveryForced := sticky && b.recoveryForced }
    mgt := { Mgt.off with interrupts := s.mgt.interrupts, i3c := s.mgt.i3c, status := s.mgt.status, response := s.mgt.response }
    jtag := s.jtag
    uart := s.uart
    freeCount := s.freeCount }

/-- Every fabric and RCL port enters DETECT and sends its training pattern (R313, R363). -/
def State.portsDetect (s : State) : State := allRPorts.foldl State.enterRclDetect (allFPorts.foldl State.enterDetect s)

/-- A warm reset of a powered device: every port returns to DETECT, and the ROM starts again, at the rise of RESET_n if
it is low. -/
def State.warmReset (s : State) : State :=
  let s := State.portsDetect <| s.deviceReset { s.power with samples := [], quietCaps := 0, unreachable := false, railOverLogged := [], before := s.power.before + (s.time 4).toNat } true
  if s.power.resetLow then s else { s with boot := { s.boot with stage := .romReady } }

/-- RESET_N_LOW (R445): RESET_n has been low for 10 µs. -/
def execResetNLow (s : State) : Out :=
  .next (
    let s := { s with power := { s.power with resetLow := true } }
    if s.power.pwrGood then s.warmReset else s)

/-- The external-test instructions execute as BYPASS once RESET_n is high (R490). -/
def JtagInstr.high : JtagInstr → JtagInstr
  | .extest | .extestPulse | .extestTrain => .bypass
  | i => i

/-- RESET_N_RISE (R445, R490, R525): the ROM starts at the later of PWR_GOOD and this rise. -/
def execResetNRise (s : State) : Out :=
  .next (
    let s := { s with power := { s.power with resetLow := false }, jtag := s.jtag.high }
    if s.power.pwrGood ∧ s.boot.stage = .off then { s with boot := { s.boot with stage := .romReady } } else s)

/-! ## Power off (R443, R444) -/

/-- The state of the supplies with everything off but, when kept, VAUX. -/
def Power.down (q : Power) (vaux : Bool) : Power :=
  { Power.off with
    pwrEn := q.pwrEn
    resetLow := q.resetLow
    brdRefclk := q.brdRefclk
    fabRefclk := q.fabRefclk
    failed := q.pwrEn
    vaux := vaux
    railsUp := b2n vaux
    trip := vaux && q.trip }

/-- Every rail goes off, VAUX only if `vaux` says so; no state survives. The management port reports the failing
rail. -/
def State.powerOff (s : State) (vaux : Bool) (rail : Nat) : State :=
  let s := s.deviceReset (s.power.down vaux) false
  { s with mgt := { s.mgt with failingRail := rail } }

/-- A rail fault: VAUX and the management port stay unless VAUX itself failed, and the alert tells of it (R443,
R487). -/
def State.railFault (s : State) (rail : Nat) : State :=
  let keep := decide (rail ≠ 26) && s.power.vaux
  let s := s.powerOff keep rail
  if keep then s.raiseAlert 5 else s

/-! ## Power up (R442, R443) -/

/-- The rails of Table 16.1 in order, each as its first instance and the number of its instances (Table 15.1). -/
def railOrder : List (Nat × Nat) :=
  [(26, 1), (20, 2), (22, 2), (8, 4), (4, 4), (0, 4), (12, 4), (16, 4), (24, 1), (25, 1)]

/-- PWR_EN_RISE (R442): the board asserts PWR_EN with its references present (R520); the rails begin to rise. -/
def execPwrEnRise (s : State) : Out :=
  .next (if s.power.pwrEn then s
    else { s with power := { s.power with pwrEn := true, failed := false, brdRefclk := true, fabRefclk := [true, true] } })

/-- RAIL_GOOD (R313, R363, R442): the next rail of the sequence is good; after the last PWR_GOOD is asserted, unless
BRD_REFCLK is absent (R521): the ROM may start and every port is in DETECT. -/
def execRailGood (s : State) : Out :=
  .next (if s.power.pwrEn && !s.power.failed && decide (s.power.railsUp < 10) then
    let n := s.power.railsUp + 1
    let good := decide (n = 10) && s.power.brdRefclk
    let s := { s with power := { s.power with railsUp := n, vaux := true, pwrGood := good } }
    let s := if good then s.portsDetect else s
    if good && !s.power.resetLow then { s with boot := { s.boot with stage := .romReady } } else s
  else s)

/-- The rail that holds a sequence up: an instance of the next rail, which of several is not said (a free value,
log 72); none once all are good (R521). -/
def State.failingNext (s : State) : Nat :=
  match railOrder[s.power.railsUp]? with
  | some (first, n) => first + (if n = 1 then 0 else Config.freeValue s.freeCount % n)
  | none => 0x1F

/-- POWER_UP_TIMEOUT (R443): PWR_GOOD is not asserted 30 ms after PWR_EN. -/
def execPowerUpTimeout (s : State) : Out :=
  .next (if s.power.pwrEn && !s.power.pwrGood && !s.power.failed then s.bumpFree.railFault s.failingNext else s)

/-- REGULATOR_FAULT (R443, R444): the rails go off. -/
def execRegulatorFault (rail : Fin 27) (s : State) : Out :=
  .next (if s.power.pwrEn && !s.power.failed then s.railFault rail.val else s)

/-- RAIL_HARD_LIMIT_TRIP (R416, R444): the regulator switches its rail off and PWR_GOOD falls. -/
def execRailHardLimitTrip (rail : Fin 27) (s : State) : Out :=
  .next (if s.power.pwrGood then s.railFault rail.val else s)

/-- PWR_EN_FALL (R444, R517, R525): every rail goes off. -/
def execPwrEnFall (s : State) : Out :=
  .next (({ s with power := { s.power with pwrEn := false } }).powerOff false 0x1F)

/-- The input leaves its range beyond its ride-through (R444, R515). -/
def inputLost (millivolts microseconds : Nat) : Bool :=
  decide (millivolts > 60000) || (decide (millivolts < 40000) && decide (microseconds > 1000))
    || (decide (millivolts < 36000) && decide (microseconds > 10))

/-- INPUT_OUT_OF_RANGE (R444, R515). -/
def execInputOutOfRange (millivolts : Nat) (microseconds : Nat) (s : State) : Out :=
  .next (if s.power.pwrEn && inputLost millivolts microseconds then s.powerOff false 0x1F else s)

/-! ## Reference clocks (R521) -/

/-- BRD_REFCLK_LOSS (R521): PWR_GOOD falls, or is never asserted. -/
def execBrdRefclkLoss (s : State) : Out :=
  .next (
    let s := { s with power := { s.power with brdRefclk := false } }
    if s.power.pwrGood then s.powerOff false 0x1F else s)

/-- The fabric ports of an I/O die. -/
def iodFabPorts (i : Iod) : List FPort := allFPorts.filter (fun n => decide (fabIod n = i))

/-- A port that trains or carries cells loses block lock (R316); a port that waits in DETECT or DARK has none to lose
(log 72). -/
def State.lockLost (s : State) (n : FPort) : State :=
  match (s.fab n).state with
  | .detect | .dark => s
  | .isolated => (s.onFab n FabPort.fresh).enterRetrain n retrainLock
  | _ => s.enterRetrain n retrainLock

/-- FAB_REFCLK_LOSS (R521). -/
def execFabRefclkLoss (iod : Iod) (s : State) : Out :=
  .next (
    let s := { s with power := { s.power with fabRefclk := s.power.fabRefclk.set iod.val false } }
    if s.live then (iodFabPorts iod).foldl State.lockLost s else s)

/-- FAB_REFCLK_RETURN (R521): the ports in RETRAIN train again. -/
def execFabRefclkReturn (iod : Iod) (s : State) : Out :=
  .next (
    let s := { s with power := { s.power with fabRefclk := s.power.fabRefclk.set iod.val true } }
    if s.live then
      (iodFabPorts iod).foldl (fun s n => if (s.fab n).state = .retrain then s.bootFrom n 0 else s) s
    else s)

/-- RCL_REFCLK_LOSS (R521): every ACTIVE port of the I/O die leaves ACTIVE. -/
def execRclRefclkLoss (iod : Iod) (s : State) : Out :=
  .next (if s.live then
    allRPorts.foldl (fun s k =>
      if rclIod k = iod ∧ (s.rclPort k).state = .active then s.enterRclRetrain k rclRetrainLoss else s) s
  else s)

end Sys2Proof.Machine
end

