-- ==== Sys2Proof/Machine/Boot.lean ====
section
/-! DEFINITION. Start-up and boot (R446-R466, R469): the flash, manifests, the boot flow, recovery, the
configuration, the lock, memory training and ready. -/

namespace Sys2Proof.Machine

/-! ## UART (R489) -/

/-- A number as 16 hexadecimal digits, the highest first. -/
def hex16 (n : Nat) : List Byte :=
  (upTo 16).map (fun i => let d := n / 16 ^ (15 - i) % 16
                          BitVec.ofNat 8 (if d < 10 then 48 + d else 55 + d))

/-- The ROM, the boot code or the firmware prints a progress line: the IOD0 counter in hexadecimal, then a text that the
spec does not give (DESIGN CHOICE, log 121). -/
def State.uartPrint (s : State) : State :=
  { s with uart := s.uart ++ [hex16 (s.time 4).toNat ++ Config.uartText s.uart.length] }

/-! ## Flash (R446, R447) -/

/-- Bytes of the flash; the stored form is complemented, so that an erased byte reads 0xFF (log 73). -/
def State.flashBytes (s : State) (off n : Nat) : List Byte := (Memory.readBytes s.boot.flash off n).map (fun b => ~~~ b)

/-- Write bytes of the flash. -/
def State.flashWrite (s : State) (off : Nat) (bs : List Byte) : State :=
  { s with boot := { s.boot with flash := Memory.writeBytes s.boot.flash off (bs.map (fun b => ~~~ b)) } }

/-- Base and size of an image; of the firmware manifest within it. -/
def imageAt (img : Nat) : Nat := if img = 0 then 0x00100000 else 0x10000000
def imageSize : Nat := 0x0FF00000
def firmwareAt : Nat := 0x01000000

/-- A boot control block copy: its 16 bytes. -/
def State.bcb (s : State) (copy : Nat) : List Byte := s.flashBytes (copy * 0x10000) 16
def bcbSeq (b : List Byte) : Nat := field b 8 4
/-- A copy counts by its CRC alone (R447). -/
def bcbValid (b : List Byte) : Bool := decide (crc32c (b.take 12) = field b 12 4)

/-- The copy with a valid CRC and the higher sequence number; of two equal ones copy 0 (log 73). -/
def State.bcbChosen (s : State) : Option Nat :=
  let v0 := bcbValid (s.bcb 0)
  let v1 := bcbValid (s.bcb 1)
  if v0 && (!v1 || decide (bcbSeq (s.bcb 1) ≤ bcbSeq (s.bcb 0))) then some 0 else if v1 then some 1 else none

/-- The preferred image (R447). -/
def State.preferredImage (s : State) : Nat :=
  match s.bcbChosen with
  | some c => if field (s.bcb c) 5 1 = 1 then 1 else 0
  | none => 0

/-! ## Manifests (Tables 16.3 to 16.5) -/

def manStage (m : List Byte) : Nat := field m 6 1
def manEdSlot (m : List Byte) : Nat := field m 7 1 % 2
def manMlSlot (m : List Byte) : Nat := field m 7 1 / 2 % 2
def manSvn (m : List Byte) : Nat := field m 8 1
def manCount (m : List Byte) : Nat := field m 9 1
def manToFlash (m : List Byte) : Bool := bitOf (field m 0xA 1) 0
def manSeq (m : List Byte) : Nat := field m 0xC 4
def manBinding (m : List Byte) : Nat := field m 0x10 8

/-- Component entry `i`. -/
def manEntry (m : List Byte) (i : Nat) : List Byte := (m.drop (0x100 + 128 * i)).take 128
def compType (e : List Byte) : Nat := field e 0 1
def compOffset (e : List Byte) : Nat := field e 4 4
def compLength (e : List Byte) : Nat := field e 8 4
/-- The entries in use. -/
def manEntries (m : List Byte) : List (List Byte) := (upTo (manCount m)).map (fun i => manEntry m i)

/-- Every byte is 0. -/
def zeros (bs : List Byte) : Bool := bs.all (fun b => decide (b = 0))

/-- The reserved bytes of a manifest (R449). -/
def manReserved (m : List Byte) : Bool :=
  decide (field m 0xB 1 = 0) && zeros ((m.drop 0x18).take 232) && zeros ((m.drop 0x10C0).take 64)
    && zeros ((m.drop 0x1E2D).take 467)
    && (manEntries m).all (fun e => zeros ((e.drop 1).take 3) && zeros ((e.drop 0xC).take 4) && zeros ((e.drop 0x50).take 48))
    && (upTo 16).all (fun i => decide (i < manCount m) || zeros (manEntry m i))

/-- How many components have a type. -/
def typeCount (m : List Byte) (t : Nat) : Nat := ((manEntries m).filter (fun e => decide (compType e = t))).length

/-- R450's component types. -/
def manTypes (stage : Nat) (m : List Byte) : Bool :=
  let n := typeCount m
  if stage = 1 then
    decide (n 1 = 1 ∧ n 2 ≤ 1) && (manEntries m).all (fun e => decide (compType e = 1 ∨ compType e = 2))
  else
    decide (n 3 = 1 ∧ n 4 ≤ 1 ∧ n 5 = 1 ∧ n 6 ≤ 1) && (manEntries m).all (fun e => decide (3 ≤ compType e ∧ compType e ≤ 6))

/-- Hash of a fuse slot, 0 ed0, 1 ed1, 2 ml0, 3 ml1. -/
def fuseHash (slot : Nat) : List Byte := (fit 68 (Config.fuseKey slot)).take 64

/-- A slot is usable (R453). -/
def State.slotUsable (s : State) (slot : Nat) : Bool :=
  decide (crc32c (fuseHash slot) = field (fit 68 (Config.fuseKey slot)) 64 4) && !zeros (fuseHash slot)
    && !bitOf s.boot.revoke.toNat slot

/-- The number of 1 bits. -/
def ones (n : Nat) : Nat := ((upTo 64).filter (fun i => bitOf n i)).length
/-- The anti-rollback counter (Table 16.7). -/
def State.rollback (s : State) : Nat := ones s.boot.svnFuses.toNat

/-- Public keys and signatures of a manifest. -/
def manEdKey (m : List Byte) : List Byte := (m.drop 0x900).take 32
def manMlKey (m : List Byte) : List Byte := (m.drop 0x920).take 1952
def manEdSig (m : List Byte) : List Byte := (m.drop 0x1100).take 64
def manMlSig (m : List Byte) : List Byte := (m.drop 0x1140).take 3309
def manSigned (m : List Byte) : List Byte := m.take 0x1100

/-- Causes 1 to 7 of Table 16.6, each with whether its check passes. -/
def State.headChecks (s : State) (stage : Nat) (m : List Byte) : List (Nat × Bool) :=
  [ (1, decide (field m 0 4 = 0x4E414D44 ∧ field m 4 2 = 1 ∧ manStage m = stage ∧ 1 ≤ manCount m ∧ manCount m ≤ 16)
      && manTypes stage m && manReserved m),
    (2, s.slotUsable (manEdSlot m) && decide (fuseHash (manEdSlot m) = sha512 (manEdKey m))
      && s.slotUsable (2 + manMlSlot m) && decide (fuseHash (2 + manMlSlot m) = sha512 (manMlKey m))),
    (3, Config.ed25519Verify (manEdKey m) (manSigned m) (manEdSig m)),
    (4, Config.mldsaVerify (manMlKey m) (manSigned m) (manMlSig m)),
    (5, decide (s.rollback ≤ manSvn m)),
    (6, decide (manBinding m = 0 ∨ manBinding m = deviceId.toNat)),
    (7, (manEntries m).all (fun e => decide (compOffset e + compLength e ≤ 0x1000000))) ]

/-- Components as loaded: type, offset, bytes. -/
def loadComps (m : List Byte) (read : Nat → Nat → List Byte) : List (Nat × Nat × List Byte) :=
  (manEntries m).map (fun e => (compType e, compOffset e, read (compOffset e) (compLength e)))

/-- Cause 8: every component has its hash. -/
def hashesOk (m : List Byte) (read : Nat → Nat → List Byte) : Bool :=
  (manEntries m).all (fun e => decide (sha512 (read (compOffset e) (compLength e)) = (e.drop 0x10).take 64))

/-- The cause of the first check that fails, 0 for none (R451). `seq` is the first-stage manifest's image_seq, for
a firmware manifest; a manifest in flash may not be readable (cause 12, log 73). -/
def State.manifestCause (s : State) (stage : Nat) (flash : Bool) (seq : Option Nat) (m : List Byte)
    (read : Nat → Nat → List Byte) : Nat :=
  let seqOk := match seq with
    | some n => decide (manSeq m = n)
    | none => true
  let checks := [(12, !(flash && Config.flashFails s.freeCount))] ++ s.headChecks stage m
    ++ [(12, !(flash && Config.flashFails (s.freeCount + 1))), (8, hashesOk m read), (9, seqOk)]
  match checks.find? (fun c => !c.2) with
  | some c => c.1
  | none => 0

/-- SHA-512 of a measurement and an item's hash (R464). -/
def extend (m item : List Byte) : List Byte := sha512 (m ++ sha512 item)

/-- A measurement extended with a manifest and its components. -/
def extendAll (meas m : List Byte) (comps : List (Nat × Nat × List Byte)) : List Byte :=
  comps.foldl (fun a c => extend a c.2.2) (extend meas m)

/-! ## The ROM (R456, R458) -/

/-- Record an image's cause: 0 A, 1 B, 2 the recovery image; the alert tells (R487). -/
def State.setCause (s : State) (img c : Nat) : State :=
  let b := s.boot
  ({ s with boot :=
    if img = 0 then { b with causeA := c } else if img = 1 then { b with causeB := c } else { b with causeRec := c } }).raiseAlert 1

/-- An image's cause. -/
def Boot.cause (b : Boot) (img : Nat) : Nat := if img = 0 then b.causeA else if img = 1 then b.causeB else b.causeRec

/-- Enter recovery (R458). -/
def State.enterRecovery (s : State) : State := { s with boot := { s.boot with stage := .recovery } }.raiseAlert 1

/-- A first-stage manifest passed: it is measured, and its boot code runs. -/
def Boot.firstStage (b : Boot) (src : Nat) (m : List Byte) (comps : List (Nat × Nat × List Byte)) : Boot :=
  { b with manifest := m, comps := comps, meas0 := extendAll b.meas0 m comps, source := src }

/-- Try an image of the flash (R456). -/
def State.tryImage (s : State) (img : Nat) : State :=
  if s.boot.cause img ≠ 0 then s
  else
    let base := imageAt img
    let read (o n : Nat) : List Byte := s.flashBytes (base + o) n
    let m := read 0 8192
    let c := s.manifestCause 1 true none m read
    let s := s.bumpFree.bumpFree
    if c ≠ 0 then s.setCause img c
    else { s with boot := { s.boot.firstStage img m (loadComps m read) with
      stage := .bootCode, stageCode := 1, watchdog := true, imageBase := base } }

/-- The ROM's flow once the identity keys are ready: recovery, or the preferred image, or the other (R456). -/
def State.romFlow (s : State) : State :=
  let b := s.boot
  let both := decide (b.causeA ≠ 0) && decide (b.causeB ≠ 0)
  if b.bootSel = 1 || both then
    { s with boot := { b with recoveryForced := b.recoveryForced || both } }.enterRecovery
  else
    let img := s.preferredImage
    let s := s.tryImage img
    let s := if s.boot.stage = .bootCode then s else s.tryImage (1 - img)
    if s.boot.stage = .bootCode then s else s.enterRecovery

/-- BOOT_ROM_START (R448, R456, R489): BOOT_SEL is sampled; 10 and 11 act as 00. -/
def execBootRomStart (bootSel : BitVec 2) (s : State) : Out :=
  .next (if s.live && decide (s.boot.stage = .romReady) then
    let s := s.uartPrint
    let s := { s with boot := { s.boot with
      stage := .romWait
      bootSel := if bootSel.toNat < 2 then bootSel.toNat else 0
      bootSelReserved := decide (bootSel.toNat ≥ 2) } }
    if s.boot.keys then s.romFlow else s
  else s)

/-- IDENTITY_KEYS_READY (R463): the ROM goes on. -/
def execIdentityKeysReady (s : State) : Out :=
  .next (if s.live && decide (s.boot.stage = .romWait) && !s.boot.keys then
    { s.uartPrint with boot := { s.boot with keys := true } }.romFlow
  else s)

/-! ## The configuration (R460, R461, R393) -/

/-- The register a record may name: an RWL register, FAB_RANK or FAB_DOMAIN. -/
def cfgReg (addr : Nat) : Option RegAt :=
  if 0x220000000000 ≤ addr ∧ addr < 0x220004000000 then
    (regAt (addr - 0x220000000000)).filter (fun a =>
      decide (a.reg.row.access = .rwl) || decide (a.reg = .fabRank) || decide (a.reg = .fabDomain))
  else none

/-- The bits of word `j` of a partition table entry that are not reserved (R7, Table 14.2). -/
def entryMask : Nat → Nat
  | 0 => 0xFFFFFFFF03FFFFF1
  | 1 => 0xFFFFFFFFFFFF7FFF
  | 2 => m64
  | 3 => m64
  | 4 => 0x00000F0F7FFFFFFF
  | 5 => m48
  | 6 => m32
  | _ => 0

/-- Apply a record to a register; reserved bits stay 0 (R7). -/
def State.cfgWrite (s : State) (a : RegAt) (v : Nat) : State :=
  match a.reg with
  | .fabRank => s.newRank false (BitVec.ofNat 32 v)
  | .fabDomain => s.newRank true (BitVec.ofNat 32 v)
  | .partEntry => s.setRegN .partEntry a.i a.j (v &&& entryMask a.j)
  | r => s.setRegN r a.i a.j (r.row.written (s.regN r a.i a.j) (if r.row.wide then v else v % 2 ^ 32))

/-- Apply records in order; none when one names another register. -/
def State.cfgRecords (s : State) (bs : List Byte) : Nat → Option State
  | 0 => some s
  | n + 1 =>
    match cfgReg (field bs 0 8) with
    | some a => (s.cfgWrite a (field bs 8 8)).cfgRecords (bs.drop 16) n
    | none => none

/-- Whether half-open ranges, given as first and count, are disjoint. -/
def disjoint : List (Nat × Nat) → Bool
  | [] => true
  | r :: rest => rest.all (fun q => r.2 = 0 || q.2 = 0 || decide (r.1 + r.2 ≤ q.1) || decide (q.1 + q.2 ≤ r.1)) && disjoint rest

/-- The die masks that a shape allows (Table 14.1). -/
def shapeMasks : Nat → List (List Nat)
  | 0 => [[0xF]]
  | 1 => [[0x3, 0xC], [0x5, 0xA]]
  | 2 => [[0x3, 4, 8], [0xC, 1, 2], [0x5, 2, 8], [0xA, 1, 4]]
  | _ => [[1, 2, 4, 8]]

/-- The stacks that the dies of a mask own (Table 1.1). -/
def stacksOfMask (mask : Nat) : Nat := (upTo 4).foldl (fun a d => if bitOf mask d then a + 3 * 4 ^ d else a) 0

/-- The partition table meets R393. -/
def State.tableOk (s : State) : Bool :=
  let ps := allParts.filter (fun p => s.partValid p)
  let sum (f : Part → Nat) : Nat := ps.foldl (fun a p => a + f p) 0
  let masks := ps.map (fun p => s.dieMask p)
  decide (ps = allParts.take ps.length) && (shapeMasks (s.regN .partShape)).contains masks
    && ps.all (fun p => decide (s.stackMask p = stacksOfMask (s.dieMask p)) && decide (s.rclMask p ≠ 0))
    && allRPorts.all (fun k => decide ((ps.filter (fun p => bitOf (s.rclMask p) k.val)).length ≤ 1))
    && (upTo 32).all (fun n => decide (sum (fun p => if bitOf (s.fabPorts p) n then s.fabShare p else 0) ≤ 16))
    && decide (sum s.colShare ≤ 16 ∧ sum s.updShare ≤ 16 ∧ sum s.colBuffers ≤ 1024)
    && disjoint (ps.map (fun p => (s.slotFirst p, s.slotCount p))) && ps.all (fun p => decide (s.slotFirst p + s.slotCount p ≤ 1024))
    && disjoint (ps.map (fun p => (s.reserveFirst p, s.reserveFrames p)))
    && ps.all (fun p => decide (s.reserveFirst p + s.reserveFrames p ≤ 786432))
    && disjoint (ps.map (fun p => (s.ringFirst p, s.ringCount p))) && ps.all (fun p => decide (s.ringFirst p + s.ringCount p ≤ 64))
    && disjoint (ps.map (fun p => (s.syncFirst p, s.syncCount p)))
    && ps.all (fun p => (upTo 4).all (fun d => bitOf (s.dieMask p) d || decide (s.syncCount p = 0)
        || decide (s.syncFirst p + s.syncCount p ≤ d * 8192) || decide ((d + 1) * 8192 ≤ s.syncFirst p))
      && decide (s.syncFirst p + s.syncCount p ≤ 32768))

/-- The entry of the single partition of an image without a configuration (R460): everything, at full share;
queue_bound, power_weight and mmio_grant are not given (log 74). -/
def defaultEntry : List Byte :=
  leBytes 4 (1 + 0xF * 2 ^ 4 + 0xFF * 2 ^ 8 + 0xF * 2 ^ 16) ++ leBytes 4 0xFFFFFFFF ++ leBytes 2 0 ++ leBytes 2 32768
    ++ leBytes 2 0 ++ leBytes 2 1024 ++ leBytes 4 0 ++ leBytes 4 786432 ++ leBytes 2 1024
    ++ leBytes 1 16 ++ leBytes 1 16 ++ leBytes 1 16 ++ leBytes 1 16 ++ leBytes 1 (1 + Config.defaultEntry 1 % 255) ++ leBytes 1 64
    ++ leBytes 2 (1 + Config.defaultEntry 0 % 1024) ++ leBytes 2 (Config.defaultEntry 2 % 0x8000) ++ List.replicate 92 0

/-- The default partition table, of shape {4}. -/
def State.defaultTable (s : State) : State :=
  (upTo 16).foldl (fun s j => s.setRegN .partEntry 0 j (field defaultEntry (8 * j) 8)) s

/-- Apply the configuration component; none when it is invalid (R460). -/
def State.configure (s : State) : Option State :=
  match s.boot.comps.find? (fun c => decide (c.1 = 2)) with
  | none => some s.defaultTable
  | some (_, _, bs) =>
    if bs.length % 16 ≠ 0 then none else (s.cfgRecords bs (bs.length / 16)).filter State.tableOk

/-- The lowest stack of a partition. -/
def State.lowStack (s : State) (p : Part) : Nat := (s.stacksOf p).head?.getD 0

/-- The firmware region: 64 MiB at the top of the lowest stack (R461). -/
def State.firmwareBase (s : State) (p : Part) : Nat := (s.lowStack p + 1) * 0x1200000000 - 0x4000000

/-- Write SEC_FWR_BASE and SEC_FWR_SIZE of every valid partition (R461). -/
def State.firmwareRegions (s : State) : State :=
  allParts.foldl (fun s p =>
    if s.partValid p then (s.setRegN .secFwrBase p.val 0 (s.firmwareBase p)).setRegN .secFwrSize p.val 0 0x4000000 else s) s

/-! ## The boot code (R456) -/

/-- A failure in the boot code: record the cause, then a warm reset. -/
def State.bootFail (s : State) (c : Nat) : State := (s.setCause s.boot.source c).warmReset

/-- The boot code's work on a firmware manifest up to the lock: the cause that ends it, or the state to lock. -/
def State.bootWork (s : State) (flash : Bool) (f : List Byte) (read : Nat → Nat → List Byte) : State :=
  let c := s.manifestCause 2 flash (some (manSeq s.boot.manifest)) f read
  let s := s.bumpFree.bumpFree
  if c ≠ 0 then s.bootFail c
  else
    let comps := loadComps f read
    let s := { s with boot := { s.boot with fwManifest := f, fwComps := comps, meas1 := extendAll s.boot.meas1 f comps } }
    match s.configure with
    | none => s.bootFail 10
    | some s => { s.firmwareRegions with boot := { s.boot with stage := .configured } }

/-- BOOT_CODE_START (R456): the boot code of the image runs; SEC_LOCK_SET and DEVICE_FIRMWARE_START are its last
steps. -/
def execBootCodeStart (s : State) : Out :=
  .next (if s.live && decide (s.boot.stage = .bootCode) then
    let read (o n : Nat) : List Byte := s.flashBytes (s.boot.imageBase + firmwareAt + o) n
    s.uartPrint.bootWork true (read 0 8192) read
  else s)

/-- BOOT_WATCHDOG_EXPIRY (R457): cause 11, then a warm reset. -/
def execBootWatchdogExpiry (s : State) : Out :=
  .next (if s.live && s.boot.watchdog then s.bootFail 11 else s)

/-! ## Recovery (R458, R459) -/

/-- Write a manifest and its components to flash at a base. -/
def State.flashImage (s : State) (base : Nat) (m : List Byte) (comps : List (Nat × Nat × List Byte)) : State :=
  comps.foldl (fun s c => s.flashWrite (base + c.2.1) c.2.2) (s.flashWrite base m)

/-- The recovery image goes to the image area that is not preferred, which the control block copy that is not in
force then prefers (R459). -/
def State.recoveryToFlash (s : State) : State :=
  let img := 1 - s.preferredImage
  let copy := match s.bcbChosen with
    | some c => 1 - c
    | none => 0
  let head := leBytes 4 0x4C424344 ++ leBytes 1 1 ++ leBytes 1 img ++ leBytes 2 0 ++ leBytes 4 (bcbSeq (s.bcb (1 - copy)) + 1)
  let b := s.boot
  ((s.flashImage (imageAt img) b.manifest b.comps).flashImage (imageAt img + firmwareAt) b.fwManifest b.fwComps).flashWrite
    (copy * 0x10000) (head ++ leBytes 4 (crc32c head))

/-- A go in recovery: the manifest in boot SRAM is checked, the first stage's by the ROM and then the firmware's by
the boot code (R458). -/
def State.recoveryGo (s : State) : State :=
  let read (o n : Nat) : List Byte := Memory.readBytes s.boot.bootSram o n
  let m := read 0 8192
  if s.boot.stage = .recovery then
    let c := s.manifestCause 1 false none m read
    if c ≠ 0 then s.setCause 2 c
    else { s with boot := { s.boot.firstStage 2 m (loadComps m read) with stage := .recoveryFw, stageCode := 3 } }
  else
    let s := s.bootWork false m read
    if s.boot.stage = .configured && manToFlash s.boot.manifest && manToFlash s.boot.fwManifest then s.recoveryToFlash else s

/-- In recovery with port A ready to transfer (R364, R458). -/
def State.inRecovery (s : State) : Bool :=
  (decide (s.boot.stage = .recovery) || decide (s.boot.stage = .recoveryFw))
    && decide ((s.rclPort 0).state = .active) && bitOf (s.rclPort 0).features.toNat 3

/-- SEC_RECOVERY_GO (R458): out of recovery a go has no effect. -/
def execSecRecoveryGo (r : Requester) (s : State) : Out :=
  .next (if s.live then
    if s.inRecovery && decide (r ≠ mgmtPort) then s.uartPrint.recoveryGo else s.ownWrite r .secRecoveryCtrl 0 0 (fun s => s)
  else s)

/-! ## The lock (R461, R462, R464) -/

/-- The values of every RWL register in increasing offset order, 8 bytes each. -/
def State.rwlValues (s : State) : List Byte :=
  f8 (s.regN .partShape) ++ (upTo 4).flatMap (fun e => (upTo 16).flatMap (fun j => f8 (s.regN .partEntry e j)))
    ++ f8 (s.regN .evtSharedOwner) ++ (upTo 4).flatMap (fun p => f8 (s.regN .secFwrBase p) ++ f8 (s.regN .secFwrSize p))

/-- The frames of a firmware region are taken. -/
def State.takeRegion (s : State) (p : Part) : State :=
  (upTo 32).foldl (fun s i => s.markFrame .hbm 0 (s.firmwareBase p / pageSize + i) true) s

/-- Every valid partition is STOPPED, with its firmware region and its host area (R394, R461, log 5). -/
def State.openParts (s : State) : State :=
  allParts.foldl (fun s p =>
    if s.partValid p then ((s.onPart p (fun q => { q with state := 0 })).takeRegion p).mapHostArea p else s) s

/-- SEC_LOCK_SET (R462, R464): the boot code measures the RWL registers and sets the lock. -/
def execSecLockSet (s : State) : Out :=
  .next (if s.live && decide (s.boot.stage = .configured) then
    let s := { s with boot := { s.boot with meas2 := extend s.boot.meas2 s.rwlValues, locked := true, stage := .locked } }
    (s.uartPrint.setRegN .secLock 0 0 1).openParts
  else s)

/-! ## Device firmware (R465, R466, R469, R474) -/

/-- The parts that train. -/
def trainParts : List TrainPart :=
  (List.finRange 8).map TrainPart.stack ++ [.reserve, .updLink 0, .updLink 1]

/-- The events of boot that SEC_BOOT_STATUS tells: number and fields. -/
def Boot.replay (b : Boot) : List (Nat × List Byte) :=
  ([0, 1, 2].filter (fun i => decide (b.cause i ≠ 0))).map (fun i => (2, f4 i ++ f1 (b.cause i)))
    ++ (if b.source = 2 then [(3, f4 b.bootSel ++ f4 (b2n b.recoveryForced))] else [])

/-- Log the boot events before whatever the security source holds already; those take later sequence numbers (R469,
R474, R478). The replay carries the time of the first event held, if there is one, so that time does not run back
(R479, log 74). -/
def State.replayBoot (s : State) : State :=
  let e := s.source secSource
  let k := s.boot.replay.length
  let stamp := match e.held with
    | h :: _ => h.stamp
    | [] => s.time 4
  let new := s.boot.replay.zipIdx.map (fun x => HeldEvent.mk (BitVec.ofNat 32 x.2) stamp 4 (BitVec.ofNat 16 (0x1800 + x.1.1)) x.1.2)
  let all := new ++ e.held.map (fun h => { h with seq := h.seq + BitVec.ofNat 32 k })
  let keep := all.foldl (fun (a : List HeldEvent) h =>
    if (a.foldl (fun n x => n + entriesOf x.data) 0) + entriesOf h.data ≤ 16 then a ++ [h] else a) []
  let s := s.setSource secSource { e with held := keep }
  let s := s.setRegN .evtSeq secSource.toNat 0 ((s.regN .evtSeq secSource.toNat + k) % 2 ^ 32)
  s.setRegN .evtLost secSource.toNat 0 (Nat.min (s.regN .evtLost secSource.toNat + (all.length - keep.length)) m32)

/-- DEVICE_FIRMWARE_START (R465, R469). -/
def execDeviceFirmwareStart (s : State) : Out :=
  .next (if s.live && decide (s.boot.stage = .locked) then
    { s.uartPrint with boot := { s.boot with stage := .firmware, stageCode := 2, training := trainParts } }.replayBoot
  else s)

/-- How an event names a part that failed: its code is not given (Config.code 8, log 41). -/
def partCode : TrainPart → Nat
  | .stack h => Config.code 8 h.val
  | .reserve => Config.code 8 8
  | .updLink i => Config.code 8 (9 + i.val)

/-- A part has failed to train (Table 16.9). -/
def State.trainFailed (s : State) (part : TrainPart) : State :=
  let b := s.boot
  let b := match part with
    | .stack h => { b with hbmFailed := b.hbmFailed ||| BitVec.ofNat 8 (2 ^ h.val) }
    | .reserve => { b with reserveFailed := true }
    | .updLink i => { b with linkFailed := b.linkFailed ||| BitVec.ofNat 2 (2 ^ i.val) }
  let s := { s with boot := b }.log secSource 4 (f4 (partCode part))
  match part with
  | .updLink i => if s.boot.linkFailed = 3#2 then s else s.log secSource 5 (f4 (partCode (.updLink i)))
  | _ => s

/-- Microseconds since PWR_GOOD. -/
def State.sincePower (s : State) : Nat := (s.power.before + (s.time 4).toNat) / 100

/-- Ready is reported once nothing trains any more (R465); the watchdog stops (R457). -/
def State.reportReady (s : State) : State :=
  if s.boot.training.isEmpty then
    let s := { s with boot := { s.boot with ready := true, watchdog := false } }
    (s.log secSource 1 (f4 s.boot.source ++ f4 (manSeq s.boot.manifest) ++ f4 (Nat.min s.sincePower m32))).raiseAlert 2
  else s

/-- MEMORY_TRAINING_COMPLETE (R465, R466): a part has trained or is marked failed. -/
def execMemoryTrainingComplete (part : TrainPart) (ok : Bool) (s : State) : Out :=
  .next (if s.live && decide (s.boot.stage = .firmware) && s.boot.training.contains part then
    let s := { s with boot := { s.boot with training := s.boot.training.filter (fun x => decide (x ≠ part)) } }
    (if ok then s else s.trainFailed part).uartPrint.reportReady
  else s)

end Sys2Proof.Machine
end

