-- ==== Sys2Proof/Machine/Security.lean ====
section
/-! DEFINITION. Fuses, the host's flash requests and attestation (R447, R452-R455, R467, R512). -/

namespace Sys2Proof.Machine

/-! ## Fuses (R454, R455) -/

/-- Both manifests of the running image name the other slot of the algorithm (R454). -/
def Boot.namesOther (b : Boot) (slot : Nat) : Bool :=
  let other := 1 - slot % 2
  if slot < 2 then decide (manEdSlot b.manifest = other ∧ manEdSlot b.fwManifest = other)
  else decide (manMlSlot b.manifest = other ∧ manMlSlot b.fwManifest = other)

/-- A write to SEC_KEY_REVOKE: device firmware blows the slot's bit, or refuses (R454). -/
def State.revokeKey (s : State) (slot : Nat) : State :=
  let other := slot / 2 * 2 + (1 - slot % 2)
  if decide (s.boot.stage = .firmware) && s.boot.namesOther slot && s.slotUsable other then
    { s with boot := { s.boot with revoke := s.boot.revoke ||| BitVec.ofNat 4 (2 ^ slot) } }.log secSource 7 (f1 slot)
  else s.log secSource 8 (f1 slot)

/-- SEC_KEY_REVOKE (R454). -/
def execSecKeyRevoke (r : Requester) (slot : BitVec 2) (s : State) : Out :=
  .next (if s.live then s.ownWrite r .secKeyRevoke 0 0 (fun s => s.revokeKey slot.toNat) else s)

/-- Blow the lowest clear bits of the fuses, one at a time, until the counter equals `v`. -/
def blow (v : Nat) (fuses : BitVec 64) : Nat → BitVec 64
  | 0 => fuses
  | k + 1 =>
    if ones fuses.toNat < v then
      match (upTo 64).find? (fun i => !bitOf fuses.toNat i) with
      | some i => blow v (fuses ||| BitVec.ofNat 64 (2 ^ i)) k
      | none => fuses
    else fuses

/-- A write to SEC_SVN_COMMIT (R455). -/
def State.commitSvn (s : State) (v : Nat) : State :=
  let ok := decide (s.boot.stage = .firmware) && decide (s.rollback < v) && decide (v ≤ manSvn s.boot.manifest)
  let s := if ok then { s with boot := { s.boot with svnFuses := blow v s.boot.svnFuses 64 } } else s
  s.log secSource (if ok then 9 else 10) (f4 v ++ f4 s.rollback)

/-- SEC_SVN_COMMIT (R455). -/
def execSecSvnCommit (r : Requester) (v : BitVec 7) (s : State) : Out :=
  .next (if s.live then s.ownWrite r .secSvnCommit 0 0 (fun s => s.commitSvn v.toNat) else s)

/-! ## Flash requests (R447, R512) -/

/-- The flash ends at 512 MiB (Table 16.2). -/
def flashEnd : Nat := 0x20000000

/-- Two byte ranges overlap. -/
def overlaps (a n b m : Nat) : Bool := decide (a < b + m ∧ b < a + n)

/-- A write of a range touches the running image or the control block copy in force (R447). -/
def State.flashProtected (s : State) (off n : Nat) : Bool :=
  (decide (s.boot.source < 2) && overlaps off n (imageAt s.boot.source) imageSize)
    || (match s.bcbChosen with
        | some c => overlaps off n (c * 0x10000) 0x10000
        | none => false)

/-- The range a request covers: an erase takes the 64 KiB that hold its offset (log 75). -/
def flashRange (op off len : Nat) : Nat × Nat := if op = 3 then (off / 0x10000 * 0x10000, 0x10000) else (off, len)

/-- A write to SEC_FLASH_CTRL: dropped while a request is busy; a nonzero op starts one (R512). The length is brought
within 1 to 4,096 (R495). -/
def State.flashCtrl (s : State) (op off len : Nat) : State :=
  if s.boot.flashReq.isSome then s
  else
    let len := Nat.min (Nat.max len 1) 4096
    let old := s.regN .secFlashCtrl
    let s := s.setRegN .secFlashCtrl 0 0 (off * 2 ^ 32 + len * 2 ^ 16 + (if op = 0 then bitsOf old 7 4 * 16 else 8))
    if op = 0 then s
    else
      let r := flashRange op off len
      let bad := (op = 2 || op = 3) && s.flashProtected r.1 r.2
      let s := { s with boot := { s.boot with flashReq := some ⟨op, r.1, r.2, bad⟩ } }
      if bad then s.log secSource 11 (f8 r.1 ++ f4 r.2) else s

/-- FLASH_READ (R512). -/
def execFlashRead (r : Requester) (offset : BitVec 32) (length : BitVec 13) (s : State) : Out :=
  .next (if s.live then s.ownWrite r .secFlashCtrl 0 0 (fun s => s.flashCtrl 1 offset.toNat length.toNat) else s)

/-- FLASH_PROGRAM (R447, R512). -/
def execFlashProgram (r : Requester) (offset : BitVec 32) (length : BitVec 13) (s : State) : Out :=
  .next (if s.live then s.ownWrite r .secFlashCtrl 0 0 (fun s => s.flashCtrl 2 offset.toNat length.toNat) else s)

/-- FLASH_ERASE (R447, R512): the length is ignored, and kept as the register has it. -/
def execFlashErase (r : Requester) (offset : BitVec 32) (s : State) : Out :=
  .next (if s.live then
    s.ownWrite r .secFlashCtrl 0 0 (fun s => s.flashCtrl 3 offset.toNat (bitsOf (s.regN .secFlashCtrl) 28 16))
  else s)

/-- Bytes of the flash buffer, and the buffer with bytes put at its start. -/
def State.bufferBytes (s : State) (n : Nat) : List Byte := ((upTo 512).flatMap (fun j => f8 (s.regN .secFlashBuf 0 j))).take n
def State.setBuffer (s : State) (bs : List Byte) : State :=
  let all := splice (s.bufferBytes 4096) 0 bs
  (upTo 512).foldl (fun s j => s.setRegN .secFlashBuf 0 j (field all (8 * j) 8)) s

/-- What a request does as it ends: a failed one leaves what it would have written undefined (log 75), beyond the
flash's end there is nothing to write. -/
def State.flashEffect (s : State) (q : FlashReq) (error : Bool) : State :=
  if q.refused || decide (q.offset + q.length > flashEnd) then s
  else
    let (junk, s') := s.freeBytes q.length
    match q.op with
    | 1 => if error then s'.setBuffer junk else s.setBuffer (s.flashBytes q.offset q.length)
    | 2 => if error then s'.flashWrite q.offset junk else s.flashWrite q.offset (s.bufferBytes q.length)
    | 3 => if error then s'.flashWrite q.offset junk else s.flashWrite q.offset (List.replicate q.length 0xFF)
    | _ => s

/-- The result of a request; an op beyond 3 has none the spec gives (a free value, log 75). -/
def State.flashResult (s : State) (q : FlashReq) (error : Bool) : Nat :=
  if q.refused then 1
  else if error || decide (q.offset + q.length > flashEnd) then 2
  else if q.op ≤ 3 then 0
  else Config.freeValue s.freeCount % 3

/-- FLASH_REQUEST_COMPLETE (R512): device firmware has carried the request out. -/
def execFlashRequestComplete (error : Bool) (s : State) : Out :=
  .next (if s.live && decide (s.boot.stage = .firmware) then
    match s.boot.flashReq with
    | none => s
    | some q =>
      let n := s.flashResult q error
      let s := (if q.op ≤ 3 then s else s.bumpFree).flashEffect q error
      let c := s.regN .secFlashCtrl
      { s.setRegN .secFlashCtrl 0 0 (c - bitsOf c 7 0 + n * 16) with boot := { s.boot with flashReq := none } }
  else s)

/-! ## Attestation (R467) -/

/-- The nonce of a set, as its registers hold it. -/
def State.nonce (s : State) (r : Nat) : List Byte := (upTo 8).flatMap (fun j => f8 (s.regN .secAttestNonce r j))

/-- A report can be written: its address is 4 KiB aligned, in writable HBM or a host window of the partition; the
management port gives none. -/
def State.reportOk (s : State) (r : Requester) (addr : Nat) : Bool :=
  match Requester.part? r with
  | none => true
  | some p => decide (addr % 4096 = 0) && (match s.place p addr with
      | .hbm _ => s.writable p addr
      | .host _ _ => decide (addr ≥ 0x100000000000) || s.writable p addr
      | _ => false)

/-- A go (R467): the nonce and the address are copied and the request waits its turn. -/
def State.attestGo (s : State) (r : Requester) : State :=
  let st := s.regN .secAttestStatus r.val
  let done := bitsOf st 63 32 * 2 ^ 32
  let addr := s.regN .secAttestAddr r.val
  if bitOf st 0 then s.log secSource 12 (f4 r.val)
  else if !s.reportOk r addr then s.setRegN .secAttestStatus r.val 0 (done + 2)
  else
    let s := s.setRegN .secAttestStatus r.val 0 (done + 1)
    { s with boot := { s.boot with attest := s.boot.attest ++ [(r.val, s.nonce r.val, addr)] } }

/-- SEC_ATTEST_GO (R467): set 4 is the management port's, whose go is its ATTEST command. -/
def execSecAttestGo (r : Requester) (s : State) : Out :=
  .next (if s.live then s.ownWrite r .secAttestCtrl r.val 0 (fun s => s.attestGo r) else s)

/-- Bytes 0x000-0x1FF of the report (Table 16.10). -/
def State.reportBody (s : State) (r : Nat) (nonce : List Byte) : List Byte :=
  let b := s.boot
  f4 0x54535441 ++ f2 1 ++ f1 r
    ++ f1 (b.source + 4 * b2n b.locked + 8 * b2n b.ready + 16 * b2n b.bootSelReserved)
    ++ f8 (s.time 4).toNat ++ fit 64 nonce ++ f8 deviceId.toNat ++ f4 Config.romVersion.toNat
    ++ f1 s.rollback ++ f1 (manSvn b.manifest)
    ++ f1 (manEdSlot b.manifest + 2 * manMlSlot b.manifest + 4 * b.revoke.toNat) ++ f1 0
    ++ fit 64 b.meas0 ++ fit 64 b.meas1 ++ fit 64 b.meas2 ++ f4 (manSeq b.manifest) ++ f4 0
    ++ edPublic ++ sha512 mlPublic ++ List.replicate 120 0

/-- The whole report, signed with both identity keys; the second signature takes fresh randomness. -/
def State.report (s : State) (r : Nat) (nonce : List Byte) : List Byte :=
  let body := s.reportBody r nonce
  fit 4096 (body ++ fit 64 (Config.ed25519Sign edSeed body) ++ fit 3309 (Config.mldsaSign mlSeed body (Config.freeValue s.freeCount)))

/-- The next request in rotation over the five sets after the one served last. -/
def Boot.nextAttest (b : Boot) : Option (Nat × List Byte × Nat) :=
  ((upTo 5).map (fun i => (b.attestTurn + 1 + i) % 5)).findSome? (fun r => b.attest.find? (fun x => decide (x.1 = r)))

/-- A partition's report goes to memory; a page that has since become unusable shows error. -/
def State.deliverReport (s : State) (r addr : Nat) (bs : List Byte) : State × Bool :=
  if h : r < 4 then
    if s.reportOk ⟨r, by omega⟩ addr then (s.writeVa ⟨r, h⟩ addr bs false, true) else (s, false)
  else ({ s with boot := { s.boot with attestReport := bs } }, true)

/-- ATTEST_REPORT_WRITTEN (R467): the next request of the rotation is served. -/
def execAttestReportWritten (s : State) : Out :=
  .next (if s.live && s.boot.keys then
    match s.boot.nextAttest with
    | none => s
    | some (r, nonce, addr) =>
      let bs := s.report r nonce
      let s := s.bumpFree
      let s := { s with boot := { s.boot with attest := s.boot.attest.filter (fun x => decide (x.1 ≠ r)), attestTurn := r } }
      let (s, ok) := s.deliverReport r addr bs
      let n := bitsOf (s.regN .secAttestStatus r) 63 32
      s.setRegN .secAttestStatus r 0 (if ok then (n + 1) % 2 ^ 32 * 2 ^ 32 else n * 2 ^ 32 + 2)
  else s)

end Sys2Proof.Machine
end

