-- ==== Sys2Proof/Machine/RegRead.lean ====
section
/-! DEFINITION. What every register reads (R4, R5, R8, R9, R440, R498-R514): the stored value, or a value taken from
the part of the device it shows. -/

namespace Sys2Proof.Machine

/-! ## Status registers -/

/-- Codes of the fabric port states (Table 18.12). -/
def FabState.code : FabState → Nat
  | .detect => 0 | .boot => 1 | .train => 2 | .hello => 3 | .up => 4 | .limited => 5 | .retrain => 6 | .isolated => 7 | .dark => 8

/-- Codes of the RCL port states (Table 18.14). -/
def RclState.code : RclState → Nat
  | .detect => 0 | .param => 1 | .train => 2 | .active => 3 | .retrain => 4 | .isolated => 5 | .dark => 6

/-- A mode as a status register shows it: 0xF for none. -/
def modeCode (m : Option (Fin 9)) : Nat :=
  match m with
  | some x => x.val
  | none => 0xF

/-- FAB_PORT_STATUSn. -/
def FabPort.status (q : FabPort) : Nat := q.state.code + 16 * modeCode q.mode + 256 * q.lanesUsed.toNat

/-- RCL_PORT_STATUSk. -/
def State.rclStatus (s : State) (k : RPort) : Nat :=
  let q := s.rclPort k
  let p := match s.partOfRcl k with
    | some p => p.val
    | none => 7
  q.state.code + 16 * modeCode q.mode + 256 * q.features.toNat + 4096 * p

/-- Which depth sets the effective one: the lowest code on a tie (Table 15.4). -/
def State.binding (s : State) (d : Die) : Nat :=
  let x := s.die d
  let e := s.dieDepth d
  if x.prefDepth = e then 0 else if x.railDepth = e then 1 else if x.thermDepth = e then 2 else 3

/-- GOV_DIE_STATEd (Table 15.4). -/
def State.dieState (s : State) (d : Die) : Nat :=
  let x := s.die d
  x.op + 16 * depthDuty (s.dieDepth d) + 2 ^ 9 * x.prefDepth + 2 ^ 13 * x.railDepth + 2 ^ 18 * x.thermDepth
    + 2 ^ 23 * s.capOf (s.partOfDie d) + 2 ^ 28 * s.binding d + 2 ^ 31 * b2n x.mismatch

/-- ACLK in MHz at an operating point (Table 15.2). -/
def aclkMhz (op : Nat) : Nat := 3300 - 200 * op

/-- SEC_BOOT_STATUS (Table 16.8). -/
def Boot.statusWord (b : Boot) : Nat :=
  2 ^ 31 * b2n b.ready + 2 ^ 30 * b2n b.locked + 2 ^ 28 * b.source + 2 ^ 27 * b2n b.bootSelReserved
    + 2 ^ 26 * b2n b.recoveryForced + 2 ^ 24 * b.stageCode + 2 ^ 20 * b.causeA + 2 ^ 16 * b.causeB + 2 ^ 12 * b.causeRec
    + 2 ^ 11 * b2n b.reserveFailed + 2 ^ 9 * b.linkFailed.toNat + b.hbmFailed.toNat

/-- MGT_STATUS (Table 18.20). -/
def State.mgtStatus (s : State) : Nat :=
  b2n s.mgt.fatal + 2 * b2n s.power.pwrGood + 4 * b2n s.boot.ready + 8 * b2n s.boot.locked + 256 * s.mgt.failingRail

/-- ASZ_STATUS (Table 18.8). -/
def Assize.status (a : Assize) : Nat := a.coldLeft + 2 ^ 16 * b2n (a.cold || a.awaiting) + 2 ^ 17 * b2n a.invalid

/-- A word of an array of bytes. -/
def wordOf (bs : List Byte) (j : Nat) : Nat := field bs (8 * j) 8

/-- The boot ROM has started since the device reset: fuse and identity registers read their values (R498). -/
def Boot.romStarted (b : Boot) : Bool := decide (b.stage ≠ .off) && decide (b.stage ≠ .romReady)

/-- An index as a die, a partition, a port. -/
def dieOf (i : Nat) : Die := ⟨i % 4, Nat.mod_lt _ (by decide)⟩
def partOf (i : Nat) : Part := ⟨i % 4, Nat.mod_lt _ (by decide)⟩
def rportOf (i : Nat) : RPort := ⟨i % 4, Nat.mod_lt _ (by decide)⟩
def fportOf (i : Nat) : FPort := ⟨i % 32, Nat.mod_lt _ (by decide)⟩
def unitOf (i : Nat) : Fin 16 := ⟨i % 16, Nat.mod_lt _ (by decide)⟩

/-! ## Reads -/

/-- A register that shows a part of the state; none for one that holds what was written to it. -/
def State.shown (s : State) (a : RegAt) : Option Nat :=
  let b := s.boot
  match a.reg with
  | .partState => some (s.part (partOf a.i)).state
  | .gauHeldDepth => some (s.die (dieOf a.i)).held.length
  | .aszStatus => some (s.part (partOf a.i)).assize.status
  | .govDieState => some (s.dieState (dieOf a.i))
  | .clkDie => some ((s.die (dieOf a.i)).op * 2 ^ 16 + aclkMhz (s.die (dieOf a.i)).op)
  | .fabPortStatus => some (s.fab (fportOf a.i)).status
  | .fabLaneFailed => some (s.fab (fportOf a.i)).laneFailed.toNat
  | .fabNbrId => some (s.fab (fportOf a.i)).nbrId.toNat
  | .fabNbrRank => some (s.fab (fportOf a.i)).nbrRank.toNat
  | .fabNbrPort => some ((s.fab (fportOf a.i)).nbrDomain.toNat * 2 ^ 32 + (s.fab (fportOf a.i)).nbrPort.toNat)
  | .rclPortStatus => some (s.rclStatus (rportOf a.i))
  | .rclLaneFailed => some (s.rclPort (rportOf a.i)).laneFailed.toNat
  | .rclPeerId => some (s.rclPort (rportOf a.i)).peer.toNat
  | .evtTime => some (s.time a.i).toNat
  | .secBootStatus => some b.statusWord
  | .secFuseState => some (if b.romStarted then s.rollback * 256 + b.revoke.toNat else 0)
  | .secFuseKeys => some (if b.romStarted then wordOf (fit 68 (Config.fuseKey a.i)) a.j else 0)
  | .secIdEdPub => some (if b.romStarted then wordOf edPublic a.j else 0)
  | .secIdMlPub => some (if b.romStarted then wordOf mlPublic a.j else 0)
  | .secMeas => some (wordOf (if a.i = 0 then b.meas0 else if a.i = 1 then b.meas1 else b.meas2) a.j)
  | .mgtStatus => some s.mgtStatus
  | .dbgStopCtrl => some (s.regN .dbgStopCtrl a.i + 2 ^ 30 * b2n (s.stopHalted (unitOf a.i)))
  | .partCtrl | .aszPromoteClr | .fabPortCtrl | .rclPortCtrl | .secKeyRevoke | .secSvnCommit | .secRecoveryCtrl
  | .secAttestCtrl | .dbgStopResume => some 0
  | _ => none

/-- What a register reads. -/
def State.readReg (s : State) (a : RegAt) : Nat := (s.shown a).getD (s.regN a.reg a.i a.j)

/-- The register whose bytes hold an offset that is a multiple of 4, and whether it is the upper half (R8). -/
def regHalf (off : Nat) : Option (RegAt × Bool) :=
  match regAt off with
  | some a => some (a, false)
  | none =>
    if off % 8 = 4 then (regAt (off - 4)).bind (fun a => if a.reg.row.wide then some (a, true) else none) else none

/-- A read of 4 or 8 bytes of the MMIO range by a requester: 0 for an unmapped offset and for a register it does not
reach (R8, R9, R493). -/
def State.readMmio (s : State) (r : Requester) (off : Nat) (wide : Bool) : Nat :=
  match regHalf off with
  | none => 0
  | some (a, upper) =>
    if !s.reaches r a then 0
    else if upper then (if wide then 0 else s.readReg a / 2 ^ 32)
    else if wide then s.readReg a
    else s.readReg a % 2 ^ 32

end Sys2Proof.Machine
end

