-- ==== Sys2Proof/Machine/RegWrite.lean ====
section
/-! DEFINITION. Writes to registers (R4-R9, R462, R471, R474, R486, R495, R510, R514): the plain ones, and every
register whose write has a behaviour of its own. -/

namespace Sys2Proof.Machine

/-! ## Event rings (R471, R474, R510) -/

/-- The whole ring lies in writable HBM pages of the owner, or inside a host window of one of its ports (R471). -/
def State.ringPlaced (s : State) (p : Part) (base n : Nat) : Bool :=
  if base ≥ 0x100000000000 then
    allRPorts.any (fun k =>
      s.ownsRcl p k && decide (0x100000000000 + k.val * 0x040000000000 ≤ base)
        && decide (base + n ≤ 0x100000000000 + (k.val + 1) * 0x040000000000))
  else
    decide (base + n ≤ hbmEnd) && (upTo ((base % pageSize + n + pageSize - 1) / pageSize)).all (fun j =>
      let va := base / pageSize * pageSize + j * pageSize
      s.writable p va && (match s.place p va with
        | .hbm _ => true
        | _ => false))

/-- A write to EVT_CTRLs: enabling a ring that is placed sets the head to the tail and writes the held entries first,
with held = 1; one that is not placed drops the write (R471, R474). -/
def State.evtCtrlWrite (s : State) (r : Requester) (n : Nat) (on : Bool) : State :=
  let src := BitVec.ofNat 16 n
  if !on then s.setRegN .evtCtrl n 0 0
  else if s.regN .evtCtrl n % 2 = 1 then s
  else if !s.ringPlaced (s.sourceOwner n) (s.regN .evtBase n) (s.regN .evtSize n * 32) then
    s.accessDropped r.val 0 (mmioAddr (RegName.evtCtrl.offset n 0))
  else
    let s := (s.setRegN .evtHead n 0 (s.regN .evtTail n)).setRegN .evtCtrl n 0 1
    let held := (s.source src).held
    let s := s.setSource src { s.source src with held := [] }
    held.foldl (fun s h => s.writeEvent src h true) s

/-- EVT_ENABLE (R471, R474). -/
def execEvtEnable (r : Requester) (source : BitVec 16) (s : State) : Out :=
  .next (if s.live && sourceExists source.toNat then
    s.ownWrite r .evtCtrl source.toNat 0 (fun s => s.evtCtrlWrite r source.toNat true)
  else s)

/-- A write to EVT_HEADs: backward or past the tail it is dropped (R510). -/
def State.evtHeadWrite (s : State) (r : Requester) (n value : Nat) : State :=
  let head := s.regN .evtHead n
  if ahead32 head value > ahead32 head (s.regN .evtTail n) then
    s.accessDropped r.val 0 (mmioAddr (RegName.evtHead.offset n 0))
  else s.setRegN .evtHead n 0 value

/-- EVT_HEAD_WRITE (R510). -/
def execEvtHeadWrite (r : Requester) (source : BitVec 16) (value : BitVec 32) (s : State) : Out :=
  .next (if s.live && sourceExists source.toNat then
    s.ownWrite r .evtHead source.toNat 0 (fun s => s.evtHeadWrite r source.toNat value.toNat)
  else s)

/-! ## Plain writes -/

/-- A plain write of a register's writable bits (R4, R7, R495). -/
def State.plainWrite (s : State) (a : RegAt) (v : Nat) : State :=
  s.setRegN a.reg a.i a.j (a.reg.row.written (s.regN a.reg a.i a.j) v)

/-- A dropped write to a register. -/
def State.dropWrite (s : State) (r : Requester) (cause : Nat) (a : RegAt) : State :=
  s.accessDropped r.val cause (mmioAddr (a.reg.offset a.i a.j))

/-- The partition a copy of a "stopped only" or "idle only" register belongs to. -/
def State.copyOwner (s : State) (a : RegAt) : Part :=
  if a.reg.row.block = 0 then (s.partOfRing a.i).getD 0 else partOf a.i

/-- An UPDATE_STEP, CHECKPOINT or RESTORE of the partition is outstanding (R495). -/
def State.updBusy (s : State) (p : Part) : Bool :=
  (s.part p).packets.any (fun k => (pktOpcode k.bytes = 0x11 || pktOpcode k.bytes = 0x12 || pktOpcode k.bytes = 0x13) && !k.ended)

/-- A write to PART_CTRLp acts on the bit that matches the state (R500). -/
def State.partCtrlWrite (s : State) (p : Part) (v : Nat) : State :=
  if bitOf v 0 && decide ((s.part p).state = 0) then s.startPart p
  else if bitOf v 1 && decide ((s.part p).state = 1) then s.resetPart p
  else s

/-- A write to ASZ_CTRL: both bits are W1S (Table 18.7). -/
def State.aszCtrlWrite (s : State) (p : Part) (v : Nat) : State :=
  let s := if bitOf v 0 then s.restoreAssize p else s
  if bitOf v 1 then s.agree p else s

/-- A write to a coherent region's base or size: only while its enabled flag reads 0 (R376). -/
def State.cohRangeWrite (s : State) (r : Requester) (a : RegAt) (v : Nat) : State :=
  if bitOf (s.regN .rclCohCtrl a.i) (8 + a.j) then s.dropWrite r 0 a else s.plainWrite a v

/-- A write to SEC_LOCK, W1S (R462). -/
def State.lockWrite (s : State) (v : Nat) : State :=
  if bitOf v 0 then { s.setRegN .secLock 0 0 1 with boot := { s.boot with locked := true } } else s

/-- A write to a stop unit's count: only by the partition that enabled the unit while it is enabled (R514). -/
def State.stopCountWrite (s : State) (r : Requester) (a : RegAt) (v : Nat) : State :=
  match Requester.part? r with
  | none => s
  | some p => if s.stopWritable p (unitOf a.i) then s.plainWrite a v else s.dropWrite r 0 a

/-- An act of the partition that writes. -/
def State.asPart (s : State) (r : Requester) (act : Part → State) : State :=
  match Requester.part? r with
  | none => s
  | some p => act p

/-! ## Registers whose write has a behaviour of its own -/

/-- Blocks HIF to GOV. -/
def State.ownLow (s : State) (r : Requester) (a : RegAt) (v : Nat) : State :=
  let w := BitVec.ofNat 32 v
  match a.reg with
  | .hifSqTail => s.newSqTail ⟨a.i % 64, Nat.mod_lt _ (by decide)⟩ w
  | .hifRqHead => s.newRqHead ⟨a.i % 64, Nat.mod_lt _ (by decide)⟩ w
  | .partCtrl => s.partCtrlWrite (partOf a.i) v
  | .survLogTail => s.newLogTail (partOf a.i) w
  | .aszCtrl => s.aszCtrlWrite (partOf a.i) v
  | .aszPromoteClr => s.onAssize (partOf a.i) (fun x => { x with
      clears := if x.clears.contains (v % 4096) then x.clears else x.clears ++ [v % 4096] })
  | .govCapWatts => s.writeCap .govCapWatts v
  | .govBoardCap => s.writeCap .govBoardCap v
  | .govStatus => s.clearFlags .govStatus v
  | _ => s.dropWrite r 0 a

/-- Blocks FAB to EVT. -/
def State.ownMid (s : State) (r : Requester) (a : RegAt) (v : Nat) : State :=
  match a.reg with
  | .fabRank => s.newRank false (BitVec.ofNat 32 v)
  | .fabDomain => s.newRank true (BitVec.ofNat 32 v)
  | .fabPortCtrl => s.portCtrl (fportOf a.i) v
  | .rclPortCtrl => s.rclCtrl (rportOf a.i) v
  | .rclCohCtrl => s.asPart r (fun p => s.cohCtrl p (rportOf a.i) v)
  | .rclCohBase => s.cohRangeWrite r a v
  | .rclCohSize => s.cohRangeWrite r a v
  | .evtCtrl => s.evtCtrlWrite r a.i (bitOf v 0)
  | .evtBase | .evtSize => if s.regN .evtCtrl a.i % 2 = 1 then s.dropWrite r 0 a else s.plainWrite a v
  | .evtHead => s.evtHeadWrite r a.i (v % 2 ^ 32)
  | _ => s.ownLow r a v

/-- Blocks SEC to DBG, and the rest. -/
def State.ownAct (s : State) (r : Requester) (a : RegAt) (v : Nat) : State :=
  match a.reg with
  | .secLock => s.lockWrite v
  | .secKeyRevoke => s.revokeKey (v % 4)
  | .secSvnCommit => s.commitSvn (v % 128)
  | .secRecoveryCtrl => if bitOf v 0 && s.inRecovery then s.recoveryGo else s
  | .secFlashCtrl => s.flashCtrl (v % 8) (bitsOf v 63 32) (bitsOf v 28 16)
  | .secFlashBuf => s.plainWrite a v
  | .secAttestCtrl => if bitOf v 0 then s.attestGo ⟨a.i % 5, Nat.mod_lt _ (by decide)⟩ else s
  | .mgtAlertStatus => s.clearFlags .mgtAlertStatus v
  | .dbgStopCtrl => s.asPart r (fun p => s.writeStopCtrl p (unitOf a.i) v)
  | .dbgStopCount => s.stopCountWrite r a v
  | .dbgStopResume => if bitOf v 0 then s.asPart r (fun p => s.resumeStop p (unitOf a.i)) else s
  | _ => s.ownMid r a v

/-- What a write to a register that the requester may write does, by its access (Table 0.3, R495). A write to ASZ_WORD_BASE
lets WORD_COPY_DROPPED be logged again (R154). -/
def State.regAct (s : State) (r : Requester) (a : RegAt) (v : Nat) : State :=
  match a.reg.row.access with
  | .ro => s
  | .rwl => if s.boot.locked then s else s.dropWrite r 2 a
  | .rw => s.plainWrite a v
  | .wo => s
  | .stopped =>
    if (s.part (s.copyOwner a)).state ≠ 0 then s.dropWrite r 3 a
    else
      let s := if a.reg = .aszWordBase then s.onAssize (partOf a.i) (fun x => { x with copyLogged := false }) else s
      s.plainWrite a v
  | .idle => if s.updBusy (s.copyOwner a) then s.dropWrite r 3 a else s.plainWrite a v
  | .own => s.ownAct r a v

/-- A write of 4 or 8 bytes to an offset of the MMIO range by a requester: dropped and logged when unmapped or out of
reach, when it writes half of a 64-bit register (R8), and by the management port outside R486. -/
def State.writeMmio (s : State) (r : Requester) (off : Nat) (wide : Bool) (v : DWord) : State :=
  match regHalf off with
  | none => s.accessDropped r.val 0 (mmioAddr off)
  | some (a, upper) =>
    if !s.mayWriteReg r a then
      s.accessDropped r.val (if a.reg.row.access = .rwl ∧ s.boot.locked = false then 2 else 0) (mmioAddr off)
    else if upper || (a.reg.row.wide && !wide) then s.accessDropped r.val 1 (mmioAddr off)
    else s.regAct r a (if a.reg.row.wide then v.toNat else v.toNat % 2 ^ 32)

/-- REGISTER_WRITE (R4-R9, R494, R495). -/
def execRegisterWrite (r : Requester) (offset : BitVec 26) (wide : Bool) (value : DWord) (s : State) : Out :=
  .next (if s.live then s.writeMmio r offset.toNat wide value else s)

end Sys2Proof.Machine
end

