-- ==== Sys2Proof/Machine/Manage.lean ====
section
/-! DEFINITION. Events that sources record, the patrol scrub, fatal errors (R473, R481, R484), the management port
(R485-R488) and the JTAG port (R490). -/

namespace Sys2Proof.Machine

/-! ## Events and errors -/

/-- A corrected error is counted; ECC_CORRECTED goes out at most once per millisecond, with the count since the last
one and the first address (R481). -/
def State.eccCorrected (s : State) (src : BitVec 16) (store addr : Nat) : State :=
  let e := s.source src
  let first := if e.eccCount = 0 then addr else e.eccFirst
  let n := e.eccCount + 1
  let now := (s.time (sourceDie src.toNat)).toNat
  let due := match e.eccAt with
    | some t => decide (now ≥ t + 100000)
    | none => true
  let s := { s with mgt := { s.mgt with correctedEcc := s.mgt.correctedEcc + 1 } }
  if due then
    (s.setSource src { e with eccCount := 0, eccFirst := 0, eccAt := some now }).log src 0xF0 (f1 store ++ f4 n ++ f8 first)
  else s.setSource src { e with eccCount := n, eccFirst := first }

/-- The memory behind a patrol reader: source, store code, and the address of a line in it; 8 is the Reserve. -/
def patrolSource (ctl : Fin 9) : BitVec 16 := if ctl.val < 8 then stackSource ctl.val else reserveSource
def patrolStore (ctl : Fin 9) : Nat := if ctl.val < 8 then 0 else 2
def patrolAddr (ctl : Fin 9) (line : Nat) : Nat := (if ctl.val < 8 then ctl.val * 0x1200000000 else 0) + line * 64

/-- The line lies in the store, which has trained (Table 16.9). -/
def State.patrolled (s : State) (ctl : Fin 9) (line : Nat) : Bool :=
  decide (s.boot.stage = .firmware)
    && (if h : ctl.val < 8 then
          decide (line < 0x1200000000 / 64) && !s.boot.hbmFailed.getLsbD ctl.val && !s.boot.training.contains (.stack ⟨ctl.val, h⟩)
        else decide (line < 0x018000000000 / 64) && !s.boot.reserveFailed && !s.boot.training.contains .reserve)

/-- An uncorrectable line: its bytes are undefined and it is poisoned (Table 17.5, log 76). -/
def State.spoil (s : State) (ctl : Fin 9) (addr : Nat) : State :=
  let (bs, s) := s.freeBytes 64
  let cells := bs.zipIdx.map (fun x => (x.2, x.1))
  if ctl.val < 8 then s.storeHbm addr cells true else s.storeReserve addr cells true

/-- An uncorrectable word of scratch: its bytes are undefined and it is poisoned (Table 17.5, log 76). -/
def State.spoilScratch (s : State) (c : CoreId) (o : Nat) : State :=
  let (bs, s) := s.freeBytes 32
  s.setCore c ((s.core c).writeScratch (o / 32 * 32) bs true)

/-- What an uncorrectable error leaves in the store its event names (R481, R532): the line of HBM or of the Reserve, or
the word of the source's scratch, is poisoned; an error of another store acts through a command of its own (log 76). -/
def State.spoilStore (s : State) (src store addr : Nat) : State :=
  if store < 2 ∧ addr < 8 * 0x1200000000 then s.spoil 0 (addr / 64 * 64)
  else if store = 2 ∧ addr < 0x018000000000 then s.spoil 8 (addr / 64 * 64)
  else if store = 3 ∧ src < 0x1000 ∧ addr < 0x200000 then s.spoilScratch (BitVec.ofNat 9 (src / 8)) addr
  else s

/-- EVENT_RECORD (R472, R473): a source detects an event. ECC_UNCORRECTED tells of data that is poisoned (R481), and
both memory errors are counted (Table 17.7). -/
def execEventRecord (source : BitVec 16) (number : BitVec 8) (fields : List Byte) (s : State) : Out :=
  .next (if s.live && sourceExists source.toNat then
    if number = 0xF1 ∧ fields.length = 9 then
      let store := field fields 0 1
      let addr := field fields 1 8
      (s.spoilStore source.toNat store addr).eccUncorrected source store addr
    else if number = 0xF0 ∧ fields.length = 13 then
      let s := s.log source 0xF0 fields
      { s with mgt := { s.mgt with correctedEcc := s.mgt.correctedEcc + field fields 1 4 } }
    else s.log source number.toNat fields
  else s)

/-- PATROL_SCRUB (R481): a controller reads a line and corrects a single-bit error. -/
def execPatrolScrub (ctl : Fin 9) (line : Nat) (found : ScrubResult) (s : State) : Out :=
  .next (if s.live && s.patrolled ctl line then
    let a := patrolAddr ctl line
    match found with
    | .clean => s
    | .corrected => s.eccCorrected (patrolSource ctl) (patrolStore ctl) a
    | .uncorrected => (s.spoil ctl a).eccUncorrected (patrolSource ctl) (patrolStore ctl) a
  else s)

/-- Stores whose uncorrectable errors are fatal (Table 17.5, R532). -/
def fatalStore (store : Nat) : Bool := decide (8 ≤ store ∧ store ≤ 13)

/-- FATAL_ERROR (R484): it is logged, fatal is set, and every partition is stopped. -/
def execFatalError (iod : Iod) (store : BitVec 8) (address : DWord) (s : State) : Out :=
  .next (if s.live && fatalStore store.toNat then
    let s := s.log (firmwareSource iod) 1 (f1 store.toNat ++ f8 address.toNat)
    let s := { s with mgt := { s.mgt with fatal := true } }.raiseAlert 0
    allParts.foldl State.resetPart s
  else s)

/-! ## The management port (R485) -/

/-- The response to a request: a status and its bytes. -/
def State.answer (s : State) (status : BitVec 8) (bytes : List Byte) : State :=
  { s with mgt := { s.mgt with status := status, response := bytes.take 255 } }

/-- A request that the port hears: VAUX is good (R485). A command that needs PWR_GOOD is refused while it is low. -/
def State.mgtRequest (s : State) (needsPower : Bool) (act : State → State) : State :=
  if !s.power.vaux then s
  else if needsPower && !s.power.pwrGood then s.answer stPartState []
  else act s

/-- GET_STATUS: the two MGT registers, SEC_BOOT_STATUS and the failing rail (log 76). -/
def execGetStatus (s : State) : Out :=
  .next (s.mgtRequest false (fun s =>
    s.answer stOk (f4 s.mgtStatus ++ f4 (s.regN .mgtAlertStatus) ++ f4 s.boot.statusWord ++ f1 s.mgt.failingRail)))

/-- The value of a telemetry reading (Table 17.7) where the state holds it. -/
def State.telemetry (s : State) (i : Nat) : Option Nat :=
  if i = 2 then some (s.power.samples.foldl (fun a x => a + x) 0 / s.power.samples.length)
  else if i = 3 then some s.effectiveCap
  else if 8 ≤ i ∧ i < 12 then some (unsigned 32 (s.die (dieOf i)).reading)
  else if 0x10 ≤ i ∧ i < 0x14 then some (s.dieState (dieOf i))
  else if i = 0x18 then some s.mgt.correctedEcc
  else if i = 0x19 then some s.mgt.uncorrectedEcc
  else none

/-- Readings live before PWR_GOOD (R488). -/
def liveEarly (i : Nat) : Bool := i < 6 || (0x20 ≤ i && i < 0x3B) || (0x40 ≤ i && i < 0x5B)

/-- A reading: 32 bits and the time of its last update, which is a free value; so is a quantity the board measures
(log 76). -/
def State.reading (s : State) (i k : Nat) : List Byte :=
  if !s.power.pwrGood && !liveEarly i then f8 0
  else f4 ((s.telemetry i).getD (Config.freeValue (s.freeCount + 2 * k)) % 2 ^ 32)
    ++ f4 (Config.freeValue (s.freeCount + 2 * k + 1) % 2 ^ 32)

/-- READ_TELEMETRY (R488). -/
def execReadTelemetry (first : BitVec 8) (count : BitVec 8) (s : State) : Out :=
  .next (s.mgtRequest false (fun s =>
    if count.toNat = 0 ∨ count.toNat > 31 then s.answer stMalformed []
    else
      let bs := (upTo count.toNat).flatMap (fun k => s.reading (first.toNat + k) k)
      { s with freeCount := s.freeCount + 2 * count.toNat }.answer stOk bs))

/-- An address of the MMIO range, aligned to 4. -/
def mmioOffset (addr : Nat) : Option Nat :=
  if 0x220000000000 ≤ addr ∧ addr < 0x220004000000 ∧ addr % 4 = 0 then some (addr - 0x220000000000) else none

/-- READ_REG (R486). -/
def execReadReg (addr : VA) (s : State) : Out :=
  .next (s.mgtRequest true (fun s =>
    match mmioOffset addr.toNat with
    | none => s.answer stHandle []
    | some off =>
      let wide := match regHalf off with
        | some (a, upper) => a.reg.row.wide && !upper
        | none => true
      s.answer stOk (f8 (s.readMmio mgmtPort off wide))))

/-- WRITE_REG (R486). -/
def execWriteReg (addr : VA) (value : DWord) (s : State) : Out :=
  .next (s.mgtRequest true (fun s =>
    match mmioOffset addr.toNat with
    | none => s.answer stHandle []
    | some off => (s.writeMmio mgmtPort off true value).answer stOk []))

/-- The entries of a holding buffer, 32 bytes each; the phase bit of an entry that is not in a ring is 0 (log 76). -/
def heldEntries (hs : List HeldEvent) : List (List Byte) :=
  hs.flatMap (fun h => (upTo (entriesOf h.data)).map (fun i => entryBytes h false (decide (i = 1)) true))

/-- The memory of ring entries from an index. -/
def State.ringRanges (s : State) (n index count : Nat) : List (Nat × Nat) :=
  (upTo count).map (fun i => (s.entryAddr n ((index + i) % 2 ^ 32), 32))

/-- READ_EVENTS (Table 17.6): entries of an enabled ring from memory, else from the holding buffer. -/
def execReadEvents (source : BitVec 16) (index : BitVec 32) (count : BitVec 8) (s : State) : Out :=
  .next (s.mgtRequest true (fun s =>
    let n := source.toNat
    let p := s.sourceOwner n
    let r := s.ringRanges n index.toNat count.toNat
    if count.toNat = 0 ∨ count.toNat > 7 then s.answer stMalformed []
    else if !sourceExists n then s.answer stHandle []
    else if s.regN .evtCtrl n % 2 = 0 then
      s.answer stOk (((heldEntries (s.source source).held).drop index.toNat).take count.toNat).flatten
    else if !s.ready p r then s.ask p r
    else (s.answer stOk (r.flatMap (fun x => s.readVa p x.1 x.2))).dropHost p r))

/-- ALERT_CLEAR (R487). -/
def execAlertClear (mask : BitVec 32) (s : State) : Out :=
  .next (s.mgtRequest false (fun s => (s.clearFlags .mgtAlertStatus mask.toNat).answer stOk []))

/-- ATTEST (R467, Table 17.6): sixteen bytes of the nonce, the go of set 4, or the report from an offset. -/
def execAttest (req : AttestReq) (s : State) : Out :=
  .next (s.mgtRequest true (fun s =>
    match req with
    | .nonce q data =>
      if data.length ≠ 16 then s.answer stMalformed []
      else
        let s := s.setRegN .secAttestNonce 4 (2 * q.val) (field data 0 8)
        (s.setRegN .secAttestNonce 4 (2 * q.val + 1) (field data 8 8)).answer stOk []
    | .go => (s.attestGo mgmtPort).answer stOk []
    | .read off => s.answer stOk (s.boot.attestReport.drop off.toNat)))

/-- WARM_RESET (R445): the byte 0xA5 starts a warm reset. -/
def execWarmReset (key : Byte) (s : State) : Out :=
  .next (s.mgtRequest true (fun s =>
    if key = 0xA5 then (s.answer stOk []).warmReset else s.answer stMalformed []))

/-- GET_ID. -/
def execGetId (s : State) : Out :=
  .next (s.mgtRequest true (fun s =>
    s.answer stOk (f8 deviceId.toNat ++ Config.partNumber ++ f4 Config.romVersion.toNat)))

/-- ALERT_n is low: a bit is set and enabled (R487). -/
def State.alertLow (s : State) : Bool := s.power.vaux && decide ((s.reg .mgtAlertStatus &&& s.reg .mgtAlertMask) ≠ 0)

/-- ALERT_RESPONSE_ADDRESS (R487): the bus runs as SMBus; while ALERT_n is low the module answers with its address in
bits 7:1, bit 0 free (log 76). -/
def execAlertResponseAddress (s : State) : Out :=
  .next (s.mgtRequest false (fun s =>
    let s := { s with mgt := { s.mgt with i3c := false } }
    if s.alertLow then
      s.bumpFree.answer stOk (f1 ((0x58 + Config.mgtAddr.toNat) * 2 + Config.freeValue s.freeCount % 2))
    else s))

/-- MGT_REQUEST_MALFORMED (R485). -/
def execMgtRequestMalformed (_flaw : MgtFlaw) (s : State) : Out :=
  .next (s.mgtRequest false (fun s => s.answer stMalformed []))

/-! ## JTAG (R490) -/

/-- Load a JTAG instruction; the port runs while the module has power (log 76). -/
def State.jtagLoad (s : State) (i : JtagInstr) : State := if s.power.vaux then { s with jtag := i } else s

/-- Load an external-test instruction: BYPASS unless RESET_n is low. -/
def State.jtagTest (s : State) (i : JtagInstr) : State := s.jtagLoad (if s.power.resetLow then i else .bypass)

/-- BYPASS. -/
def execBypass (s : State) : Out := .next (s.jtagLoad .bypass)
/-- IDCODE: the register it selects is DBG_IDCODE. -/
def execIdcode (s : State) : Out := .next (s.jtagLoad .idcode)
/-- SAMPLE/PRELOAD. -/
def execSamplePreload (s : State) : Out := .next (s.jtagLoad .samplePreload)
/-- EXTEST. -/
def execExtest (s : State) : Out := .next (s.jtagTest .extest)
/-- EXTEST_PULSE. -/
def execExtestPulse (s : State) : Out := .next (s.jtagTest .extestPulse)
/-- EXTEST_TRAIN. -/
def execExtestTrain (s : State) : Out := .next (s.jtagTest .extestTrain)

/-- What IDCODE shifts out. -/
def State.idcode (s : State) : Nat := s.readReg ⟨.dbgIdcode, 0, 0⟩

end Sys2Proof.Machine
end

