-- ==== Sys2Proof/Machine/RclHost.lean ====
section
/-! DEFINITION. What the messages of a host do (R370-R384, R458): reads, writes, cached accesses, MMIO, doorbells, and
the host's answers to the device. -/

namespace Sys2Proof.Machine

/-! ## The order of messages (R375) -/

/-- A request of the receive buffer is performed: its room returns as credits, and its tag is free again (R368,
R371). -/
def State.takeReq (s : State) (k : RPort) (m : RclMsg) : State :=
  s.onRcl k (fun q => { q.free m with
    reqs := q.reqs.erase m
    hostTags := if nonPosted m.opcode then q.hostTags.erase m.tag else q.hostTags })

/-- A posted write of the port has not been performed yet: it waits at its line or for its page. -/
def State.portWaits (s : State) (k : RPort) : Bool := s.heldWrites.any (fun h => decide (h.port = some k))

/-- The next posted message, if it has this opcode: posted messages go in order, not held behind reads. -/
def State.nextPosted (s : State) (k : RPort) (op : BitVec 8) : Option RclMsg :=
  if s.portWaits k then none
  else ((s.rclPort k).reqs.find? (fun m => !nonPosted m.opcode)).filter (fun m => decide (m.opcode = op))

/-- Requests with this opcode that no posted message precedes. A write-back is no read and waits for none of them: what it
brings is owed to a snoop (R369, R381; DEDUCED, log 106). -/
def State.readsOf (s : State) (k : RPort) (op : BitVec 8) : List RclMsg :=
  if op = opWb then (s.rclPort k).reqs.filter (fun m => decide (m.opcode = op))
  else if s.portWaits k then []
  else ((s.rclPort k).reqs.takeWhile (fun m => nonPosted m.opcode)).filter (fun m => decide (m.opcode = op))

/-- Perform the next posted message of an opcode. -/
def State.postedRow (s : State) (k : RPort) (op : BitVec 8) (act : State → RclMsg → State) : State :=
  if s.live then
    match s.nextPosted k op with
    | none => s
    | some m => act (s.takeReq k m) m
  else s

/-- Perform the first request of an opcode that is ready; when none is, the oldest asks for what it waits for. -/
def State.readRow (s : State) (k : RPort) (op : BitVec 8) (ready : RclMsg → Bool) (ask : RclMsg → State)
    (act : State → RclMsg → State) : State :=
  if s.live then
    match (s.readsOf k op).find? ready with
    | some m => act (s.takeReq k m) m
    | none =>
      match s.readsOf k op with
      | m :: _ => ask m
      | [] => s
  else s

/-- The partition of a port: none before the lock (R362, R462). -/
def State.hostPart (s : State) (k : RPort) : Option Part :=
  if s.boot.stage = .locked ∨ s.boot.stage = .firmware then s.partOfRcl k else none

/-- Answer a request. -/
def State.rclAnswer (s : State) (k : RPort) (m : RclMsg) : State := s.rclSend k m

/-- Refuse a request with ADDRESS_REFUSED (R372). -/
def State.refuseHost (s : State) (k : RPort) (m : RclMsg) : State := s.rclAnswer k (rclRefusal m stAddress)

/-! ## The two ranges of registers (R184, R372) -/

/-- The object of an address of the sync-object range. -/
def syncOf (va : Nat) : SyncObj := BitVec.ofNat 15 ((va - 0x210000000000) / 64)

/-- A read of 4 or 8 bytes of a sync object's slot: 0 outside the partition's subset. -/
def State.readSlot (s : State) (p : Part) (va : Nat) (wide : Bool) : Nat :=
  let v := (s.syncValue (syncOf va)).toNat
  if !s.ownsSync p (syncOf va) then 0
  else if va % 64 = 0 then (if wide then v else v % 2 ^ 32)
  else if va % 64 = 4 ∧ wide = false then v / 2 ^ 32
  else 0

/-- A read of 4 or 8 bytes of either range. -/
def State.readWord (s : State) (p : Part) (va : Nat) (wide : Bool) : Nat :=
  if inSync va then s.readSlot p va wide else s.readMmio (partReq p) (va - 0x220000000000) wide

/-- A write of 4 or 8 bytes to either range. One that does not fill a slot's field is dropped under R8; a sum that saturates is
logged in the partition's Surveyor ring (R185). -/
def State.writeWord (s : State) (p : Part) (va : Nat) (wide : Bool) (v : DWord) : State :=
  if inSync va then
    if wide && decide (va % 8 ≠ 0) then s.accessDropped p.val 1 va
    else s.slotWrite p (syncOf va) (va % 64 / 8 * 8) wide v (surveyorSource p)
  else s.writeMmio (partReq p) (va - 0x220000000000) wide v

/-! ## Lines -/

/-- A line of either range reads as eight 64-bit accesses. -/
def State.wordLine (s : State) (p : Part) (va : Nat) : List Byte := (upTo 8).flatMap (fun j => f8 (s.readWord p (va + 8 * j) true))

/-- What a line read by a host answers: status, bytes, poison (R372, R483). -/
def State.hostRead (s : State) (p : Part) (va : Nat) : BitVec 8 × List Byte × Bool :=
  if inSync va || inMmio va then (stOk, s.wordLine p va, false)
  else match s.place p va with
    | .unmapped => (stAddress, List.replicate 64 0, false)
    | _ =>
      let x := s.readLine p va
      (if x.2 then stPoisoned else stOk, x.1, x.2)

/-- The bytes a write message names: all of a line, or those its mask selects (Table 13.7). -/
def writeCells (m : RclMsg) : List (Nat × Byte) :=
  if m.opcode = opWrPartial then
    let mask := field m.data 0 8
    (upTo 64).filterMap (fun i => if bitOf mask i then (m.data[16 + i]?).map (fun b => (i, b)) else none)
  else m.data.zipIdx.map (fun x => (x.2, x.1))

/-- A write to one 8-byte field of either range: whole, or half of it; any smaller one is no access the registers take
and is dropped as a half (log 77). -/
def State.writeField (s : State) (p : Part) (va : Nat) (cells : List (Nat × Byte)) : State :=
  let mask := cells.foldl (fun a c => a ||| 2 ^ c.1) 0
  let v := cells.foldl (fun a c => a + c.2.toNat * 2 ^ (8 * c.1)) 0
  if mask = 0 then s
  else if mask = 0xFF then s.writeWord p va true (BitVec.ofNat 64 v)
  else if mask = 0x0F then s.writeWord p va false (BitVec.ofNat 64 v)
  else if mask = 0xF0 then s.writeWord p (va + 4) false (BitVec.ofNat 64 (v / 2 ^ 32))
  else s.accessDropped p.val 1 va

/-- A line write to either range: field by field. -/
def State.writeFields (s : State) (p : Part) (va : Nat) (cells : List (Nat × Byte)) : State :=
  (upTo 8).foldl (fun s j =>
    s.writeField p (va + 8 * j) ((cells.filter (fun c => decide (c.1 / 8 = j))).map (fun c => (c.1 % 8, c.2)))) s

/-- A host writes bytes of a line (R180, R372): registers, the unused half of a scratch window, memory; none where the
write is refused. -/
def State.hostWrite (s : State) (p : Part) (k : RPort) (va : Nat) (cells : List (Nat × Byte)) (poison : Bool) : Option State :=
  if inSync va || inMmio va then some (s.writeFields p va cells)
  else match s.place p va with
    | .unmapped => none
    | _ => if s.writable p va then some (s.writeLine p va cells poison none [] (some k)) else none

/-! ## Recovery over port A (R458) -/

/-- The recovery image's range. -/
def inBootSram (va : Nat) : Bool := decide (va < 0x1000000)

/-- Port A serves recovery. -/
def State.recoveryPort (s : State) (k : RPort) : Bool := decide (k.val = 0) && s.inRecovery

/-- An address of the SEC block. -/
def inSec (va : Nat) : Bool := decide (0x220000C00000 ≤ va ∧ va < 0x220000D00000)

/-- A write of bytes to boot SRAM. -/
def State.sramWrite (s : State) (va : Nat) (cells : List (Nat × Byte)) : State :=
  { s with boot := { s.boot with bootSram := storeCells s.boot.bootSram va cells } }

/-- A read and a write of a SEC register in recovery; no partition is bound yet, and drops are logged as of requester 0
(log 78). -/
def State.secRead (s : State) (va : Nat) (wide : Bool) : Nat :=
  match regHalf (va - 0x220000000000) with
  | none => 0
  | some (a, upper) =>
    let v := s.readReg a
    if upper then (if wide then 0 else v / 2 ^ 32) else if wide then v else v % 2 ^ 32
def State.secWrite (s : State) (va : Nat) (wide : Bool) (v : DWord) : State :=
  match regHalf (va - 0x220000000000) with
  | none => s.accessDropped 0 0 va
  | some (a, upper) =>
    if upper || (a.reg.row.wide && !wide) then s.accessDropped 0 1 va
    else s.regAct 0 a (if a.reg.row.wide then v.toNat else v.toNat % 2 ^ 32)

/-! ## Uncached reads and writes -/

/-- RD_UNC (R370, R372): a line of device memory. -/
def execRdUnc (port : RPort) (s : State) : Out :=
  .next (s.readRow port opRdUnc
    (fun m => match s.hostPart port with
      | some p => s.ready p [(m.addr.toNat, 64)]
      | none => true)
    (fun m => match s.hostPart port with
      | some p => s.ask p [(m.addr.toNat, 64)]
      | none => s)
    (fun s m => match s.hostPart port with
      | none => s.refuseHost port m
      | some p =>
        let (st, bs, poison) := s.hostRead p m.addr.toNat
        (s.dropHost p [(m.addr.toNat, 64)]).rclAnswer port (rclReply opData m st bs poison)))

/-- A posted write of a line. -/
def State.hostWriteMsg (s : State) (port : RPort) (m : RclMsg) : State :=
  match s.hostPart port with
  | none =>
    if s.recoveryPort port && inBootSram m.addr.toNat then s.sramWrite m.addr.toNat (writeCells m) else s.refuseHost port m
  | some p => (s.hostWrite p port m.addr.toNat (writeCells m) m.poison).getD (s.refuseHost port m)

/-- WR_LINE. -/
def execWrLine (port : RPort) (s : State) : Out := .next (s.postedRow port opWrLine (fun s m => s.hostWriteMsg port m))

/-- WR_PARTIAL: the masked bytes, in one atomic update of the line. -/
def execWrPartial (port : RPort) (s : State) : Out := .next (s.postedRow port opWrPartial (fun s m => s.hostWriteMsg port m))

/-! ## Cached accesses (R376-R381) -/

/-- The HBM line of an address. -/
def State.lineOf (s : State) (p : Part) (va : Nat) : Option Nat :=
  match s.place p va with
  | .hbm a => some (a / 64)
  | _ => none

/-- Entries of an I/O die's filter in a line's set (R379): 131,072 sets of 16. -/
def State.filterSet (s : State) (i : Iod) (line : Nat) : List (Nat × FilterEntry) :=
  s.filters.filter (fun e => decide (e.1 % 2 = i.val) && decide (Config.filterSet (e.1 / 2) % 131072 = Config.filterSet line % 131072))

/-- The oldest entry of a full set, when the line has no entry yet. -/
def State.victim (s : State) (i : Iod) (line : Nat) : Option Nat :=
  let set := s.filterSet i line
  if set.any (fun e => decide (e.1 / 2 = line)) || decide (set.length < 16) then none
  else match set with
    | [] => none
    | e :: r => some ((r.foldl (fun a x => if x.2.age < a.2.age then x else a) e).1 / 2)

/-- The cached read of a port with this tag comes first at a line: no snoop of the line is unanswered and no request waits
there before it (R381). -/
def State.myTurn (s : State) (k : RPort) (tag : BitVec 12) (line : Nat) : Bool :=
  !s.snooped line && (match s.heldWrites.find? (fun h => decide (h.line = some line)) with
    | some h => h.claim.any (fun (c : RPort × BitVec 12 × Bool) => decide (c.1 = k ∧ c.2.1 = tag))
    | none => true)

/-- A cached read can be answered now. -/
def State.grantReady (s : State) (k : RPort) (tag : BitVec 12) (line : Nat) (own : Bool) : Bool :=
  s.myTurn k tag line && (s.inTheWay k line own).isEmpty && (s.victim (rclIod k) line).isNone

/-- A cached read takes its place at its line, once, and asks for what it waits for: the hosts in its way give the line up,
and a full set its oldest entry (R379-R381). -/
def State.grantAsk (s : State) (k : RPort) (p : Part) (m : RclMsg) (line : Nat) (own : Bool) : State :=
  let s := if s.heldWrites.any (fun h => decide (h.claim = some (k, m.tag, own))) then s
    else { s with heldWrites := s.heldWrites ++ [⟨p, m.addr.toNat, [], [], false, some line, none, none, some (k, m.tag, own)⟩] }
  let s := s.drainLine line 1
  match s.victim (rclIod k) line with
  | none => s
  | some v => ((s.holders v).filter (fun j => decide (rclIod j = rclIod k))).foldl (fun s j => s.sendSnoop j v true) s

/-- A cached read leaves its place at a line. -/
def State.dropClaim (s : State) (k : RPort) (tag : BitVec 12) : State :=
  { s with heldWrites := s.heldWrites.filter (fun h =>
      !h.claim.any (fun (c : RPort × BitVec 12 × Bool) => decide (c.1 = k ∧ c.2.1 = tag))) }

/-- The port has agreed on coherent caching (R364). -/
def RclPort.coherent (q : RclPort) : Bool := q.features.getLsbD 0

/-- What stops a cached read: 0 the port is unbound, 1 it is no cached access of the port, 2 the page is not HBM or may
not be written by an owner (log 77), 3 the port has not negotiated coherent caching (R386). -/
def State.grantStop (s : State) (k : RPort) (va : Nat) (own : Bool) : Option Nat :=
  match s.hostPart k with
  | none => some 0
  | some p =>
    if !s.cacheable k va then some 1
    else if !(s.rclPort k).coherent then some 3
    else if (s.lineOf p va).isNone || (own && !s.writable p va) then some 2
    else none

/-- The line of a cached read that nothing stops. -/
def State.grantLine (s : State) (k : RPort) (va : Nat) : Nat := ((s.hostPart k).bind (fun p => s.lineOf p va)).getD 0

/-- RD_SHARED and RD_OWN: the line's data, which the host then holds (R378); what waits behind it at the line goes on. -/
def State.cachedRead (s : State) (k : RPort) (op : BitVec 8) (own : Bool) : State :=
  s.readRow k op
    (fun m => (s.grantStop k m.addr.toNat own).isSome || s.grantReady k m.tag (s.grantLine k m.addr.toNat) own)
    (fun m => s.grantAsk k ((s.hostPart k).getD 0) m (s.grantLine k m.addr.toNat) own)
    (fun s m =>
      let line := s.grantLine k m.addr.toNat
      let s := s.dropClaim k m.tag
      match s.grantStop k m.addr.toNat own with
      | some 1 => ((s.rclViolation k rclVioRegion m stNotCoherent).rclIsolateCheck k).settleLine line
      | some 3 => ((s.rclViolation k rclVioFeature m stMalformed).rclIsolateCheck k).settleLine line
      | some _ => (s.refuseHost k m).settleLine line
      | none =>
        let x := s.loadHbm (line * 64)
        ((s.rclAnswer k (rclReply opData m (if x.2 then stPoisoned else stOk) x.1 x.2)).setHolds k line
          (if own then .owned else .shared) m.addr.toNat).settleLine line)

/-- RD_SHARED. -/
def execRdShared (port : RPort) (s : State) : Out := .next (s.cachedRead port opRdShared false)

/-- RD_OWN. -/
def execRdOwn (port : RPort) (s : State) : Out := .next (s.cachedRead port opRdOwn true)

/-- An enabled region of the port holds the address, its recall running or not. -/
def State.inEnabled (s : State) (k : RPort) (va : Nat) : Bool := (upTo 8).any (fun n => s.cohEnabled k n && s.inRegion k n va)

/-- The line a port's host holds under an address. -/
def State.heldLine (s : State) (k : RPort) (va : Nat) : Option Nat := ((s.portLines k).find? (fun x => decide (x.2 = va))).map Prod.fst

/-- A write-back of a line (R378, R381): Owned data is taken as the line's value and the line given up, also while a snoop of
it is outstanding, which then completes without data. -/
def State.writeBack (s : State) (k : RPort) (m : RclMsg) : State :=
  match s.heldLine k m.addr.toNat with
  | none => s
  | some line =>
    if s.holds k line ≠ .owned then s
    else
      let s := (s.storeHbm (line * 64) (writeCells m) m.poison).setHolds k line .invalid 0
      let s := { s with snoops := s.snoops.map (fun (n : Snoop) => if n.port = k ∧ n.line = line then { n with wbTaken := true } else n) }
      (s.settleLine line).settleRegions k

/-- WB. -/
def execWb (port : RPort) (s : State) : Out :=
  .next (s.readRow port opWb (fun _ => true) (fun _ => s) (fun s m =>
    if (s.hostPart port).isNone then s.refuseHost port m
    else if !s.inEnabled port m.addr.toNat then (s.rclViolation port rclVioRegion m stNotCoherent).rclIsolateCheck port
    else if !(s.rclPort port).coherent then (s.rclViolation port rclVioFeature m stMalformed).rclIsolateCheck port
    else (s.writeBack port m).rclAnswer port (rclReply opCmp m stOk [] false)))

/-- EVICT_CLEAN (R378): a Shared line is dropped. -/
def execEvictClean (port : RPort) (s : State) : Out :=
  .next (s.postedRow port opEvictClean (fun s m =>
    if (s.hostPart port).isNone then s.refuseHost port m
    else match s.heldLine port m.addr.toNat with
      | none => s
      | some line =>
        if s.holds port line = .shared then ((s.setHolds port line .invalid 0).settleLine line).settleRegions port else s))

/-! ## MMIO (R370, R372) and doorbells (R384) -/

/-- The size of an MMIO access in bytes. -/
def mmioBytes (m : RclMsg) : Nat := if m.sub.getLsbD 0 then 8 else 4

/-- What an MMIO_RD reads: registers and slots; a memory address reads its bytes; none where it is refused. -/
def State.mmioRead (s : State) (p : Part) (m : RclMsg) : Option (Nat × Bool) :=
  let va := m.addr.toNat
  if inSync va || inMmio va then some (s.readWord p va (m.sub.getLsbD 0), false)
  else match s.place p va with
    | .unmapped => none
    | _ => some (leNat (s.readVa p va (mmioBytes m)), s.poisoned p va (mmioBytes m))

/-- MMIO_RD. -/
def execMmioRd (port : RPort) (s : State) : Out :=
  .next (s.readRow port opMmioRd
    (fun m => match s.hostPart port with
      | some p => s.ready p [(m.addr.toNat, mmioBytes m)]
      | none => true)
    (fun m => match s.hostPart port with
      | some p => s.ask p [(m.addr.toNat, mmioBytes m)]
      | none => s)
    (fun s m => match s.hostPart port with
      | none =>
        if s.recoveryPort port && inSec m.addr.toNat then
          s.rclAnswer port (rclReply opDataMmio m stOk (leBytes 16 (s.secRead m.addr.toNat (m.sub.getLsbD 0))) false)
        else s.refuseHost port m
      | some p =>
        match s.mmioRead p m with
        | none => s.refuseHost port m
        | some (v, poison) =>
          (s.dropHost p [(m.addr.toNat, mmioBytes m)]).rclAnswer port
            (rclReply opDataMmio m (if poison then stPoisoned else stOk) (leBytes 16 v) poison)))

/-- MMIO_WR. -/
def execMmioWr (port : RPort) (s : State) : Out :=
  .next (s.postedRow port opMmioWr (fun s m =>
    let va := m.addr.toNat
    let n := mmioBytes m
    let v : DWord := BitVec.ofNat 64 (field m.data 0 n)
    match s.hostPart port with
    | none => if s.recoveryPort port && inSec va then s.secWrite va (m.sub.getLsbD 0) v else s.refuseHost port m
    | some p =>
      if inSync va || inMmio va then s.writeWord p va (m.sub.getLsbD 0) v
      else
        let cells := (m.data.take n).zipIdx.map (fun x => (va % 64 + x.2, x.1))
        (s.hostWrite p port (va / 64 * 64) cells m.poison).getD (s.refuseHost port m)))

/-- DOORBELL (R384, R397). -/
def execDoorbell (port : RPort) (s : State) : Out :=
  .next (s.postedRow port opDoorbell (fun s m =>
    let r := m.addr.toNat % 4096
    match s.hostPart port with
    | none => s.refuseHost port m
    | some p =>
      if h : r < 64 then
        if s.ownsRing p r then s.newSqTail ⟨r, h⟩ m.aux else s.refuseHost port m
      else s.refuseHost port m))

/-! ## Responses of the host (R371, R373, R380-R382) -/

/-- A response of the receive buffer is consumed. -/
def State.takeRsp (s : State) (k : RPort) (m : RclMsg) : State := s.onRcl k (fun q => { q.free m with rsps := q.rsps.erase m })

/-- The unanswered snoop a response answers. -/
def State.snoopOf (s : State) (k : RPort) (m : RclMsg) : Option Snoop :=
  s.snoops.find? (fun n => n.sent && decide (n.port = k ∧ n.tag = m.tag))

/-- A response to a snoop is not taken while a write-back of its line waits in the port's buffer: its data come first
(R381). -/
def State.afterWb (s : State) (k : RPort) (m : RclMsg) : Bool :=
  !(s.snoopOf k m).any (fun n => (s.rclPort k).reqs.any (fun w => w.opcode = opWb && decide (w.addr.toNat = n.va)))

/-- Take the first response of an opcode. -/
def State.rspRow (s : State) (k : RPort) (op : BitVec 8) (act : State → RclMsg → State) : State :=
  if s.live then
    match (s.rclPort k).rsps.find? (fun m => decide (m.opcode = op) && (!(op = opSnpRsp || op = opSnpRspData) || s.afterWb k m)) with
    | none => s
    | some m => act (s.takeRsp k m) m
  else s

/-- A response that no request awaits is a violation. -/
def State.strayRsp (s : State) (k : RPort) (cause : Nat) (m : RclMsg) : State :=
  (s.rclViolation k cause m stMalformed).rclIsolateCheck k

/-- CMP: the device sends nothing that a host completes so. -/
def execCmp (port : RPort) (s : State) : Out := .next (s.rspRow port opCmp (fun s m => s.strayRsp port rclVioResponse m))

/-- A line of host memory lands where it was read for, poisoned if its answer says so (R373). -/
def State.landLine (s : State) (k : RPort) (r : HostRead) (bs : List Byte) (poison : Bool) : State :=
  match r.landing with
  | .buffer => s.onRcl k (fun q => { q with hostBuf := q.hostBuf ++ [⟨r.addr, bs, poison⟩] })
  | .page p page line =>
    match (s.part p).migrations.find? (fun m => m.started && decide (m.page = page)) with
    | none => s
    | some m =>
      let s := s.storeHbm (m.newFrame * pageSize + line * 64) (bs.zipIdx.map (fun x => (x.2, x.1))) poison
      (s.onMigration p page (fun m => { m with inFlight := m.inFlight - 1 })).pumpPage p page 4096

/-- DATA: the answer to a device read. -/
def execData (port : RPort) (s : State) : Out :=
  .next (s.rspRow port opData (fun s m =>
    match (s.rclPort port).reads.find? (fun r => decide (r.tag = m.tag)) with
    | none => s.strayRsp port rclVioResponse m
    | some r =>
      let s := (s.onRcl port (fun q => { q with reads := q.reads.filter (fun x => decide (x.tag ≠ m.tag)) })).sendWaiting port
      s.landLine port r m.data (m.poison || decide (m.status ≠ 0))))

/-- SNP_RSP: the line is given up, or kept Shared, without data. -/
def execSnpRsp (port : RPort) (s : State) : Out :=
  .next (s.rspRow port opSnpRsp (fun s m =>
    match s.snoopOf port m with
    | none => s.strayRsp port rclVioLate m
    | some n => s.endSnoop port n none))

/-- SNP_RSP_DATA: with the line's data. -/
def execSnpRspData (port : RPort) (s : State) : Out :=
  .next (s.rspRow port opSnpRspData (fun s m =>
    match s.snoopOf port m with
    | none => s.strayRsp port rclVioLate m
    | some n => s.endSnoop port n (some (m.data, m.poison || decide (m.status ≠ 0)))))

end Sys2Proof.Machine
end

