-- ==== Sys2Proof/Machine/Loads.lean ====
section
/-! DEFINITION. LD and ST (R195, R200, R483), and accesses through a scratch window (R180). -/

namespace Sys2Proof.Machine

/-- The address of an LD or ST: src0 plus the immediate (Table 7.6). -/
def ldstAddr (c : Context) (cmd : Cmd) : Nat := (src0Of c cmd + immOf cmd).toNat

/-- What the address of an LD or ST reaches. -/
inductive LdSt where
  /-- not aligned or not mapped -/
  | bad
  /-- the unused half of a scratch window, at this offset from the start of the windows (R180) -/
  | upper (o : Nat)
  /-- a sync object's slot or a register -/
  | word
  /-- memory -/
  | memory
deriving DecidableEq, Repr

/-- A register that a partition reaches starts at an MMIO offset, or its upper half (R492, R493). -/
def State.reachesOff (s : State) (p : Part) (off : Nat) : Bool :=
  match regHalf off with
  | some (a, _) => s.reaches (partReq p) a
  | none => false

/-- Where an access of a partition's thread goes (R200). -/
def State.ldstKind (s : State) (p : Part) (va : Nat) : LdSt :=
  if va % 8 ≠ 0 then .bad
  else match s.place p va with
    | .unmapped => .bad
    | .sync _ _ => .word
    | .mmio o => if s.reachesOff p o then .word else .bad
    | .scratch _ o => if o ≥ 0x200000 then .upper (va - 0x200000000000) else .memory
    | _ => .memory

/-- End an LD or ST whose address falls in the unused half of a window (R180). -/
def State.ldstUpper (s : State) (t : Thread) (q : QEntry) (cmd : Cmd) (o : Nat) : State :=
  (s.issueDone t .scalar q cmd stAbandoned).scratchRange t o

/-- LD (R200, R483): a poisoned unit leaves the register as it was. -/
def execLd (t : Thread) (s : State) : Out :=
  onThread t s (fun s => s.issueCommon t .scalar 0x1E (fun cmd q s =>
    let p := s.threadPart t
    let va := ldstAddr (s.context t) cmd
    let done (s : State) (v : Nat) : State :=
      (s.setContext t ((s.context t).setSreg (cmd.bits 1 4 0) (BitVec.ofNat 64 v))).issueDone t .scalar q cmd stOk
    match s.ldstKind p va with
    | .bad => s.issueDone t .scalar q cmd stHandle
    | .upper o => s.ldstUpper t q cmd o
    | .word => done s (s.readWord p va true)
    | .memory =>
      if !s.ready p [(va, 8)] then s.askFor t .scalar [(va, 8)]
      else
        let v := leNat (s.readVa p va 8)
        let poison := match s.place p va with
          | .scratch c o => (s.core c).scratchPoisoned o 8
          | _ => s.poisoned p va 8
        let s := s.dropHost p [(va, 8)]
        if poison then
          (s.poisonConsumed (engineSource (threadCore t) .scalar) t.toNat (s.stream t .scalar).count.toNat va).issueDone t .scalar q cmd stPoisoned
        else done s v))

/-- The address lies in the context area of the thread's own core (R200, R215). -/
def State.ownArea (s : State) (t : Thread) (p : Part) (va : Nat) : Bool :=
  match s.place p va with
  | .scratch c o => decide (c = threadCore t) && decide (o ≥ 0x1FC000)
  | _ => false

/-- ST (R200): src1 is the register even when the immediate is the offset. A store to a register or slot that is out of
reach is logged as R9 gives. -/
def execSt (t : Thread) (s : State) : Out :=
  onThread t s (fun s => s.issueCommon t .scalar 0x1F (fun cmd q s =>
    let p := s.threadPart t
    let va := ldstAddr (s.context t) cmd
    let v := (s.context t).sreg (cmd.bits 1 14 10)
    match s.ldstKind p va with
    | .bad =>
      let s := if inMmio va && decide (va % 8 = 0) then s.writeMmio (partReq p) (va - 0x220000000000) true v else s
      s.issueDone t .scalar q cmd stHandle
    | .upper o => s.ldstUpper t q cmd o
    | .word =>
      let s := if inSync va then s.slotWrite p (syncOf va) (va % 64) true v (engineSource (threadCore t) .scalar)
        else s.writeMmio (partReq p) (va - 0x220000000000) true v
      s.issueDone t .scalar q cmd stOk
    | .memory =>
      if !s.writable p va || s.ownArea t p va then s.issueDone t .scalar q cmd stHandle
      else (s.issueDone t .scalar q cmd stOk).writeVa p va (leBytes 8 v.toNat) false (some (t, .scalar))))

/-! ## Scratch windows -/

/-- The offset lies in the window of a core of the partition. -/
def State.windowOf (s : State) (p : Part) (va : Nat) : Option Nat :=
  match s.place p va with
  | .scratch _ o => some o
  | _ => none

/-- SCRATCH_WINDOW_ACCESS (R180): an agent outside the core reads or writes its window; the upper half reads 0, and a
write to it, or outside the partition's cores, is dropped and logged. -/
def execScratchWindowAccess (p : Part) (offset : BitVec 31) (a : WindowAccess) (s : State) : Out :=
  .next (if s.live then
    let va := 0x200000000000 + offset.toNat
    match a with
    | .read n => { s with windowReply := if (s.windowOf p va).isSome then s.readVa p va n else List.replicate n 0 }
    | .write data =>
      match s.windowOf p va with
      | none => s.accessDropped p.val 0 va
      | some _ => s.writeVa p va data false
  else s)

end Sys2Proof.Machine
end

