-- ==== Sys2Proof/Machine/Dispatch.lean ====
section
/-! DEFINITION. The dispatch: each command of the table to its meaning, one arm each. -/

namespace Sys2Proof.Machine

def exec (i : Instr) (s : State) : Host.Outcome State Fault Refusal :=
  match i with
  | .registerWrite r offset wide value => Sys2Proof.Machine.execRegisterWrite r offset wide value s
  | .commandFetch core upset => Sys2Proof.Machine.execCommandFetch core upset s
  | .illegalCommand t st => Sys2Proof.Machine.execIllegalCommand t st s
  | .commandSkipped t st => Sys2Proof.Machine.execCommandSkipped t st s
  | .commandComplete t st => Sys2Proof.Machine.execCommandComplete t st s
  | .nop t st => Sys2Proof.Machine.execNop t st s
  | .endStream t st => Sys2Proof.Machine.execEndStream t st s
  | .loop t st => Sys2Proof.Machine.execLoop t st s
  | .loopIterationEnd t st => Sys2Proof.Machine.execLoopIterationEnd t st s
  | .signal t st => Sys2Proof.Machine.execSignal t st s
  | .wait t st => Sys2Proof.Machine.execWait t st s
  | .reset t st => Sys2Proof.Machine.execReset t st s
  | .bankSwitch t st => Sys2Proof.Machine.execBankSwitch t st s
  | .bankSwitchTakesEffect t => Sys2Proof.Machine.execBankSwitchTakesEffect t s
  | .movi t => Sys2Proof.Machine.execMovi t s
  | .add t => Sys2Proof.Machine.execAdd t s
  | .sub t => Sys2Proof.Machine.execSub t s
  | .mul t => Sys2Proof.Machine.execMul t s
  | .and t => Sys2Proof.Machine.execAnd t s
  | .or t => Sys2Proof.Machine.execOr t s
  | .xor t => Sys2Proof.Machine.execXor t s
  | .shl t => Sys2Proof.Machine.execShl t s
  | .shr t => Sys2Proof.Machine.execShr t s
  | .sar t => Sys2Proof.Machine.execSar t s
  | .mins t => Sys2Proof.Machine.execMins t s
  | .maxs t => Sys2Proof.Machine.execMaxs t s
  | .cmpp t => Sys2Proof.Machine.execCmpp t s
  | .setp t => Sys2Proof.Machine.execSetp t s
  | .ld t => Sys2Proof.Machine.execLd t s
  | .st t => Sys2Proof.Machine.execSt t s
  | .putp t => Sys2Proof.Machine.execPutp t s
  | .getp t => Sys2Proof.Machine.execGetp t s
  | .lidx t => Sys2Proof.Machine.execLidx t s
  | .fetchAdd t => Sys2Proof.Machine.execFetchAdd t s
  | .setncw t => Sys2Proof.Machine.execSetncw t s
  | .syncOperationApplied obj => Sys2Proof.Machine.execSyncOperationApplied obj s
  | .syncWaitLong t st => Sys2Proof.Machine.execSyncWaitLong t st s
  | .syncSlotSignalWrite p obj wide value => Sys2Proof.Machine.execSyncSlotSignalWrite p obj wide value s
  | .syncSlotResetWrite p obj wide value => Sys2Proof.Machine.execSyncSlotResetWrite p obj wide value s
  | .syncSlotValueWrite p obj wide value => Sys2Proof.Machine.execSyncSlotValueWrite p obj wide value s
  | .scratchWindowAccess p offset a => Sys2Proof.Machine.execScratchWindowAccess p offset a s
  | .vadd t => Sys2Proof.Machine.execVadd t s
  | .vsub t => Sys2Proof.Machine.execVsub t s
  | .vmul t => Sys2Proof.Machine.execVmul t s
  | .vfma t => Sys2Proof.Machine.execVfma t s
  | .vdiv t => Sys2Proof.Machine.execVdiv t s
  | .vsqrt t => Sys2Proof.Machine.execVsqrt t s
  | .vrecip t => Sys2Proof.Machine.execVrecip t s
  | .vrsqrt t => Sys2Proof.Machine.execVrsqrt t s
  | .vmin t => Sys2Proof.Machine.execVmin t s
  | .vmax t => Sys2Proof.Machine.execVmax t s
  | .vminnum t => Sys2Proof.Machine.execVminnum t s
  | .vmaxnum t => Sys2Proof.Machine.execVmaxnum t s
  | .vabs t => Sys2Proof.Machine.execVabs t s
  | .vneg t => Sys2Proof.Machine.execVneg t s
  | .vcopysign t => Sys2Proof.Machine.execVcopysign t s
  | .vcmp t => Sys2Proof.Machine.execVcmp t s
  | .vexp t => Sys2Proof.Machine.execVexp t s
  | .vexp2 t => Sys2Proof.Machine.execVexp2 t s
  | .vlog t => Sys2Proof.Machine.execVlog t s
  | .vlog2 t => Sys2Proof.Machine.execVlog2 t s
  | .vtanh t => Sys2Proof.Machine.execVtanh t s
  | .vsigmoid t => Sys2Proof.Machine.execVsigmoid t s
  | .verf t => Sys2Proof.Machine.execVerf t s
  | .vsin t => Sys2Proof.Machine.execVsin t s
  | .vcos t => Sys2Proof.Machine.execVcos t s
  | .vcvt t => Sys2Proof.Machine.execVcvt t s
  | .dequant t => Sys2Proof.Machine.execDequant t s
  | .scaleGrad t => Sys2Proof.Machine.execScaleGrad t s
  | .scaleClear t => Sys2Proof.Machine.execScaleClear t s
  | .amaxScan t => Sys2Proof.Machine.execAmaxScan t s
  | .scaleForm t => Sys2Proof.Machine.execScaleForm t s
  | .tmatmul t => Sys2Proof.Machine.execTmatmul t s
  | .vredsum t => Sys2Proof.Machine.execVredsum t s
  | .vredmax t => Sys2Proof.Machine.execVredmax t s
  | .vredmin t => Sys2Proof.Machine.execVredmin t s
  | .matmul t => Sys2Proof.Machine.execMatmul t s
  | .mcombine t => Sys2Proof.Machine.execMcombine t s
  | .preloadRead core ecc => Sys2Proof.Machine.execPreloadRead core ecc s
  | .stationaryLoad core upset => Sys2Proof.Machine.execStationaryLoad core upset s
  | .tileFirstPassIssue core cycle upset => Sys2Proof.Machine.execTileFirstPassIssue core cycle upset s
  | .passIssue core upset => Sys2Proof.Machine.execPassIssue core upset s
  | .tileCommitPoint core => Sys2Proof.Machine.execTileCommitPoint core s
  | .drainOutRowRead core badColumns => Sys2Proof.Machine.execDrainOutRowRead core badColumns s
  | .tileVisible core => Sys2Proof.Machine.execTileVisible core s
  | .preemptionTakesEffect core => Sys2Proof.Machine.execPreemptionTakesEffect core s
  | .mloadA t => Sys2Proof.Machine.execMloadA t s
  | .mloadB t => Sys2Proof.Machine.execMloadB t s
  | .mloadS t => Sys2Proof.Machine.execMloadS t s
  | .mload t => Sys2Proof.Machine.execMload t s
  | .mstore t => Sys2Proof.Machine.execMstore t s
  | .mcopy t => Sys2Proof.Machine.execMcopy t s
  | .mhalo t => Sys2Proof.Machine.execMhalo t s
  | .mmask t => Sys2Proof.Machine.execMmask t s
  | .pmLoad t => Sys2Proof.Machine.execPmLoad t s
  | .statsPartialMerge d => Sys2Proof.Machine.execStatsPartialMerge d s
  | .stepEnd ring => Sys2Proof.Machine.execStepEnd ring s
  | .stepEndSnapshot p => Sys2Proof.Machine.execStepEndSnapshot p s
  | .statsSummaryArrival p => Sys2Proof.Machine.execStatsSummaryArrival p s
  | .assizeDecisionComplete p => Sys2Proof.Machine.execAssizeDecisionComplete p s
  | .aszRestore p => Sys2Proof.Machine.execAszRestore p s
  | .aszAgree p => Sys2Proof.Machine.execAszAgree p s
  | .aszPromoteClr p group => Sys2Proof.Machine.execAszPromoteClr p group s
  | .preemptHalt ring => Sys2Proof.Machine.execPreemptHalt ring s
  | .preemptEnd ring => Sys2Proof.Machine.execPreemptEnd ring s
  | .contextHalted t => Sys2Proof.Machine.execContextHalted t s
  | .resume ring => Sys2Proof.Machine.execResume ring s
  | .dbgStopArm p unit ctrl => Sys2Proof.Machine.execDbgStopArm p unit ctrl s
  | .threadDump t => Sys2Proof.Machine.execThreadDump t s
  | .dbgStopResume p unit => Sys2Proof.Machine.execDbgStopResume p unit s
  | .tensorAlloc ring => Sys2Proof.Machine.execTensorAlloc ring s
  | .tensorFree ring => Sys2Proof.Machine.execTensorFree ring s
  | .tensorFreeTakesEffect p => Sys2Proof.Machine.execTensorFreeTakesEffect p s
  | .placeHint ring => Sys2Proof.Machine.execPlaceHint ring s
  | .pageMigrationStart p => Sys2Proof.Machine.execPageMigrationStart p s
  | .pageCopyComplete p page => Sys2Proof.Machine.execPageCopyComplete p page s
  | .oldFrameFree p page => Sys2Proof.Machine.execOldFrameFree p page s
  | .setPhase ring => Sys2Proof.Machine.execSetPhase ring s
  | .setPhaseTakesEffect p => Sys2Proof.Machine.execSetPhaseTakesEffect p s
  | .phasePreferenceUpdate d => Sys2Proof.Machine.execPhasePreferenceUpdate d s
  | .offloadTrigger p h => Sys2Proof.Machine.execOffloadTrigger p h s
  | .slotOpen ring => Sys2Proof.Machine.execSlotOpen ring s
  | .slotClose ring => Sys2Proof.Machine.execSlotClose ring s
  | .slotCloseTakesEffect p => Sys2Proof.Machine.execSlotCloseTakesEffect p s
  | .kvGrowSignal p => Sys2Proof.Machine.execKvGrowSignal p s
  | .requantCopy ring => Sys2Proof.Machine.execRequantCopy ring s
  | .requantCopyStart p => Sys2Proof.Machine.execRequantCopyStart p s
  | .handoverDone p => Sys2Proof.Machine.execHandoverDone p s
  | .updateStep ring => Sys2Proof.Machine.execUpdateStep ring s
  | .updateStepRewrite ring => Sys2Proof.Machine.execUpdateStepRewrite ring s
  | .updatePassOneEntry p entry => Sys2Proof.Machine.execUpdatePassOneEntry p entry s
  | .updatePassTwoStart p => Sys2Proof.Machine.execUpdatePassTwoStart p s
  | .entryRelease p => Sys2Proof.Machine.execEntryRelease p s
  | .checkpoint ring => Sys2Proof.Machine.execCheckpoint ring s
  | .checkpointStart p => Sys2Proof.Machine.execCheckpointStart p s
  | .mirrorAck port => Sys2Proof.Machine.execMirrorAck port s
  | .checkpointAckTimeout p => Sys2Proof.Machine.execCheckpointAckTimeout p s
  | .restore ring => Sys2Proof.Machine.execRestore ring s
  | .restoreStart p => Sys2Proof.Machine.execRestoreStart p s
  | .mirrorData port => Sys2Proof.Machine.execMirrorData port s
  | .mirrorWrite port => Sys2Proof.Machine.execMirrorWrite port s
  | .mirrorRead port => Sys2Proof.Machine.execMirrorRead port s
  | .peerSignalDetected port => Sys2Proof.Machine.execPeerSignalDetected port s
  | .detectRetryTimer port => Sys2Proof.Machine.execDetectRetryTimer port s
  | .detectTimeout port => Sys2Proof.Machine.execDetectTimeout port s
  | .darkBeaconTimer port => Sys2Proof.Machine.execDarkBeaconTimer port s
  | .bootLaneTimeout port => Sys2Proof.Machine.execBootLaneTimeout port s
  | .param port lanes rate version => Sys2Proof.Machine.execParam port lanes rate version s
  | .laneTestComplete port ratios => Sys2Proof.Machine.execLaneTestComplete port ratios s
  | .hello port h => Sys2Proof.Machine.execHello port h s
  | .helloResendTimer port => Sys2Proof.Machine.execHelloResendTimer port s
  | .laneLockLoss port lane => Sys2Proof.Machine.execLaneLockLoss port lane s
  | .serWindowEnd port ratios => Sys2Proof.Machine.execSerWindowEnd port ratios s
  | .retrainLimitExpiry port => Sys2Proof.Machine.execRetrainLimitExpiry port s
  | .linkCtrl port credits ack nak => Sys2Proof.Machine.execLinkCtrl port credits ack nak s
  | .linkCtrlTimer port => Sys2Proof.Machine.execLinkCtrlTimer port s
  | .sequencedCellReceived port c crc fecOk => Sys2Proof.Machine.execSequencedCellReceived port c crc fecOk s
  | .replayTimer port => Sys2Proof.Machine.execReplayTimer port s
  | .isolateNotice port cause => Sys2Proof.Machine.execIsolateNotice port cause s
  | .isolateNoticeTimer port => Sys2Proof.Machine.execIsolateNoticeTimer port s
  | .putOpen port => Sys2Proof.Machine.execPutOpen port s
  | .putData port => Sys2Proof.Machine.execPutData port s
  | .putComplete port => Sys2Proof.Machine.execPutComplete port s
  | .putAck port => Sys2Proof.Machine.execPutAck port s
  | .getReq port => Sys2Proof.Machine.execGetReq port s
  | .getResp port => Sys2Proof.Machine.execGetResp port s
  | .mgmt port => Sys2Proof.Machine.execMgmt port s
  | .fabRankWrite r domain value => Sys2Proof.Machine.execFabRankWrite r domain value s
  | .fabPortRetrain r port => Sys2Proof.Machine.execFabPortRetrain r port s
  | .fabPortRelane r port => Sys2Proof.Machine.execFabPortRelane r port s
  | .fabPortWake r port => Sys2Proof.Machine.execFabPortWake r port s
  | .put ring => Sys2Proof.Machine.execPut ring s
  | .get ring => Sys2Proof.Machine.execGet ring s
  | .windowRegister ring => Sys2Proof.Machine.execWindowRegister ring s
  | .windowDeregister ring => Sys2Proof.Machine.execWindowDeregister ring s
  | .bucketDeclare ring => Sys2Proof.Machine.execBucketDeclare ring s
  | .bucketUndeclare ring => Sys2Proof.Machine.execBucketUndeclare ring s
  | .roundActivate p iod => Sys2Proof.Machine.execRoundActivate p iod s
  | .roundReady p bucket => Sys2Proof.Machine.execRoundReady p bucket s
  | .credit port => Sys2Proof.Machine.execCredit port s
  | .collData port => Sys2Proof.Machine.execCollData port s
  | .resultEnd port => Sys2Proof.Machine.execResultEnd port s
  | .abort port => Sys2Proof.Machine.execAbort port s
  | .roundTimeout p bucket => Sys2Proof.Machine.execRoundTimeout p bucket s
  | .mirrorCompareTimeout p bucket => Sys2Proof.Machine.execMirrorCompareTimeout p bucket s
  | .rclPeerSignalDetected port => Sys2Proof.Machine.execRclPeerSignalDetected port s
  | .rclDetectRetryTimer port => Sys2Proof.Machine.execRclDetectRetryTimer port s
  | .rclDetectTimeout port => Sys2Proof.Machine.execRclDetectTimeout port s
  | .rclDarkBeaconTimer port => Sys2Proof.Machine.execRclDarkBeaconTimer port s
  | .rclParamFlit port lanes rate version peer features => Sys2Proof.Machine.execRclParamFlit port lanes rate version peer features s
  | .rclLaneTestComplete port ratios => Sys2Proof.Machine.execRclLaneTestComplete port ratios s
  | .rclFlitReceived port head body marks => Sys2Proof.Machine.execRclFlitReceived port head body marks s
  | .rclReplayTimer port => Sys2Proof.Machine.execRclReplayTimer port s
  | .rclRetrainLimitExpiry port => Sys2Proof.Machine.execRclRetrainLimitExpiry port s
  | .rclIsolateTimer port => Sys2Proof.Machine.execRclIsolateTimer port s
  | .rdUnc port => Sys2Proof.Machine.execRdUnc port s
  | .rdShared port => Sys2Proof.Machine.execRdShared port s
  | .rdOwn port => Sys2Proof.Machine.execRdOwn port s
  | .wrLine port => Sys2Proof.Machine.execWrLine port s
  | .wrPartial port => Sys2Proof.Machine.execWrPartial port s
  | .wb port => Sys2Proof.Machine.execWb port s
  | .evictClean port => Sys2Proof.Machine.execEvictClean port s
  | .mmioRd port => Sys2Proof.Machine.execMmioRd port s
  | .mmioWr port => Sys2Proof.Machine.execMmioWr port s
  | .doorbell port => Sys2Proof.Machine.execDoorbell port s
  | .cmp port => Sys2Proof.Machine.execCmp port s
  | .data port => Sys2Proof.Machine.execData port s
  | .snpRsp port => Sys2Proof.Machine.execSnpRsp port s
  | .snpRspData port => Sys2Proof.Machine.execSnpRspData port s
  | .snoopTimeout port => Sys2Proof.Machine.execSnoopTimeout port s
  | .eventHoldoffExpiry source => Sys2Proof.Machine.execEventHoldoffExpiry source s
  | .cohRegionEnable p port region => Sys2Proof.Machine.execCohRegionEnable p port region s
  | .cohRegionDisable p port region => Sys2Proof.Machine.execCohRegionDisable p port region s
  | .rclPortRetrain r port => Sys2Proof.Machine.execRclPortRetrain r port s
  | .rclPortRelane r port => Sys2Proof.Machine.execRclPortRelane r port s
  | .rclPortWake r port => Sys2Proof.Machine.execRclPortWake r port s
  | .nopPacket ring => Sys2Proof.Machine.execNopPacket ring s
  | .malformedPacket ring => Sys2Proof.Machine.execMalformedPacket ring s
  | .launch ring => Sys2Proof.Machine.execLaunch ring s
  | .launchComplete p => Sys2Proof.Machine.execLaunchComplete p s
  | .copy ring => Sys2Proof.Machine.execCopy ring s
  | .queryStats ring => Sys2Proof.Machine.execQueryStats ring s
  | .packetComplete p => Sys2Proof.Machine.execPacketComplete p s
  | .admissionUnitFreed res => Sys2Proof.Machine.execAdmissionUnitFreed res s
  | .hifSqTailWrite r ring value => Sys2Proof.Machine.execHifSqTailWrite r ring value s
  | .hifRqHeadWrite r ring value => Sys2Proof.Machine.execHifRqHeadWrite r ring value s
  | .survLogTailWrite p value => Sys2Proof.Machine.execSurvLogTailWrite p value s
  | .partStart r p => Sys2Proof.Machine.execPartStart r p s
  | .partReset r p => Sys2Proof.Machine.execPartReset r p s
  | .partitionStopped p => Sys2Proof.Machine.execPartitionStopped p s
  | .railWindowEnd d loopMilliamps estMilliamps estWatts measWatts monitored => Sys2Proof.Machine.execRailWindowEnd d loopMilliamps estMilliamps estWatts measWatts monitored s
  | .railHardLimitTrip rail => Sys2Proof.Machine.execRailHardLimitTrip rail s
  | .pllChangeComplete d => Sys2Proof.Machine.execPllChangeComplete d s
  | .railSlewComplete d => Sys2Proof.Machine.execRailSlewComplete d s
  | .capWindowEnd samples => Sys2Proof.Machine.execCapWindowEnd samples s
  | .govCapWattsWrite r value => Sys2Proof.Machine.execGovCapWattsWrite r value s
  | .govBoardCapWrite r value => Sys2Proof.Machine.execGovBoardCapWrite r value s
  | .thermalSensorRead d readings => Sys2Proof.Machine.execThermalSensorRead d readings s
  | .thermalWindowEnd d => Sys2Proof.Machine.execThermalWindowEnd d s
  | .thermalTrip unit centidegrees => Sys2Proof.Machine.execThermalTrip unit centidegrees s
  | .pwrEnRise => Sys2Proof.Machine.execPwrEnRise s
  | .railGood => Sys2Proof.Machine.execRailGood s
  | .powerUpTimeout => Sys2Proof.Machine.execPowerUpTimeout s
  | .regulatorFault rail => Sys2Proof.Machine.execRegulatorFault rail s
  | .pwrEnFall => Sys2Proof.Machine.execPwrEnFall s
  | .inputOutOfRange millivolts microseconds => Sys2Proof.Machine.execInputOutOfRange millivolts microseconds s
  | .brdRefclkLoss => Sys2Proof.Machine.execBrdRefclkLoss s
  | .fabRefclkLoss iod => Sys2Proof.Machine.execFabRefclkLoss iod s
  | .rclRefclkLoss iod => Sys2Proof.Machine.execRclRefclkLoss iod s
  | .resetNLow => Sys2Proof.Machine.execResetNLow s
  | .resetNRise => Sys2Proof.Machine.execResetNRise s
  | .bootRomStart bootSel => Sys2Proof.Machine.execBootRomStart bootSel s
  | .identityKeysReady => Sys2Proof.Machine.execIdentityKeysReady s
  | .bootCodeStart => Sys2Proof.Machine.execBootCodeStart s
  | .bootWatchdogExpiry => Sys2Proof.Machine.execBootWatchdogExpiry s
  | .secRecoveryGo r => Sys2Proof.Machine.execSecRecoveryGo r s
  | .secLockSet => Sys2Proof.Machine.execSecLockSet s
  | .deviceFirmwareStart => Sys2Proof.Machine.execDeviceFirmwareStart s
  | .memoryTrainingComplete part ok => Sys2Proof.Machine.execMemoryTrainingComplete part ok s
  | .secKeyRevoke r slot => Sys2Proof.Machine.execSecKeyRevoke r slot s
  | .secSvnCommit r v => Sys2Proof.Machine.execSecSvnCommit r v s
  | .flashRead r offset length => Sys2Proof.Machine.execFlashRead r offset length s
  | .flashProgram r offset length => Sys2Proof.Machine.execFlashProgram r offset length s
  | .flashErase r offset => Sys2Proof.Machine.execFlashErase r offset s
  | .flashRequestComplete error => Sys2Proof.Machine.execFlashRequestComplete error s
  | .secAttestGo r => Sys2Proof.Machine.execSecAttestGo r s
  | .attestReportWritten => Sys2Proof.Machine.execAttestReportWritten s
  | .eventRecord source number fields => Sys2Proof.Machine.execEventRecord source number fields s
  | .evtEnable r source => Sys2Proof.Machine.execEvtEnable r source s
  | .evtHeadWrite r source value => Sys2Proof.Machine.execEvtHeadWrite r source value s
  | .patrolScrub ctl line found => Sys2Proof.Machine.execPatrolScrub ctl line found s
  | .fatalError iod store address => Sys2Proof.Machine.execFatalError iod store address s
  | .getStatus => Sys2Proof.Machine.execGetStatus s
  | .readTelemetry first count => Sys2Proof.Machine.execReadTelemetry first count s
  | .readReg addr => Sys2Proof.Machine.execReadReg addr s
  | .writeReg addr value => Sys2Proof.Machine.execWriteReg addr value s
  | .readEvents source index count => Sys2Proof.Machine.execReadEvents source index count s
  | .alertClear mask => Sys2Proof.Machine.execAlertClear mask s
  | .attest req => Sys2Proof.Machine.execAttest req s
  | .warmReset key => Sys2Proof.Machine.execWarmReset key s
  | .getId => Sys2Proof.Machine.execGetId s
  | .bypass => Sys2Proof.Machine.execBypass s
  | .idcode => Sys2Proof.Machine.execIdcode s
  | .samplePreload => Sys2Proof.Machine.execSamplePreload s
  | .extest => Sys2Proof.Machine.execExtest s
  | .extestPulse => Sys2Proof.Machine.execExtestPulse s
  | .extestTrain => Sys2Proof.Machine.execExtestTrain s
  | .rclPeerSignalLoss port => Sys2Proof.Machine.execRclPeerSignalLoss port s
  | .rclParamTimeout port => Sys2Proof.Machine.execRclParamTimeout port s
  | .fabRefclkReturn iod => Sys2Proof.Machine.execFabRefclkReturn iod s
  | .alertResponseAddress => Sys2Proof.Machine.execAlertResponseAddress s
  | .mgtRequestMalformed flaw => Sys2Proof.Machine.execMgtRequestMalformed flaw s

end Sys2Proof.Machine
end

