-- ==== Sys2Proof/Machine/Step.lean ====
section
/-! DEFINITION. One step: the command at the front of the queue, or a tick of the 100 MHz reference. -/

namespace Sys2Proof.Machine

/-- A tick of the board reference: the counter of every die that is out of reset advances (R479; DESIGN
CHOICE, log 4). -/
def State.tick (s : State) : State :=
  if s.live && s.power.brdRefclk then
    { s with dieTime := (List.range 7).foldl (fun m d => Sparse.set 0 m d (Sparse.get 0 m d + 1)) s.dieTime }
  else s

/-- One step: take the command at the front of the queue and run it with the queue's rest; with no command
waiting, a tick passes. -/
def step (s : State) : Host.Outcome State Fault Refusal :=
  match s.pending with
  | [] => .next s.tick
  | c :: rest => exec c { s with pending := rest }

/-- The state with the command that a word spells put at the front of its queue; a word that spells none
leaves the state. -/
def State.withFetchWord (s : State) (nbits w : Nat) : State :=
  match decodeTableWord nbits w with
  | some c => { s with pending := c :: s.pending }
  | none => s

end Sys2Proof.Machine
end

