-- ==== Sys2Proof/WellFormed.lean ====
section
/-! DEFINITION. Which commands stand for something that can happen: a thread or core that a die has, and lists with one
entry for each lane, rail, sensor or channel they speak of. -/

namespace Sys2Proof

/-- Core numbers 0-79 exist on a die (R22). -/
def CoreId.wf (c : CoreId) : Bool := decide (c.toNat % 128 < 80)

/-- A thread of an existing core (R23). -/
def Thread.wf (t : Thread) : Bool := decide (t.toNat / 64 % 128 < 80)

/-- An access through a scratch window: 1 to 64 bytes within one line (R180). -/
def WindowAccess.wf (offset : BitVec 31) : WindowAccess → Bool
  | .read n => decide (1 ≤ n ∧ offset.toNat % 64 + n ≤ 64)
  | .write d => decide (1 ≤ d.length ∧ offset.toNat % 64 + d.length ≤ 64)

/-- A cell's payload is (len + 1) times 32 bytes, or none (R319). -/
def Cell.wf (c : Cell) : Bool := decide (c.payload.length = (c.len.toNat + 1) * 32) || c.payload.isEmpty

/-- The quarters of a nonce have 16 bytes (Table 17.6). -/
def AttestReq.wf : AttestReq → Bool
  | .nonce _ d => decide (d.length = 16)
  | _ => true

/-- Lists whose entries stand for lanes, rails, sensors and channels, and the sizes of what arrives. -/
def Instr.wfLists : Instr → Bool
  | .scratchWindowAccess _ offset a => a.wf offset
  | .laneTestComplete _ ratios | .serWindowEnd _ ratios => decide (ratios.length = 4)
  | .rclLaneTestComplete _ ratios => decide (ratios.length = 16)
  | .linkCtrl _ credits _ _ => decide (credits.length = 7)
  | .sequencedCellReceived _ c _ _ => c.wf
  | .rclFlitReceived _ head body marks => decide (head.length = 16 ∧ body.length = 240 ∧ marks.length ≤ 14)
  | .railWindowEnd _ amps est _ _ _ => decide (amps.length = 5 ∧ est.length = 5)
  | .thermalSensorRead _ readings => decide (readings.length = 8)
  | .drainOutRowRead _ bad => bad.all (fun k => decide (k < 144))
  | .eventRecord _ _ fields => decide (fields.length ≤ 32)
  | .attest req => req.wf
  | _ => true

/-- The core that a step of a core names. -/
def Instr.core? : Instr → Option CoreId
  | .commandFetch c _ | .preloadRead c _ | .stationaryLoad c _ | .tileFirstPassIssue c _ _ | .passIssue c _
  | .tileCommitPoint c | .drainOutRowRead c _ | .tileVisible c | .preemptionTakesEffect c => some c
  | _ => none

/-- The thread that a step of a common command names. -/
def Instr.streamThread? : Instr → Option Thread
  | .illegalCommand t _ | .commandSkipped t _ | .commandComplete t _ | .nop t _ | .endStream t _ | .loop t _
  | .loopIterationEnd t _ | .signal t _ | .wait t _ | .reset t _ | .bankSwitch t _ | .syncWaitLong t _ => some t
  | _ => none

/-- The thread that a step of an engine, or of a context, names. -/
def Instr.engineThread? : Instr → Option Thread
  | .bankSwitchTakesEffect t | .movi t | .add t | .sub t | .mul t | .and t | .or t | .xor t | .shl t | .shr t | .sar t
  | .mins t | .maxs t | .cmpp t | .setp t | .ld t | .st t | .putp t | .getp t | .lidx t | .fetchAdd t | .setncw t
  | .vadd t | .vsub t | .vmul t | .vfma t | .vdiv t | .vsqrt t | .vrecip t | .vrsqrt t | .vmin t | .vmax t | .vminnum t
  | .vmaxnum t | .vabs t | .vneg t | .vcopysign t | .vcmp t | .vexp t | .vexp2 t | .vlog t | .vlog2 t | .vtanh t
  | .vsigmoid t | .verf t | .vsin t | .vcos t | .vcvt t | .dequant t | .scaleGrad t | .scaleClear t | .amaxScan t
  | .scaleForm t | .tmatmul t | .vredsum t | .vredmax t | .vredmin t | .matmul t | .mcombine t | .mloadA t | .mloadB t
  | .mloadS t | .mload t | .mstore t | .mcopy t | .mhalo t | .mmask t | .pmLoad t | .contextHalted t | .threadDump t => some t
  | _ => none

/-- A well-formed command. -/
def Instr.wf (i : Instr) : Bool :=
  (i.core?.map CoreId.wf).getD true && (i.streamThread?.map Thread.wf).getD true
    && (i.engineThread?.map Thread.wf).getD true && i.wfLists

end Sys2Proof
end

