-- ==== Sys2Proof/Safety.lean ====
section
/-! DEFINITION. What a safe step is, in the terms the claims use: the memories and the maps of the state keep their
canonical form, a step of a well-formed command neither faults nor is refused, and what a command of an engine leaves
as it was. -/

namespace Sys2Proof.Machine

/-- A step ends in a next state. -/
def Completes (o : Host.Outcome State Fault Refusal) : Prop := ∃ t, o = .next t

/-- The memories of the device are in canonical form: HBM, Reserve, boot SRAM, flash and every core's scratch. -/
def State.memoryOk (s : State) : Bool :=
  Memory.wf s.hbm && Memory.wf s.reserve && Memory.wf s.boot.bootSram && Memory.wf s.boot.flash
    && s.cores.all (fun e => Memory.wf e.2.scratch)

/-- The registers are in canonical form: offsets strictly rising. -/
def State.regsRising (s : State) : Bool := Sparse.rising s.regs 0

/-- The core that a command needs to be there: the one it names, or that of its thread. -/
def neededCore (i : Instr) : Option CoreId := i.core?.or ((i.streamThread?.or i.engineThread?).map threadCore)

/-! ## Commands of the engines -/

/-- The command `cmd` of opcode `op` stands at the head of the stream, may issue, and its completion object, if it
has one, is the partition's own (R165, R173, R186, R195-R198). -/
structure State.Issues (s : State) (t : Thread) (st : Stream) (op : Nat) (q : QEntry) (cmd : Cmd) : Prop where
  issuable : s.issuable t st op = some (q, cmd)
  signal : s.signalBad t cmd = false

/-- The stream after its head command went into flight: the queue is one shorter and `r` runs. -/
def StreamState.took (x : StreamState) (r : Running) : StreamState := { x with queue := x.queue.tail, cur := some r }

/-- Whether a context runs, how it is halted, its bank and its grid. -/
def Context.standing (c : Context) : RunState × Option HaltInfo × Bool × Option Nat := (c.run, c.halt, c.bank, c.grid)

/-- What a command that changes only its context's own registers and its stream leaves as it was: everything but the
cores; of every core all but the contexts and the engine's last-issued mark; every other context, every other stream
of this one, and whether the context runs, its bank and its grid. -/
structure State.ContextOnly (s u : State) (t : Thread) (st : Stream) : Prop where
  state : u = { s with cores := u.cores }
  core : ∀ c, u.core c = { s.core c with
    contexts := (u.core c).contexts, issuedScalar := (u.core c).issuedScalar, issuedVector := (u.core c).issuedVector
    issuedMatrix := (u.core c).issuedMatrix, issuedMove := (u.core c).issuedMove }
  others : ∀ t', t' ≠ t → u.context t' = s.context t'
  streams : ∀ st', st' ≠ st → u.stream t st' = s.stream t st'
  run : (u.context t).standing = (s.context t).standing

/-- The registers of a context: scalar, parameter, predicates, numeric control word. -/
structure Context.SameRegs (c d : Context) : Prop where
  sregs : ∀ i, d.sreg i = c.sreg i
  params : ∀ i, d.param i = c.param i
  preds : d.preds = c.preds
  ncw : d.ncw = c.ncw

/-- A vector command that passes every check of R12: it issues, its operands' handle is good or absent, its slots,
formats, extents and scratch regions are in range, its block is not empty, what it reads is at hand, and Gauger can
take its partials (R142, R211, R241, R254). -/
structure State.VectorReady (s : State) (t : Thread) (op : VOp) (q : QEntry) (cmd : Cmd) (d : Option Desc) : Prop where
  issues : s.Issues t .vector op.opcode q cmd
  ranges : s.ready (s.threadPart t) (s.handleRanges (s.threadPart t) (vblkOf (s.context t) cmd).handle) = true
  handle : ((vblkOf (s.context t) cmd).handle = 0 ∧ op.scaled = false ∧ d = none)
    ∨ ((vblkOf (s.context t) cmd).handle ≠ 0 ∧ ∃ x, d = some x
        ∧ s.checkHandle (s.threadPart t) (vblkOf (s.context t) cmd).handle op.scaled = .ok x)
  slots : ∀ n ∈ op.slots (vblkOf (s.context t) cmd), n ≤ 23
  formats : op.fmtOk (s.context t) (vblkOf (s.context t) cmd) = true
  dims : ∀ x, d = some x → ∀ e ∈ op.dims (vblkOf (s.context t) cmd) x, e.1 < x.rank → e.2.1 ≤ e.2.2
  regions : ∀ r ∈ op.regions (vblkOf (s.context t) cmd), 0 < r.2 → r.1 + r.2 ≤ generalEnd
  full : op.empty (vblkOf (s.context t) cmd) = false
  reads : s.ready (s.threadPart t)
    (op.reads s t (vblkOf (s.context t) cmd) (d.getD (parseDesc 0 []))) = true
  lower : s.upperHalf (s.threadPart t)
    (op.reads s t (vblkOf (s.context t) cmd) (d.getD (parseDesc 0 []))) = none
  room : op.collects (vblkOf (s.context t) cmd) = true → d.isSome = true → (s.die (coreDie (threadCore t))).held.length < 4096

/-- A matrix command that passes every check at issue (R73, R107, R129, R209, R210, R241, R255): `again` is the
pre-empted command that resumes, if it is one, and the command's first tile feeds a row. -/
structure State.MatrixReady (s : State) (t : Thread) (op : Nat) (q : QEntry) (cmd : Cmd) (again : Option Running) : Prop where
  head : s.matrixHead t op = some (q, cmd, again)
  core : coreExists (threadCore t) = true
  idle : (s.core (threadCore t)).array.cmd = none
  signal : s.signalBad t cmd = false
  reads : s.ready (s.threadPart t) (s.matrixReads (s.threadPart t) (s.core (threadCore t)) cmd) = true
  handle : cmd.mHandle = 0 ∨ ∃ d, s.checkHandle (s.threadPart t) cmd.mHandle = .ok d
    ∧ (0 < d.rank → cmd.mN ≤ d.maxExtent 0) ∧ (1 < d.rank → cmd.mM ≤ d.maxExtent 1)
  slots : ∀ n ∈ cmd.mSlots, n ≤ 23
  heads : s.headBad (s.threadPart t) (s.core (threadCore t)) cmd = none
  formats : s.matrixFmtBad (s.threadPart t) (s.core (threadCore t)) cmd = false
  native : tareOf (again.elim (s.context t).ncw Running.ncw) = false
  depth : cmd.mTK ≤ 8
  acc : cmd.mAcc = true → cmd.mTM * cmd.mTN ≤ 1 ∧ (cmd.mK ≠ 0 ∨ cmd.mCombine = true)
  regions : ∀ r ∈ cmd.mRegions, 0 < r.2 → r.1 + r.2 ≤ generalEnd
  full : cmd.mM ≠ 0 ∧ cmd.mN ≠ 0 ∧ cmd.mStart < cmd.mTM * cmd.mTN
  skew : s.firstSkew (s.threadPart t) (s.core (threadCore t)) cmd = none
  fed : (s.core (threadCore t)).fedRows cmd (cmd.mRowTile cmd.mStart) ≠ []

/-- A move command that names a tensor and passes its checks (R12, R231, R241, R254): its handle is good and `d` its
descriptor, the format fits, the run-time shape is within the maxima, and the scratch region is in range. -/
structure State.MoveReady (s : State) (t : Thread) (op : Nat) (q : QEntry) (cmd : Cmd) (needScale : Bool)
    (fmtOk : Nat → Bool) (region : Nat × Nat) (d : Desc) : Prop where
  issues : s.Issues t .move op q cmd
  ranges : s.ready (s.threadPart t) (s.handleRanges (s.threadPart t) (mblkOf (s.context t) cmd).handle) = true
  handle : s.checkHandle (s.threadPart t) (mblkOf (s.context t) cmd).handle needScale = .ok d
  format : fmtOk d.fmt = true
  shape : d.overDim = none
  room : 0 < region.2 → region.1 + region.2 ≤ generalEnd

/-- Memory a move reads is at hand and none of it lies in the unused half of a window (R180). -/
structure State.Readable (s : State) (p : Part) (ranges : List (Nat × Nat)) : Prop where
  lower : s.upperHalf p ranges = none
  ready : s.ready p ranges = true

/-- Marked bytes have landed in the scratch of a move command's core from offset `off` on, and the command has ended OK: no
other scratch byte, no other core, no register and no memory changed. -/
structure State.Landed (s u : State) (t : Thread) (q : QEntry) (cmd : Cmd) (off : Nat) (bs : List (Byte × Bool)) : Prop where
  bytes : ∀ i, i < bs.length → Memory.read (u.core (threadCore t)).scratch (off + i) = (bs.getD i (0, false)).1
  others : ∀ x, x < off ∨ off + bs.length ≤ x →
    Memory.read (u.core (threadCore t)).scratch x = Memory.read (s.core (threadCore t)).scratch x
  stream : u.stream t .move = (s.stream t .move).took { s.running0 t .move q cmd with ended := true }
  cores : ∀ c, c ≠ threadCore t → u.core c = s.core c
  regs : (s.context t).SameRegs (u.context t)
  state : u.hbm = s.hbm ∧ u.reserve = s.reserve ∧ u.regs = s.regs ∧ u.sync = s.sync

/-- A range of HBM that can be written at once: every line of it lies in a writable page that is not in migration, no host
holds it, and no two lines of it are one line of HBM. -/
structure State.FreeHbm (s : State) (p : Part) (va n : Nat) : Prop where
  line : ∀ l ∈ linesOf va n, s.writable p l = true ∧ (∀ i, pageIndex l = some i → ((s.part p).page i).migrating = false)
    ∧ ∃ a, s.place p l = .hbm a ∧ s.lineBusy (a / 64) = false ∧ s.holders (a / 64) = []
  apart : ∀ l ∈ linesOf va n, ∀ l' ∈ linesOf va n, s.place p l = s.place p l' → l = l'

/-- Two ranges share no line. -/
def State.Apart (s : State) (p : Part) (a n b m : Nat) : Prop :=
  ∀ l ∈ linesOf a n, ∀ l' ∈ linesOf b m, s.place p l ≠ s.place p l'

/-! ## Host packets -/

/-- The result buffer's header that a packet names. -/
def resultRange (bs : List Byte) : List (Nat × Nat) := if pktResult bs = 0 then [] else [(pktResult bs, 16)]

/-- The packet `bs` stands at the head of `ring`, its partition `p` reads that ring next, and the memory that reading it
and doing its work needs is at hand and not poisoned (R396-R399, R482). -/
structure State.PacketAt (s : State) (ring : Ring) (p : Part) (bs : List Byte) (needs : List (Nat × Nat)) : Prop where
  part : s.partOfRing ring.val = some p
  reads : s.interprets p = true
  turn : s.nextRing p = some ring.val
  here : s.ready p (s.headRanges p ring.val) = true
  bytes : s.headPacket p ring.val = bs
  work : s.ready p (resultRange bs ++ needs) = true
  clean : ∀ r ∈ s.headRanges p ring.val, s.poisoned p r.1 r.2 = false

/-- The state once the head packet of a ring is read: the head past it, the packet held under a fresh number, its result
buffer marked pending (R397, R398, R409). -/
def State.taken (s : State) (p : Part) (ring : Ring) : State := s.takePacket p ring (fun u _ => u)

/-- What reading a packet leaves: the head moves past its entries, the packet is the partition's newest, and no packet it
had has changed. -/
structure State.Reads (s w : State) (p : Part) (ring : Ring) (bs : List Byte) (k : Packet) : Prop where
  head : w.regN .hifSqHead ring.val = (s.regN .hifSqHead ring.val + pktEntries bs) % 2 ^ 32
  packets : (w.part p).packets = (s.part p).packets ++ [k]
  fresh : ∀ x ∈ (s.part p).packets, x.id < k.id

/-- A packet's work has ended as `k'` says: it awaits its reply, it holds no unit and no place in a queue, and the
partition's other packets are as they were. -/
structure State.PacketEnds (w u : State) (p : Part) (k k' : Packet) : Prop where
  same : k'.id = k.id
  ended : k'.ended = true
  here : k' ∈ (u.part p).packets
  others : ∀ x, x.id ≠ k.id → (x ∈ (u.part p).packets ↔ x ∈ (w.part p).packets)
  reply : k.id ∈ (u.part p).finished
  units : (∀ x ∈ (u.part p).units, x.packet ≠ k.id) ∧ ∀ x ∈ (u.part p).queues, x.1 ≠ k.id

/-- A packet as it ends with a status, unless one was already given. -/
def Packet.done (k : Packet) (status : BitVec 8) : Packet := { k with ended := true, status := some (k.status.getD status) }

/-- Nothing but the partition `p` differs. -/
def State.OnlyPart (w u : State) (p : Part) : Prop := u = { w with parts := u.parts } ∧ ∀ q, q ≠ p → u.part q = w.part q

/-- A packet in work asks for a unit and is served: it has started and holds the unit, and the others are as they were. -/
structure State.PacketServed (w u : State) (p : Part) (k : Packet) (key bytes : Nat) (pool : Bool) : Prop where
  here : { k with started := true, borrowed := pool } ∈ (u.part p).packets
  unit : ⟨k.id, key, pool, bytes⟩ ∈ (u.part p).units
  others : ∀ x, x.id ≠ k.id → (x ∈ (u.part p).packets ↔ x ∈ (w.part p).packets)

/-! ## Fabric cells -/

/-- The cells a port has taken to send and its peer has not acknowledged, without their sequence numbers. -/
def FabPort.cells (q : FabPort) : List Cell :=
  (q.replay ++ q.waiting.map OutCell.cell).map (fun c => { c with seq := 0 })

/-- Between two states a port takes these cells to send, and no others. -/
def State.Sends (s u : State) (n : FPort) (cs : List Cell) : Prop :=
  (u.fab n).cells.Perm ((s.fab n).cells ++ cs.map (fun c => { c with seq := 0 }))

/-- Between two states a port consumes the received cell `c` of channel `vc`, and returns its credit (R322). -/
structure State.Consumed (s u : State) (n : FPort) (vc : Nat) (c : Cell) : Prop where
  rx : (u.fab n).rx = (s.fab n).rx.erase c
  credit : (s.fab n).returned.length = 7 →
    (u.fab n).returned.getD vc 0 = ((s.fab n).returned.getD vc 0 + 1) % 65536

/-- Nothing is in progress on a fabric port: no message, no window that waits for one, no round, no checkpoint and no
restore (R318). -/
structure State.FabQuiet (s : State) (n : FPort) : Prop where
  messages : (s.fab n).txMessages = []
  puts : (s.fab n).rxPuts = []
  windows : ∀ e ∈ s.windows, e.2.leaving = none
  rounds : ∀ p, ∀ r ∈ (s.part p).rounds, some n ∉ r.ports
  mirror : ∀ p, (s.part p).update.ckpt.all (fun j => decide (j.port ≠ n)) = true
    ∧ (s.part p).update.restore.all (fun j => decide (j.port ≠ n)) = true

/-- A fabric port as it enters BOOT on a lane: it sends its PARAM there (R314). -/
def FabPort.boots (q : FabPort) (lane : Nat) : FabPort :=
  { q with state := .boot, bootLane := lane, mode := none, lanesUsed := 0
           link := q.link ++ [mkCell tyParam 0 0 true true false q.paramPayload] }

/-- A fabric port as it enters RETRAIN: it holds its cells (R316, R317). -/
def FabPort.retrains (q : FabPort) : FabPort := { q with state := .retrain, away := true, bootLane := 0, uncorr := [] }

/-- The HELLO cell port `n` sends, once the identity keys are ready (R325, Table 16.11). -/
def State.helloCell (s : State) (n : FPort) (seen : Bool) : List Cell :=
  if s.boot.keys then [mkCell tyHello 0 0 true true false (s.helloPayload n seen)] else []

/-- Every port is in DETECT and has just sent its training pattern (Tables 11.2, 13.2). -/
structure State.PortsDetect (s : State) : Prop where
  fabric : ∀ n, (s.fab n).state = .detect ∧ (s.fab n).backoff = false ∧ (s.fab n).patterns.getLast? = some 0xF
  rcl : ∀ k, (s.rclPort k).state = .detect ∧ (s.rclPort k).backoff = false ∧ (s.rclPort k).control.getLast? = some sentPattern

/-- What a command of one fabric port leaves as it was: the other ports, the partitions, the cores, the sync objects and the
Reserve; and HBM while the port's event ring is disabled, so that what it logs is held. -/
structure State.FabOnly (s u : State) (n : FPort) : Prop where
  others : ∀ m, m ≠ n → u.fab m = s.fab m
  rest : u.parts = s.parts ∧ u.cores = s.cores ∧ u.sync = s.sync ∧ u.reserve = s.reserve
  memory : s.regN .evtCtrl (fabSource n).toNat = 0 → u.hbm = s.hbm

/-! ## The Ratil Coherent Link -/

/-- What a command of one port's link leaves as it was: the partitions, the cores, the sync objects, the Reserve and the
fabric; and HBM and the other ports while the port's event ring is disabled. -/
structure State.RclOnly (s u : State) (k : RPort) : Prop where
  rest : u.parts = s.parts ∧ u.cores = s.cores ∧ u.sync = s.sync ∧ u.reserve = s.reserve ∧ u.fabric = s.fabric
  others : s.regN .evtCtrl (rclSource k).toNat = 0 → u.hbm = s.hbm ∧ ∀ j, j ≠ k → u.rclPort j = s.rclPort j

/-- The messages a port has taken to send and its host has not acknowledged. -/
def RclPort.messages (q : RclPort) : List RclMsg := q.replay.map Prod.snd ++ q.waiting.map RclOut.msg

/-- Between two states a port takes these messages to send, and no others. -/
def State.RclSends (s u : State) (k : RPort) (ms : List RclMsg) : Prop :=
  (u.rclPort k).messages.Perm ((s.rclPort k).messages ++ ms)

/-- A port as it enters PARAM: its parameter flit, with these fields, goes out (R363, R364). -/
def RclPort.asks (q : RclPort) (params : RclControl) : RclPort :=
  { q with control := q.control ++ [params], state := .param, mode := none, lanesUsed := 0 }

/-- A port as it enters RETRAIN: it holds its flits and messages (R363). -/
def RclPort.retrains (q : RclPort) : RclPort := { q with state := .retrain, away := true, drops := [] }

/-- A port that loses its peer loses nothing more: its host holds no line, it waits for no read, no write of it is
unacknowledged, no write waits for a line, no snoop is out, and no region's recall runs (R389). -/
structure State.RclQuiet (s : State) (k : RPort) : Prop where
  lines : s.portLines k = []
  reads : (s.rclPort k).reads = []
  writes : (s.rclPort k).unacked = []
  held : s.heldWrites = []
  snoops : s.snoops = []
  regions : ∀ n, n < 8 → s.cohEnabled k n = true → s.cohRequest k n = true

/-- Between two states a port performs the request `m`: it leaves the receive buffer, its units return as credits, and its
tag is free (R368, R371). -/
structure State.Performs (s u : State) (k : RPort) (m : RclMsg) : Prop where
  reqs : (u.rclPort k).reqs = (s.rclPort k).reqs.erase m
  freed : (s.rclPort k).freed.length = 2 →
    (u.rclPort k).freed.getD 0 0 = ((s.rclPort k).freed.getD 0 0 + (rclUnits m.opcode).getD 0) % 65536
  tags : nonPosted m.opcode = true → (u.rclPort k).hostTags = (s.rclPort k).hostTags.erase m.tag

/-- No snoop is out and no write waits for a line. -/
def State.NoneWaits (s : State) : Prop := s.snoops = [] ∧ s.heldWrites = []

/-! ## The governor -/

/-- A die's core rails carry what its PLL asks of them, now and whatever change is under way (R421). Lower points are faster
and need more voltage. -/
structure DieState.Covered (q : DieState) : Prop where
  now : q.volts ≤ q.op
  change : ∀ t, q.pllTo = some t → q.volts ≤ t
  slew : ∀ t, q.slewTo = some t → t ≤ q.op ∧ ∀ t', q.pllTo = some t' → t ≤ t'

/-- What a command of one die's governor leaves as it was: the other dies, the partitions, the cores, the sync objects and
the Reserve. -/
structure State.DieOnly (s u : State) (d : Die) : Prop where
  others : ∀ e, e ≠ d → u.die e = s.die e
  rest : u.parts = s.parts ∧ u.cores = s.cores ∧ u.sync = s.sync ∧ u.reserve = s.reserve

end Sys2Proof.Machine
end

