-- ==== Sys2Proof/Certificates/Slice0/Obligations.lean ====
section
/-! DEFINITION. The statements for the provers, one definition each: what every command of the table does and
leaves alone, by family, the step, the invariants and what reset leaves. -/

open Sys2Proof Sys2Proof.Machine

/-! ## The step -/

/-- A step with a command at the front of the queue is that command's effect on the state with the rest of the queue;
with no command waiting a tick of the board reference passes: in a live module whose reference runs the counter of
every die advances by one and nothing else changes, otherwise nothing (the model's choice, log 4). -/
def Obligations.StepRunsTheFrontCommand : Prop :=
  (∀ (s : State) (c : Instr) (rest : List Instr),
     Machine.step { s with pending := c :: rest } = Machine.exec c { s with pending := rest })
    ∧ (∀ s : State, s.pending = [] →
         ∃ u, Machine.step s = .next u ∧ u = { s with dieTime := u.dieTime }
           ∧ (∀ d, d < 7 → s.live = true → s.power.brdRefclk = true → u.time d = s.time d + 1)
           ∧ (s.live = false ∨ s.power.brdRefclk = false → u = s)
           ∧ (∀ d, 7 ≤ d → u.time d = s.time d))

/-- Every command answers a next state, in every state: one that names a core or a thread, if its die has that core
(R22, R23); otherwise the command faults, for there is nothing to act on. -/
def Obligations.EveryCommandAnswersANextState : Prop :=
  ∀ (i : Instr) (s : State),
    ((∀ c, neededCore i = some c → coreExists c = true) → ∃ u, Machine.exec i s = .next u)
    ∧ (∀ c, neededCore i = some c → coreExists c = false → Machine.exec i s = .fault .noSuchCore)

/-! ## Streams -/

/-- NOP and BANK_SWITCH of any stream, and a LOOP whose count is zero, issue, do nothing else to the context's
registers, and end OK; a LOOP of count zero continues after its body with its loops as they were. A bank switch takes
effect when every stream of a running context has ended or retired BANK_SWITCH, one at least the latter, nothing is in
flight and no PM_LOAD writes the other bank: the bank flips and each switched stream goes on at its entry point (R194,
R206, R221). -/
def Obligations.NopAndBankSwitch : Prop :=
  (∀ (s : State) (t : Thread) (st : Stream) (q : QEntry) (cmd : Cmd),
     (∀ row ∈ [(Instr.nop t st, 0x00), (Instr.bankSwitch t st, 0x06)], s.Issues t st row.2 q cmd →
       ∃ u, Machine.exec row.1 s = .next u ∧ s.ContextOnly u t st ∧ (s.context t).SameRegs (u.context t)
         ∧ u.stream t st = (s.stream t st).took { s.running0 t st q cmd with ended := true })
     ∧ (s.Issues t st 0x02 q cmd → loopCount (s.context t) cmd = 0 →
       ∃ u, Machine.exec (.loop t st) s = .next u ∧ s.ContextOnly u t st ∧ (s.context t).SameRegs (u.context t)
         ∧ u.stream t st = { (s.stream t st).took { s.running0 t st q cmd with ended := true } with
             pc := q.pc.toNat + 1 + cmd.bits 1 6 0 }))
    ∧ (∀ (s : State) (t : Thread),
         coreExists (threadCore t) = true → s.live = true → (s.context t).run = .running →
         (∀ st, (s.stream t st).ended = true ∨ (s.stream t st).switchTo.isSome = true) →
         (∃ st, (s.stream t st).switchTo.isSome = true) → (s.context t).busy = false →
         (s.core (threadCore t)).bankBeingWritten (!(s.context t).bank) = false →
           ∃ u, Machine.exec (.bankSwitchTakesEffect t) s = .next u
             ∧ u = { s with cores := u.cores } ∧ (∀ t', t' ≠ t → u.context t' = s.context t')
             ∧ (u.context t).bank = !(s.context t).bank
             ∧ (∀ st e, (s.stream t st).switchTo = some e → (u.stream t st).pc = e.toNat
               ∧ (u.stream t st).switchTo = none
                 ∧ (u.stream t st).queue = [] ∧ (u.stream t st).count = (s.stream t st).count)
             ∧ (∀ st, (s.stream t st).switchTo = none → u.stream t st = s.stream t st)
             ∧ (s.context t).SameRegs (u.context t))

/-- A LOOP whose count is not zero latches its count and starts at iteration 0; the scalar stream entering its
outermost loop clears p15, and no other predicate changes. At the end of an iteration the loop goes round while
iterations are left, unless exit_on_fault is 1 and p15 is set; otherwise it is left and the stream goes on after the
body (R204, R205, R208). -/
def Obligations.LoopsGoRoundTheirBody : Prop :=
  (∀ (s : State) (t : Thread) (st : Stream) (q : QEntry) (cmd : Cmd),
     s.Issues t st 0x02 q cmd → loopCount (s.context t) cmd ≠ 0 →
       ∃ u, Machine.exec (.loop t st) s = .next u ∧ s.ContextOnly u t st
         ∧ u.stream t st = { (s.stream t st).took { s.running0 t st q cmd with ended := true } with
             pc := q.pc.toNat + 1
             loops := ⟨q.pc.toNat + 1, cmd.bits 1 6 0, loopCount (s.context t) cmd, 0, cmd.bit 1 14⟩ :: (s.stream t st).loops }
         ∧ (∀ i, i < 15 → (u.context t).pred i = (s.context t).pred i)
         ∧ (u.context t).pred 15 =
             (if st = .scalar ∧ (s.stream t st).loops = [] then false else (s.context t).pred 15)
         ∧ (∀ i, (u.context t).sreg i = (s.context t).sreg i) ∧ (u.context t).ncw = (s.context t).ncw
         ∧ (∀ i, (u.context t).param i = (s.context t).param i))
    ∧ (∀ (s : State) (t : Thread) (st : Stream) (l : LoopLevel) (rest : List LoopLevel),
         coreExists (threadCore t) = true → s.live = true → (s.context t).issues = true →
         (s.stream t st).loops = l :: rest → (s.stream t st).queue = [] → (s.stream t st).cur = none →
         (s.stream t st).reissue = none → (s.stream t st).pc = l.first + l.len →
           ∃ u, Machine.exec (.loopIterationEnd t st) s = .next u ∧ s.ContextOnly u t st
             ∧ (s.context t).SameRegs (u.context t)
             ∧ (l.iter + 1 < l.count → ¬(l.exitOnFault = true ∧ (s.context t).pred 15 = true) →
                 u.stream t st = { s.stream t st with pc := l.first, loops := { l with iter := l.iter + 1 } :: rest })
             ∧ (¬ l.iter + 1 < l.count ∨ (l.exitOnFault = true ∧ (s.context t).pred 15 = true) →
                 u.stream t st = { s.stream t st with loops := rest }))

/-- A command that its predicate does not select leaves its queue and retires with no effect: no register, no status
word and no signal; a skipped LOOP takes its whole body with it; with no stop unit at its count the context goes on.
An illegal command halts its context and is not executed; the event names the thread, the stream, the command's index
and the cause (R195, R196, R207). -/
def Obligations.SkippedAndIllegalCommands : Prop :=
  (∀ (s : State) (t : Thread) (st : Stream) (q : QEntry),
     s.mayIssue t st = true → (s.stream t st).reissue = none → s.head t st = some q → s.illegal t st q = none →
     selects (s.context t) (substitute (s.context t) st q.cmd) = false →
     s.stopUnit t st ((s.stream t st).count + 1).toNat = none →
       ∃ u, Machine.exec (.commandSkipped t st) s = .next u ∧ s.ContextOnly u t st
         ∧ (s.context t).SameRegs (u.context t)
         ∧ u.stream t st = { s.stream t st with
             queue := (s.stream t st).queue.tail
             count := (s.stream t st).count + 1
             pc := if (substitute (s.context t) st q.cmd).opcode = 0x02 then
                 q.pc.toNat + 1 + (substitute (s.context t) st q.cmd).bits 1 6 0 else (s.stream t st).pc })
    ∧ (∀ (s : State) (t : Thread) (st : Stream) (q : QEntry) (cause : Nat),
         s.mayIssue t st = true → (s.stream t st).reissue = none → s.head t st = some q →
         s.illegal t st q = some cause →
           ∃ u, Machine.exec (.illegalCommand t st) s = .next u
             ∧ u = (s.log (coreSource (threadCore t) 0) 1 (f4 t.toNat ++ f1 st.code
                   ++ f2 (if q.flaw = .pastEnd then (s.stream t st).pc else q.pc.toNat) ++ f1 cause)).haltCtx t
                 ⟨1, none, st, (s.stream t st).count, false⟩
             ∧ (u.context t).halt.isSome = true)

/-- The control core serves a fetchable stream; while some fetchable stream has an empty queue it serves one of those.
COMMAND_FETCH, when one stream alone may be fetched for, and only once: the command at its program counter in its
context's bank goes to the end of its queue and the counter advances; nothing but that stream and the served mark
changes. With no stream to fetch for nothing changes (R171, R172). -/
def Obligations.FetchKeepsTheQueuesFilled : Prop :=
  (∀ (c : Core) (n : Nat), nextFetch c = some n →
     n < 256 ∧ fetchable c n = true
       ∧ (((c.context (n / 4)).stream (streamOf n)).queue ≠ [] →
           ∀ m, m < 256 → fetchable c m = true → ((c.context (m / 4)).stream (streamOf m)).queue ≠ []))
    ∧ (∀ (s : State) (core : CoreId), coreExists core = true → s.live = true →
         (∀ upset, nextFetch (s.core core) = none → Machine.exec (.commandFetch core upset) s = .next s)
         ∧ (∀ (n : Nat) (c : Core) (x : Context) (y : StreamState) (place : Nat),
             c = s.core core → x = c.context (n / 4) → y = x.stream (streamOf n) →
             place = (if x.bank then 8192 else 0) + y.pc → nextFetch c = some n → y.pc < 8192 →
             nextFetch ((s.fetchOne core false).core core) = none →
             ∃ u, Machine.exec (.commandFetch core false) s = .next u ∧ u = { s with cores := u.cores }
               ∧ (∀ c', c' ≠ core → u.core c' = s.core c')
               ∧ u.core core = ({ c with fetched := n }.setContext (n / 4) (x.setStream (streamOf n)
                   { y with
                     pc := y.pc + 1
                     queue := y.queue ++ [QEntry.mk (Sparse.get Cmd.zero c.program place) (BitVec.ofNat 13 y.pc)
                       (if Sparse.get false c.programPoison place then .poisoned else .sound)] }))))

/-- COMMAND_COMPLETE of a command that was not pre-empted and reached no stop unit's count: its status word stands in
the context area, p12-p14 tell its outcome for an engine's own opcode, p15 is set by a fault within a loop, the
completion signal goes to its object, and the stream has retired one more; no other scratch byte, no other context and
no byte of HBM or the Reserve changes. A PREEMPTED matrix command leaves its status word, sends no signal, is not
counted, and waits to be issued again under its own number from the tile it stopped at. END leaves a status word, the
stream retires it and fetches no more; while another stream has not ended the context goes on, and after the fourth
the context is free (stated for a partition with no packet under way) (R165, R169, R170, R198, R203, R204, R216,
R217). -/
def Obligations.CommandsCompleteAndStreamsEnd : Prop :=
  (∀ (s : State) (t : Thread) (st : Stream) (r : Running),
     coreExists (threadCore t) = true → s.live = true → (s.stream t st).cur = some r → r.ended = true → r.parts = 0 →
     s.writesPending (t, st) = false → r.status ≠ stPreempted → r.cmd.opcode ≠ 0x06 →
     s.stopUnit t st ((s.stream t st).count + 1).toNat = none →
       ∃ u, Machine.exec (.commandComplete t st) s = .next u
         ∧ (u.core (threadCore t)).readScratch (ctxArea (threadCtx t) + st.code * 16) 16 = statusWord r
         ∧ (∀ o, o < ctxArea (threadCtx t) + st.code * 16 ∨ ctxArea (threadCtx t) + st.code * 16 + 16 ≤ o →
             Memory.read (u.core (threadCore t)).scratch o = Memory.read (s.core (threadCore t)).scratch o)
         ∧ u.stream t st = { s.stream t st with cur := none, count := (s.stream t st).count + 1 }
         ∧ (st ≠ .scalar → 0x06 < r.cmd.opcode →
             (u.context t).pred 12 = decide (r.status = stEmpty)
               ∧ (u.context t).pred 13 = decide (r.status = stSaturated)
             ∧ (u.context t).pred 14 = decide (r.status = stShapeOver))
         ∧ (st = .scalar ∨ r.cmd.opcode ≤ 0x06 → ∀ i, 12 ≤ i → i < 15 → (u.context t).pred i = (s.context t).pred i)
         ∧ (u.context t).pred 15 =
             ((s.context t).pred 15 || (isFault r.status && !(s.stream t st).loops.isEmpty))
         ∧ (∀ i, i < 12 → (u.context t).pred i = (s.context t).pred i)
         ∧ u.syncQueue = s.syncQueue ++
             (if r.cmd.sigEn && s.ownsSync (s.threadPart t) r.cmd.sigObj then
               [⟨r.cmd.sigObj, .signal (BitVec.ofNat 64 r.cmd.sigIncr), none, engineSource (threadCore t) st⟩] else [])
         ∧ (∀ t', t' ≠ t → u.context t' = s.context t') ∧ u.hbm = s.hbm ∧ u.reserve = s.reserve ∧ u.regs = s.regs)
    ∧ (∀ (s : State) (t : Thread) (st : Stream) (r : Running),
         coreExists (threadCore t) = true → s.live = true → (s.stream t st).cur = some r → r.ended = true →
           r.parts = 0 →
         s.writesPending (t, st) = false → r.status = stPreempted →
           ∃ u r', Machine.exec (.commandComplete t st) s = .next u
             ∧ (u.core (threadCore t)).readScratch (ctxArea (threadCtx t) + st.code * 16) 16 = statusWord r
             ∧ u.stream t st = { s.stream t st with cur := none, reissue := some r' }
             ∧ r'.seq = r.seq ∧ r'.pc = r.pc ∧ r'.ended = false ∧ r'.cmd.bits 5 31 16 = r.tile.toNat % 65536
             ∧ u.syncQueue = s.syncQueue)
    ∧ (∀ (s : State) (t : Thread) (st : Stream) (q : QEntry) (cmd : Cmd),
         s.Issues t st 0x01 q cmd → (s.part (s.threadPart t)).packets = [] → (s.context t).grid = none →
         s.stopUnit t st ((s.stream t st).count + 1).toNat = none →
           ∃ u, Machine.exec (.endStream t st) s = .next u
             ∧ (u.core (threadCore t)).readScratch (ctxArea (threadCtx t) + st.code * 16) 16
                 = statusWord { s.running0 t st q cmd with ended := true }
             ∧ (u.stream t st).ended = true ∧ (u.stream t st).cur = none
             ∧ (u.stream t st).count = (s.stream t st).count + 1
             ∧ ((∃ st', st' ≠ st ∧ (s.stream t st').ended = false) →
                 (u.context t).run = .running ∧ (∀ st', st' ≠ st → u.stream t st' = s.stream t st'))
             ∧ ((∀ st', st' ≠ st → (s.stream t st').ended = true) → (u.context t).run = .free)
             ∧ (∀ t', t' ≠ t → u.context t' = s.context t'))

/-! ## The scalar engine -/

/-- An arithmetic command of the scalar stream writes its destination register with the result of its operation on
src0 and on src1 or the immediate, modulo 2^64, and ends OK; no other register, no predicate, no memory changes. MOVI,
GETP and LIDX write their destination register alone: the immediate, a parameter register, the iteration index of the
scalar stream's loop at a depth counted from the outermost, 0 where there is none (R199, Table 7.6). -/
def Obligations.ScalarCommandsWriteTheirRegister : Prop :=
  (∀ (s : State) (t : Thread) (q : QEntry) (cmd : Cmd),
     ∀ row ∈ ([(.add t, 0x11, fun a b => a + b), (.sub t, 0x12, fun a b => a - b), (.mul t, 0x13, fun a b => a * b),
         (.and t, 0x14, fun a b => a &&& b), (.or t, 0x15, fun a b => a ||| b), (.xor t, 0x16, fun a b => a ^^^ b),
         (.shl t, 0x17, fun a b => a <<< (b.toNat % 64)), (.shr t, 0x18, fun a b => a >>> (b.toNat % 64)),
         (.sar t, 0x19, fun a b => a.sshiftRight (b.toNat % 64)),
         (.mins t, 0x1A, fun a b => if a.toInt ≤ b.toInt then a else b),
         (.maxs t, 0x1B, fun a b => if a.toInt ≤ b.toInt then b else a)]
         : List (Instr × Nat × (DWord → DWord → DWord))),
       s.Issues t .scalar row.2.1 q cmd →
         ∃ u, Machine.exec row.1 s = .next u ∧ s.ContextOnly u t .scalar
           ∧ (∀ i, (u.context t).sreg i = if i = cmd.bits 1 4 0 then
                 row.2.2 ((s.context t).sreg (cmd.bits 1 9 5))
                   (if cmd.bit 1 15 then BitVec.ofNat 64 (cmd.word 2 + cmd.word 3 * 2 ^ 32)
                    else (s.context t).sreg (cmd.bits 1 14 10))
               else (s.context t).sreg i)
           ∧ (u.context t).preds = (s.context t).preds ∧ (u.context t).ncw = (s.context t).ncw
           ∧ (∀ i, (u.context t).param i = (s.context t).param i)
           ∧ u.stream t .scalar = (s.stream t .scalar).took { s.running0 t .scalar q cmd with ended := true })
    ∧ (∀ (s : State) (t : Thread) (q : QEntry) (cmd : Cmd),
         ∀ row ∈ ([(.movi t, 0x10, BitVec.ofNat 64 (cmd.word 2 + cmd.word 3 * 2 ^ 32)),
             (.getp t, 0x21, (s.context t).param (cmd.bits 1 19 16)),
             (.lidx t, 0x22, BitVec.ofNat 64
               ((((s.stream t .scalar).loops.reverse.drop (((s.context t).sreg (cmd.bits 1 9 5)).toNat % 4)).map
                 (fun l => l.iter.toNat)).headD 0))] : List (Instr × Nat × DWord)),
           s.Issues t .scalar row.2.1 q cmd →
             ∃ u, Machine.exec row.1 s = .next u ∧ s.ContextOnly u t .scalar
               ∧ (∀ i, (u.context t).sreg i = if i = cmd.bits 1 4 0 then row.2.2 else (s.context t).sreg i)
               ∧ (u.context t).preds = (s.context t).preds ∧ (u.context t).ncw = (s.context t).ncw
               ∧ (∀ i, (u.context t).param i = (s.context t).param i)
               ∧ u.stream t .scalar = (s.stream t .scalar).took { s.running0 t .scalar q cmd with ended := true })

/-- CMPP writes its target predicate with the comparison its cond field names and no other predicate; PUTP writes its
parameter register with src0; SETNCW replaces the bits of the numeric control word under its mask, and a mask that
covers bits 15:4 makes it illegal. SETP: the immediate form clears, then sets; the status form tells a stream's last
status; a group beyond the configured ones ends the other two with HANDLE_INVALID and no predicate changed; the width
form sets the predicate of the code alone among four, the flag form copies the flag; a provisional word stalls the
stream (R155, R199, R201, R202, Table 7.6, Table 7.7). -/
def Obligations.ScalarCommandsWritePredicatesAndControl : Prop :=
  (∀ (s : State) (t : Thread) (q : QEntry) (cmd : Cmd),
     (s.Issues t .scalar 0x1C q cmd →
       ∃ u, Machine.exec (.cmpp t) s = .next u ∧ s.ContextOnly u t .scalar
         ∧ (∀ i, i < 16 → (u.context t).pred i = if i = cmd.bits 1 23 20 then
             (let a := (s.context t).sreg (cmd.bits 1 9 5)
              let b := if cmd.bit 1 15 then BitVec.ofNat 64 (cmd.word 2 + cmd.word 3 * 2 ^ 32)
                else (s.context t).sreg (cmd.bits 1 14 10)
              match cmd.bits 1 19 16 with
              | 0 => decide (a = b) | 1 => decide (a ≠ b) | 2 => decide (a.toInt < b.toInt)
              | 3 => decide (b.toInt ≤ a.toInt) | 4 => decide (a.toNat < b.toNat) | _ => decide (b.toNat ≤ a.toNat))
           else (s.context t).pred i)
         ∧ (∀ i, (u.context t).sreg i = (s.context t).sreg i) ∧ (∀ i, (u.context t).param i = (s.context t).param i)
         ∧ (u.context t).ncw = (s.context t).ncw
         ∧ u.stream t .scalar = (s.stream t .scalar).took { s.running0 t .scalar q cmd with ended := true })
     ∧ (s.Issues t .scalar 0x20 q cmd →
       ∃ u, Machine.exec (.putp t) s = .next u ∧ s.ContextOnly u t .scalar
         ∧ (∀ i, (u.context t).param i = if i = cmd.bits 1 19 16 then (s.context t).sreg (cmd.bits 1 9 5)
             else (s.context t).param i)
         ∧ (∀ i, (u.context t).sreg i = (s.context t).sreg i) ∧ (u.context t).preds = (s.context t).preds
         ∧ (u.context t).ncw = (s.context t).ncw
         ∧ u.stream t .scalar = (s.stream t .scalar).took { s.running0 t .scalar q cmd with ended := true })
     ∧ (s.Issues t .scalar 0x24 q cmd →
       ∃ u, Machine.exec (.setncw t) s = .next u ∧ s.ContextOnly u t .scalar
         ∧ (∀ i, i < 16 → (u.context t).ncw.getLsbD i =
             if (cmd.word 2).testBit i then (cmd.word 3).testBit i else (s.context t).ncw.getLsbD i)
         ∧ (∀ i, 4 ≤ i → i < 16 → (u.context t).ncw.getLsbD i = (s.context t).ncw.getLsbD i)
         ∧ (∀ i, (u.context t).sreg i = (s.context t).sreg i) ∧ (∀ i, (u.context t).param i = (s.context t).param i)
         ∧ (u.context t).preds = (s.context t).preds
         ∧ u.stream t .scalar = (s.stream t .scalar).took { s.running0 t .scalar q cmd with ended := true })
     ∧ (substitute (s.context t) .scalar q.cmd = cmd → cmd.opcode = 0x24 → cmd.bits 2 15 4 ≠ 0 →
         (s.illegal t .scalar q).isSome = true))
    ∧ (∀ (s : State) (t : Thread) (q : QEntry) (cmd : Cmd) (group : Nat) (word : BitVec 16),
         s.Issues t .scalar 0x1D q cmd →
         group = (if cmd.bit 1 15 then ((s.context t).sreg (cmd.bits 1 9 5)).toNat else cmd.bits 2 11 0) →
         word = s.widthWord (s.threadPart t) group →
         ((cmd.bits 1 30 28 = 1 ∨ cmd.bits 1 30 28 = 2) → group < s.regN .aszGroupCount (s.threadPart t).val →
             word.getLsbD 9 = true →
             ∃ u, Machine.exec (.setp t) s = .next u ∧ s.ContextOnly u t .scalar ∧ u.context t = s.context t)
         ∧ (((cmd.bits 1 30 28 = 1 ∨ cmd.bits 1 30 28 = 2) → word.getLsbD 9 = false ∨
               s.regN .aszGroupCount (s.threadPart t).val ≤ group) →
           ∃ u status, Machine.exec (.setp t) s = .next u ∧ s.ContextOnly u t .scalar
             ∧ u.stream t .scalar = (s.stream t .scalar).took { s.running0 t .scalar q cmd with ended := true, status := status }
             ∧ (status = if (cmd.bits 1 30 28 = 1 ∨ cmd.bits 1 30 28 = 2)
                   ∧ s.regN .aszGroupCount (s.threadPart t).val ≤ group then stHandle else stOk)
             ∧ (∀ i, i = 0 ∨ 12 ≤ i → i < 16 → (u.context t).pred i = (s.context t).pred i)
             ∧ (∀ i, 1 ≤ i → i < 12 → (u.context t).pred i =
                 if status = stHandle then (s.context t).pred i
                 else match cmd.bits 1 30 28 with
                 | 0 => cmd.bit 3 i || (!cmd.bit 3 (i + 16) && (s.context t).pred i)
                 | 1 => if cmd.bits 1 25 22 ≤ i ∧ i < cmd.bits 1 25 22 + 4 then
                     decide (i = cmd.bits 1 25 22 + word.toNat / 4 ^ cmd.bits 1 21 20 % 4) else (s.context t).pred i
                 | 2 => if i = cmd.bits 1 25 22 then word.getLsbD (if cmd.bit 1 20 then 6 else 7) else (s.context t).pred i
                 | _ =>
                   let last := s.lastStatus t (streamOf (cmd.bits 1 21 20))
                   if i = cmd.bits 1 25 22 then decide (last = 0x01)
                   else if i = cmd.bits 1 25 22 + 1 then decide (last = 0x02)
                   else if i = cmd.bits 1 25 22 + 2 then decide (last = 0x30)
                   else if i = cmd.bits 1 25 22 + 3 then decide (0x30 ≤ last ∧ last < 0x50)
                   else (s.context t).pred i)
             ∧ (∀ i, (u.context t).sreg i = (s.context t).sreg i) ∧ (∀ i, (u.context t).param i = (s.context t).param i)
             ∧ (u.context t).ncw = (s.context t).ncw))

/-- LD of an aligned, readable, clean address of the device's memory writes the eight bytes there to its register; ST
to an aligned, writable address outside its own context area stores the register there, byte for byte, and nothing
else of HBM; an address that is not 8-byte aligned or not mapped, and for ST the context area, ends either with
HANDLE_INVALID and leaves registers and memory as they were. LD of any memory that can be read now gives the eight
bytes at its address, of a register or a sync slot that word, and leaves its register when the unit is poisoned; in
the unused half of a scratch window both end ABANDONED; ST to a sync object's SIGNAL or RESET field sends that
operation, and to scratch outside its own context area stores there (R180, R184, R200, R483). -/
def Obligations.ScalarLoadsAndStores : Prop :=
  (∀ (s : State) (t : Thread) (q : QEntry) (cmd : Cmd) (p : Part) (va a : Nat),
     p = s.threadPart t →
     va = ((s.context t).sreg (cmd.bits 1 9 5) + BitVec.ofNat 64 (cmd.word 2 + cmd.word 3 * 2 ^ 32)).toNat →
     (s.Issues t .scalar 0x1E q cmd → va % 8 = 0 → s.place p va = .hbm a →
       s.lineReady p (va / 64 * 64) = true → (s.readLine p (va / 64 * 64)).2 = false →
       ∃ u, Machine.exec (.ld t) s = .next u ∧ s.ContextOnly u t .scalar
         ∧ (∀ i, (u.context t).sreg i = if i = cmd.bits 1 4 0 then BitVec.ofNat 64 (leNat (Memory.readBytes s.hbm a 8))
             else (s.context t).sreg i)
         ∧ u.stream t .scalar = (s.stream t .scalar).took { s.running0 t .scalar q cmd with ended := true })
     ∧ (s.Issues t .scalar 0x1F q cmd → va % 8 = 0 → s.place p va = .hbm a → s.writable p va = true →
       (∀ i, pageIndex va = some i → ((s.part p).page i).migrating = false) →
       s.lineBusy (a / 64) = false → s.holders (a / 64) = [] →
       ∃ u, Machine.exec (.st t) s = .next u
         ∧ (∀ x, Memory.read u.hbm x = if a ≤ x ∧ x < a + 8 then
             (leBytes 8 ((s.context t).sreg (cmd.bits 1 14 10)).toNat).getD (x - a) 0 else Memory.read s.hbm x)
         ∧ (s.context t).SameRegs (u.context t) ∧ u.reserve = s.reserve ∧ u.regs = s.regs
         ∧ (∀ t', t' ≠ t → u.context t' = s.context t')
         ∧ u.stream t .scalar = (s.stream t .scalar).took { s.running0 t .scalar q cmd with ended := true })
     ∧ (∀ row ∈ [(Instr.ld t, 0x1E), (Instr.st t, 0x1F)], s.Issues t .scalar row.2 q cmd →
       (va % 8 ≠ 0 ∨ (s.place p va = .unmapped ∧ inMmio va = false)
         ∨ (row.2 = 0x1F ∧ ∃ o, s.place p va = .scratch (threadCore t) o ∧ 0x1FC000 ≤ o ∧ o < 0x200000)) →
       ∃ u, Machine.exec row.1 s = .next u ∧ s.ContextOnly u t .scalar ∧ (s.context t).SameRegs (u.context t)
         ∧ u.stream t .scalar = (s.stream t .scalar).took
             { s.running0 t .scalar q cmd with ended := true, status := stHandle }))
    ∧ (∀ (s : State) (t : Thread) (q : QEntry) (cmd : Cmd) (p : Part) (va : Nat) (poison : Bool),
         p = s.threadPart t →
         va = ((s.context t).sreg (cmd.bits 1 9 5) + BitVec.ofNat 64 (cmd.word 2 + cmd.word 3 * 2 ^ 32)).toNat →
         poison = (match s.place p va with
           | .scratch c o => (s.core c).scratchPoisoned o 8
           | _ => s.poisoned p va 8) →
         (s.Issues t .scalar 0x1E q cmd → s.ldstKind p va = .memory → s.ready p [(va, 8)] = true →
           ∃ u, Machine.exec (.ld t) s = .next u
             ∧ (∀ i, (u.context t).sreg i = if i = cmd.bits 1 4 0 ∧ poison = false then
                 BitVec.ofNat 64 (leNat (s.readVa p va 8)) else (s.context t).sreg i)
             ∧ (poison = false → u.hbm = s.hbm ∧ u.regs = s.regs ∧ (∀ t', t' ≠ t → u.context t' = s.context t'))
             ∧ (∃ r, (u.stream t .scalar).cur = some r ∧ r.ended = true
                 ∧ r.status = if poison then stPoisoned else stOk))
         ∧ (s.Issues t .scalar 0x1E q cmd → s.ldstKind p va = .word →
           ∃ u, Machine.exec (.ld t) s = .next u ∧ s.ContextOnly u t .scalar
             ∧ (∀ i, (u.context t).sreg i = if i = cmd.bits 1 4 0 then BitVec.ofNat 64 (s.readWord p va true)
                 else (s.context t).sreg i))
         ∧ (∀ row ∈ [(Instr.ld t, 0x1E), (Instr.st t, 0x1F)], s.Issues t .scalar row.2 q cmd →
           (∃ o, s.ldstKind p va = .upper o) →
           ∃ u r, Machine.exec row.1 s = .next u ∧ (u.stream t .scalar).cur = some r ∧ r.status = stAbandoned
             ∧ (∀ i, (u.context t).sreg i = (s.context t).sreg i))
         ∧ (s.Issues t .scalar 0x1F q cmd → s.ldstKind p va = .word → inSync va = true →
           s.ownsSync p (syncOf va) = true → (va % 64 = 0x08 ∨ va % 64 = 0x10) →
           ∃ u, Machine.exec (.st t) s = .next u ∧ (s.context t).SameRegs (u.context t)
             ∧ u.syncQueue = s.syncQueue ++ [⟨syncOf va,
                 if va % 64 = 0x08 then .signal ((s.context t).sreg (cmd.bits 1 14 10))
                 else .reset ((s.context t).sreg (cmd.bits 1 14 10)), none, engineSource (threadCore t) .scalar⟩])
         ∧ (∀ c o, s.Issues t .scalar 0x1F q cmd → va % 8 = 0 → s.place p va = .scratch c o → o < 0x1FB300 →
           ∃ u, Machine.exec (.st t) s = .next u
             ∧ (∀ x, Memory.read (u.core c).scratch x = if o ≤ x ∧ x < o + 8 then
                 (leBytes 8 ((s.context t).sreg (cmd.bits 1 14 10)).toNat).getD (x - o) 0
                 else Memory.read (s.core c).scratch x)
             ∧ (∀ c', c' ≠ c → (u.core c').scratch = (s.core c').scratch) ∧ u.hbm = s.hbm ∧ u.reserve = s.reserve))

/-! ## Sync objects and scratch windows -/

/-- SIGNAL, FETCH_ADD and RESET on an object of the partition send their operation to the object's home unit with the
stream as its owner and stay in flight; on another object they end with HANDLE_INVALID and send nothing. WAIT with no
operation on its object ahead of it is registered at once: satisfied by a value at or above the threshold, it ends OK;
otherwise it stays in flight and is listed among the waits; behind another operation it waits its turn; the value does
not change (R185-R188). -/
def Obligations.SyncCommandsSendAndWait : Prop :=
  (∀ (s : State) (t : Thread) (st : Stream) (q : QEntry) (cmd : Cmd) (obj : SyncObj),
     obj = BitVec.ofNat 15 (cmd.bits 1 14 0) →
     ∀ row ∈ ([(.signal t st, st, 0x03, .signal (BitVec.ofNat 64 (cmd.word 2))),
         (.reset t st, st, 0x05, .reset (BitVec.ofNat 64 (cmd.word 2 + cmd.word 3 * 2 ^ 32))),
         (.fetchAdd t, .scalar, 0x23, .fetchAdd (BitVec.ofNat 64 (cmd.word 2)))] : List (Instr × Stream × Nat × SyncKind)),
       s.Issues t row.2.1 row.2.2.1 q cmd →
         (s.ownsSync (s.threadPart t) obj = true →
           ∃ u, Machine.exec row.1 s = .next u ∧ u = { s with cores := u.cores, syncQueue := u.syncQueue }
             ∧ u.syncQueue = s.syncQueue ++ [⟨obj, row.2.2.2, some (t, row.2.1), engineSource (threadCore t) row.2.1⟩]
             ∧ (s.context t).SameRegs (u.context t) ∧ (∀ t', t' ≠ t → u.context t' = s.context t')
             ∧ u.stream t row.2.1 = (s.stream t row.2.1).took (s.running0 t row.2.1 q cmd))
         ∧ (s.ownsSync (s.threadPart t) obj = false →
           ∃ u, Machine.exec row.1 s = .next u ∧ s.ContextOnly u t row.2.1 ∧ (s.context t).SameRegs (u.context t)
             ∧ u.stream t row.2.1 = (s.stream t row.2.1).took
                 { s.running0 t row.2.1 q cmd with ended := true, status := stHandle }))
    ∧ (∀ (s : State) (t : Thread) (st : Stream) (q : QEntry) (cmd : Cmd) (obj : SyncObj) (th : DWord),
         s.Issues t st 0x04 q cmd → obj = BitVec.ofNat 15 (cmd.bits 1 14 0) →
         th = BitVec.ofNat 64 (cmd.word 2 + cmd.word 3 * 2 ^ 32) → s.ownsSync (s.threadPart t) obj = true →
         (∀ w ∈ s.waits, ¬ (w.obj = obj ∧ w.threshold ≤ s.syncValue obj)) →
           ∃ u, Machine.exec (.wait t st) s = .next u ∧ u.sync = s.sync ∧ (s.context t).SameRegs (u.context t)
             ∧ ((∃ o ∈ s.syncQueue, o.obj = obj) →
                 u.syncQueue = s.syncQueue ++ [⟨obj, .wait th, some (t, st), engineSource (threadCore t) st⟩]
                   ∧ u.waits = s.waits)
             ∧ ((∀ o ∈ s.syncQueue, o.obj ≠ obj) → u.syncQueue = s.syncQueue
                 ∧ (s.syncValue obj < th → u.waits = s.waits ++ [⟨obj, t, st, th, false⟩]
                     ∧ u.stream t st = (s.stream t st).took (s.running0 t st q cmd))
                 ∧ (th ≤ s.syncValue obj → u.waits = s.waits
                     ∧ u.stream t st = (s.stream t st).took { s.running0 t st q cmd with ended := true })))

/-- The home unit applies the first operation that waits on an object: SIGNAL and FETCH_ADD add without passing 2^64 -
1, RESET sets; FETCH_ADD gives its register the old value; every wait whose threshold the new value reaches is taken
off the list and its stream goes on. Stated where no WAIT of the object is queued behind, no wait is registered for
the issuing stream, no addition saturates and no partition watches the object for growth. An addition that would pass
2^64 - 1 leaves the value at 2^64 - 1 and is logged in the issuer's ring (R185, R187, R188). -/
def Obligations.SyncOperationIsApplied : Prop :=
  (∀ (s : State) (obj : SyncObj) (o : SyncOp) (rest : List SyncOp) (new : DWord),
     s.live = true → s.syncQueue = o :: rest → o.obj = obj → (∀ x ∈ rest, x.obj ≠ obj) →
     (∀ p, s.running p = true → s.regN .survKvGrowObj p.val ≠ obj.toNat) →
     new = (match o.kind with
       | .signal d => s.syncValue obj + d
       | .fetchAdd d => s.syncValue obj + d
       | .reset x => x
       | .wait _ => s.syncValue obj) →
     (∀ d, o.kind = .signal d ∨ o.kind = .fetchAdd d → (s.syncValue obj).toNat + d.toNat < 2 ^ 64) →
     (∀ th, o.kind ≠ .wait th) →
       ∃ u, Machine.exec (.syncOperationApplied obj) s = .next u
         ∧ (∀ i, u.syncValue i = if i = obj then new else s.syncValue i)
         ∧ u.syncQueue = rest
         ∧ u.waits = s.waits.filter (fun w => !decide (w.obj = obj ∧ w.threshold ≤ new))
         ∧ (∀ w ∈ s.waits, w.obj = obj → w.threshold ≤ new →
             ∀ r, (s.stream w.thread w.stream).cur = some r →
               ∃ r', (u.stream w.thread w.stream).cur = some r' ∧ r'.ended = true ∧ r'.status = stOk)
         ∧ (∀ t st r, o.thread = some (t, st) → (s.stream t st).cur = some r →
             (∃ r', (u.stream t st).cur = some r' ∧ r'.ended = true ∧ r'.status = stOk)
             ∧ (∀ d, o.kind = .fetchAdd d → (u.context t).sreg (r.cmd.bits 1 29 25) = s.syncValue obj))
         ∧ u.hbm = s.hbm ∧ u.reserve = s.reserve ∧ u.regs = s.regs)
    ∧ (∀ (s : State) (obj : SyncObj) (d : DWord) (source : BitVec 16),
         2 ^ 64 ≤ (s.syncValue obj).toNat + d.toNat →
           s.addSync obj d source
             = (s.setSync obj (BitVec.ofNat 64 (2 ^ 64 - 1))).log source 0xF3 (f2 obj.toNat)
           ∧ (s.addSync obj d source).syncValue obj = BitVec.ofNat 64 (2 ^ 64 - 1))

/-- A plain 64-bit write to the SIGNAL or RESET field of a slot of the partition sends that operation with the written
value; a write to VALUE, and a 32-bit write, are dropped and logged; outside the partition's subset every write is
dropped and logged as unmapped. A wait beyond the limit is logged once and goes on; nothing happens where the limit is
0. An agent outside a core writes through its window into the lower 2 MiB of its scratch and reads it there; the
unused upper half reads 0 and a write to it changes no scratch and is logged (R180, R184, R186, R191). -/
def Obligations.SlotsWindowsAndLongWaits : Prop :=
  (∀ (s : State) (p : Part) (obj : SyncObj) (wide : Bool) (v : DWord), s.live = true →
     (s.ownsSync p obj = true →
       Machine.exec (.syncSlotSignalWrite p obj true v) s
           = .next { s with syncQueue := s.syncQueue ++ [⟨obj, .signal v, none, surveyorSource p⟩] }
       ∧ Machine.exec (.syncSlotResetWrite p obj true v) s
           = .next { s with syncQueue := s.syncQueue ++ [⟨obj, .reset v, none, surveyorSource p⟩] }
       ∧ Machine.exec (.syncSlotValueWrite p obj true v) s
           = .next (s.accessDropped p.val 4 (0x210000000000 + obj.toNat * 64))
       ∧ Machine.exec (.syncSlotSignalWrite p obj false v) s
           = .next (s.accessDropped p.val 1 (0x210000000000 + obj.toNat * 64 + 8))
       ∧ Machine.exec (.syncSlotResetWrite p obj false v) s
           = .next (s.accessDropped p.val 1 (0x210000000000 + obj.toNat * 64 + 16)))
     ∧ (s.ownsSync p obj = false →
       Machine.exec (.syncSlotSignalWrite p obj wide v) s
           = .next (s.accessDropped p.val 0 (0x210000000000 + obj.toNat * 64 + 8))
       ∧ Machine.exec (.syncSlotResetWrite p obj wide v) s
           = .next (s.accessDropped p.val 0 (0x210000000000 + obj.toNat * 64 + 16))
       ∧ Machine.exec (.syncSlotValueWrite p obj wide v) s
           = .next (s.accessDropped p.val 0 (0x210000000000 + obj.toNat * 64)))
     ∧ (∀ (t : Thread) (st : Stream) (w : SyncWait) (l r : List SyncWait), coreExists (threadCore t) = true →
       s.waits = l ++ w :: r → w.thread = t → w.stream = st → w.logged = false →
       (∀ x ∈ l, ¬ (x.thread = t ∧ x.stream = st)) →
       (s.regN .dbgWaitLimit (s.threadPart t).val = 0 → Machine.exec (.syncWaitLong t st) s = .next s)
       ∧ (s.regN .dbgWaitLimit (s.threadPart t).val ≠ 0 →
           Machine.exec (.syncWaitLong t st) s
             = .next ({ s with waits := l ++ { w with logged := true } :: r }.log (coreSource (threadCore t) 0) 3
                 (f4 t.toNat ++ f2 w.obj.toNat ++ f8 w.threshold.toNat ++ f8 (s.syncValue w.obj).toNat)))))
    ∧ (∀ (s : State) (p : Part) (offset : BitVec 31) (c : CoreId) (o : Nat) (data : List Byte),
         s.live = true → s.place p (0x200000000000 + offset.toNat) = .scratch c o →
         1 ≤ data.length → o % 64 + data.length ≤ 64 →
         (o + data.length ≤ 0x1FB300 →
           ∃ u, Machine.exec (.scratchWindowAccess p offset (.write data)) s = .next u
             ∧ (∀ x, Memory.read (u.core c).scratch x =
                 if o ≤ x ∧ x < o + data.length then data.getD (x - o) 0 else Memory.read (s.core c).scratch x)
             ∧ (∀ c', c' ≠ c → u.core c' = s.core c') ∧ u = { s with cores := u.cores })
         ∧ (o + data.length ≤ 0x1FB300 →
           ∃ u, Machine.exec (.scratchWindowAccess p offset (.read data.length)) s = .next u
             ∧ u.windowReply = (List.range data.length).map (fun i => Memory.read (s.core c).scratch (o + i))
             ∧ u = { s with windowReply := u.windowReply })
         ∧ (0x200000 ≤ o →
           Machine.exec (.scratchWindowAccess p offset (.write data)) s
               = .next (s.accessDropped p.val 0 (0x200000000000 + offset.toNat))
           ∧ ∃ u, Machine.exec (.scratchWindowAccess p offset (.read data.length)) s = .next u
               ∧ u.windowReply = List.replicate data.length 0))

/-! ## The vector engine -/

/-- Every vector command that passes its checks issues and does its work: the running command holds the status, tile
and flags that its tiles gave, no register of the context changes, and with no tensor, no skew and no poisoned word
found the scratch is what the tiles wrote, but for the stream's first-exception record, and nothing outside the cores
changes but the model's counter of free values (R14, R46, R211, R212, R218). -/
def Obligations.VectorCommandDoesItsTiles : Prop :=
  ∀ (s : State) (t : Thread) (q : QEntry) (cmd : Cmd) (d : Option Desc),
    ∀ row ∈ ([(.vadd t, arithOp 0x40), (.vsub t, arithOp 0x41), (.vmul t, arithOp 0x42), (.vfma t, arithOp 0x43),
        (.vdiv t, arithOp 0x44), (.vsqrt t, arithOp 0x45), (.vrecip t, arithOp 0x46), (.vrsqrt t, arithOp 0x47),
        (.vmin t, arithOp 0x48), (.vmax t, arithOp 0x49), (.vminnum t, arithOp 0x4A), (.vmaxnum t, arithOp 0x4B),
        (.vabs t, arithOp 0x4C), (.vneg t, arithOp 0x4D), (.vcopysign t, arithOp 0x4E), (.vcmp t, arithOp 0x4F),
        (.vexp t, arithOp 0x50), (.vexp2 t, arithOp 0x51), (.vlog t, arithOp 0x52), (.vlog2 t, arithOp 0x53),
        (.vtanh t, arithOp 0x54), (.vsigmoid t, arithOp 0x55), (.verf t, arithOp 0x56), (.vsin t, arithOp 0x57),
        (.vcos t, arithOp 0x58)] ++ [(.vcvt t, cvtOp), (.dequant t, dequantOp), (.scaleGrad t, gradOp),
        (.scaleClear t, clearOp), (.amaxScan t, scanOp), (.scaleForm t, formOp), (.tmatmul t, tareOp),
        (.vredsum t, reduceOp 0x68), (.vredmax t, reduceOp 0x69), (.vredmin t, reduceOp 0x6A)] : List (Instr × VOp)),
      ∀ o, s.VectorReady t row.2 q cmd d →
        o = row.2.run s t { vblkOf (s.context t) cmd with free := s.freeCount } d (s.core (threadCore t)) →
        ∃ u r, Machine.exec row.1 s = .next u ∧ (u.stream t .vector).cur = some r
          ∧ (u.stream t .vector).queue = (s.stream t .vector).queue.tail
          ∧ r.cmd = cmd ∧ r.ended = true ∧ r.status = o.status ∧ r.tile = BitVec.ofNat 32 o.tile ∧ r.flags = o.flags
          ∧ (s.context t).SameRegs (u.context t) ∧ (∀ t', t' ≠ t → u.context t' = s.context t')
          ∧ (d = none → o.skew = none → o.poison = none → o.mem = [] →
              u = { s with cores := u.cores, freeCount := u.freeCount }
              ∧ (∀ c, c ≠ threadCore t → u.core c = s.core c)
              ∧ (∀ x, x < ctxArea (threadCtx t) + 0x40 ∨ ctxArea (threadCtx t) + 0x60 ≤ x →
                  Memory.read (u.core (threadCore t)).scratch x = Memory.read o.core.scratch x)
              ∧ (u.core (threadCore t)).readScratch (ctxArea (threadCtx t) + 0x40) 32
                  = excBytes (o.exc.map (fun x =>
                      ⟨(s.stream t .vector).count, BitVec.ofNat 32 x.2.2.2, x.1, x.2.1, x.2.2.1⟩)))

/-- An elementwise command on one tile, with clean sources and the invalid-operation trap off, writes each row of its
destination with the results of its elements, padded to a 32-byte multiple with bytes that nothing constrains; no
scratch byte outside the destination's rows and the first-exception record changes (R211, Table 7.9, Table 7.10). -/
def Obligations.ElementwiseWritesEveryElement : Prop :=
  ∀ (s : State) (t : Thread) (q : QEntry) (cmd : Cmd) (b : VBlk) (out : Nat),
    ∀ row ∈ ([(.vadd t, 0x40), (.vsub t, 0x41), (.vmul t, 0x42), (.vfma t, 0x43), (.vdiv t, 0x44), (.vsqrt t, 0x45),
        (.vrecip t, 0x46), (.vrsqrt t, 0x47), (.vmin t, 0x48), (.vmax t, 0x49), (.vminnum t, 0x4A), (.vmaxnum t, 0x4B),
        (.vabs t, 0x4C), (.vneg t, 0x4D), (.vcopysign t, 0x4E), (.vcmp t, 0x4F), (.vexp t, 0x50), (.vexp2 t, 0x51),
        (.vlog t, 0x52), (.vlog2 t, 0x53), (.vtanh t, 0x54), (.vsigmoid t, 0x55), (.verf t, 0x56), (.vsin t, 0x57),
        (.vcos t, 0x58)] : List (Instr × Nat)),
      b = vblkOf (s.context t) cmd → out = (if row.2 = 0x4F then 3 else b.dstFmt) →
      s.VectorReady t (arithOp row.2) q cmd none → b.rows ≤ 288 → (s.context t).trapInvalid = false →
      (∀ o, Sparse.get false (s.core (threadCore t)).scratchPoison o = false) →
        ∃ u, Machine.exec row.1 s = .next u
          ∧ (∀ i, i < b.rows → ∃ bytes pad,
              (u.core (threadCore t)).readScratch (b.dst + i * rowPitch out b.cols) (rowPitch out b.cols) = bytes ++ pad
              ∧ bytes = packRow out ((List.range b.cols).map (fun j =>
                  (arithElem (s.context t) row.2 b
                    (getElem b.s0Fmt ((s.core (threadCore t)).readScratch (b.src0 + i * rowPitch b.s0Fmt b.cols)
                      (rowBytes b.s0Fmt b.cols)) j)
                    (match b.imm with
                      | some v => v
                      | none => if vecArity row.2 = 1 then 0 else
                        getElem b.s1Fmt ((s.core (threadCore t)).readScratch (b.src1 + i * rowPitch b.s1Fmt b.cols)
                          (rowBytes b.s1Fmt b.cols)) j)
                    (if row.2 = 0x43 then
                      getElem b.dstFmt ((s.core (threadCore t)).readScratch (b.dst + i * rowPitch b.dstFmt b.cols)
                        (rowBytes b.dstFmt b.cols)) j else 0)).bits)))
          ∧ (∀ x, (x < b.dst ∨ b.dst + b.rows * rowPitch out b.cols ≤ x) →
              (x < ctxArea (threadCtx t) + 0x40 ∨ ctxArea (threadCtx t) + 0x60 ≤ x) →
              Memory.read (u.core (threadCore t)).scratch x = Memory.read (s.core (threadCore t)).scratch x)

/-- Elements of integer formats: addition, subtraction, multiplication and multiply-add wrap modulo 2^w, a division
truncates toward zero, a zero divisor gives 0 with DIVZERO. VABS, VNEG and VCOPYSIGN on one floating format change the
sign bit alone and raise no flag. Rounding m * 2^e to a multiple of 2^q: nearest-even and nearest-away give a nearest
multiple, nearest-even the even one of two, nearest-away the larger; toward zero the next below; stochastic rounding
one of the two neighbours, the upper one exactly when the random value lies below the fraction. A value converted to
an integer format stays within the quantiser's range: a NaN gives 0, an infinity the end of the range, a finite value
its rounded integer or the nearer end, saturating exactly when that changed the value (R41, R42, R45, R50, R51, R53,
R56, R528). -/
def Obligations.ElementsAreComputedAsTheFormatsSay : Prop :=
  (∀ (c : Context) (k : VBlk) (a b d : Nat) (x y z : Int),
     fmtInt k.dstFmt = true → x = intOf k.s0Fmt a → y = intOf k.s1Fmt b → z = intOf k.dstFmt d →
     ∀ row ∈ ([(0x40, x + y), (0x41, x - y), (0x42, x * y), (0x43, x * y + z), (0x44, if y = 0 then 0 else x.tdiv y),
         (0x48, if x ≤ y then x else y), (0x49, if x ≤ y then y else x), (0x4A, if x ≤ y then x else y),
         (0x4B, if x ≤ y then y else x), (0x4C, if x < 0 then -x else x), (0x4D, -x)] : List (Nat × Int)),
       (arithElem c row.1 k a b d).bits < 2 ^ fmtBits k.dstFmt
         ∧ (((arithElem c row.1 k a b d).bits : Int) - row.2) % 2 ^ fmtBits k.dstFmt = 0
         ∧ (arithElem c row.1 k a b d).flags = (if row.1 = 0x44 ∧ y = 0 then flDivzero else 0)
         ∧ (arithElem c row.1 k a b d).sat = false)
    ∧ (∀ (c : Context) (k : VBlk) (a b d : Nat), c.tare = false → fmtFloat k.dstFmt = true → k.s0Fmt = k.dstFmt →
         a < 2 * fmtSign k.dstFmt →
         ∀ row ∈ ([(0x4C, false), (0x4D, !decide (fmtSign k.dstFmt ≤ a)), (0x4E, signOf k.s1Fmt b)] : List (Nat × Bool)),
           (arithElem c row.1 k a b d).bits % fmtSign k.dstFmt = a % fmtSign k.dstFmt
             ∧ ((arithElem c row.1 k a b d).bits / fmtSign k.dstFmt = if row.2 then 1 else 0)
             ∧ (arithElem c row.1 k a b d).flags = 0)
    ∧ (∀ (m : Nat) (e q : Int) (d : Nat), e < q → d = (q - e).toNat →
         (2 * (roundTo .even m e q).1 * 2 ^ d ≤ 2 * m + 2 ^ d ∧ 2 * m ≤ 2 * (roundTo .even m e q).1 * 2 ^ d + 2 ^ d
           ∧ (2 * (m % 2 ^ d) = 2 ^ d → (roundTo .even m e q).1 % 2 = 0))
         ∧ (2 * (roundTo .away m e q).1 * 2 ^ d ≤ 2 * m + 2 ^ d ∧ 2 * m ≤ 2 * (roundTo .away m e q).1 * 2 ^ d + 2 ^ d
           ∧ (2 * (m % 2 ^ d) = 2 ^ d → (roundTo .away m e q).1 = m / 2 ^ d + 1))
         ∧ ((roundTo .zero m e q).1 * 2 ^ d ≤ m ∧ m < ((roundTo .zero m e q).1 + 1) * 2 ^ d)
         ∧ (∀ r, r < 2 ^ 24 → (roundTo (.stoch r) m e q).1 =
             if r < 2 ^ 24 * (m % 2 ^ d) / 2 ^ d then m / 2 ^ d + 1 else m / 2 ^ d)
         ∧ (∀ mode, m % 2 ^ d = 0 → roundTo mode m e q = (m / 2 ^ d, true)))
    ∧ (∀ (f : Nat) (mode : Rnd) (rounds : Bool), fmtInt f = true →
         (∀ sg, (toInteger f mode rounds (.nan sg)).bits = 0 ∧ (toInteger f mode rounds (.nan sg)).flags = 0)
         ∧ (∀ neg, intOf f (toInteger f mode rounds (.inf neg)).bits = (if neg then fmtQmin f else (fmtQmax f : Int))
             ∧ (toInteger f mode rounds (.inf neg)).sat = true)
         ∧ (∀ (neg : Bool) (m : Nat) (e x : Int),
             x = (if neg then -((roundTo mode m e 0).1 : Int) else ((roundTo mode m e 0).1 : Int)) →
             intOf f (toInteger f mode rounds (.fin neg m e)).bits
                 = (if x > fmtQmax f then (fmtQmax f : Int) else if x < fmtQmin f then fmtQmin f else x)
             ∧ ((toInteger f mode rounds (.fin neg m e)).sat = true ↔ (x > fmtQmax f ∨ x < fmtQmin f))))

/-! ## The matrix array -/

/-- MATMUL and MCOMBINE that pass their checks take their core's free array: the command runs, the tile it starts at
is in progress with its fed rows and empty accumulators, and it will stop after its last tile; one that resumes a
pre-empted command keeps that command's number. Every other core is as it was and nothing else changes (R73, R100,
R209). -/
def Obligations.MatrixCommandTakesTheArray : Prop :=
  ∀ (s : State) (t : Thread) (q : QEntry) (cmd : Cmd) (again : Option Running),
    ∀ row ∈ [(Instr.matmul t, 0x30), (Instr.mcombine t, 0x31)], s.MatrixReady t row.2 q cmd again →
      ∃ u x y r, Machine.exec row.1 s = .next u ∧ u = { s with cores := u.cores }
        ∧ (∀ c, c ≠ threadCore t → u.core c = s.core c)
        ∧ (u.core (threadCore t)).array.cmd = some x ∧ x.thread = t ∧ x.cmd = cmd
        ∧ x.first = cmd.mStart ∧ x.next = cmd.mStart + 1 ∧ x.stop = cmd.mStop ∧ x.visible = 0 ∧ x.fault = none
        ∧ x.waiting = [] ∧ x.drains = []
        ∧ x.cur = some y ∧ y.index = cmd.mStart ∧ y.passes = 0 ∧ y.preloadAt = 0 ∧ y.acc = [] ∧ y.fault = none
        ∧ y.rows = (s.core (threadCore t)).fedRows cmd (cmd.mRowTile cmd.mStart)
        ∧ (u.stream t .matrix).cur = some r ∧ r.ended = again.elim false (fun z => z.ended)
        ∧ x.seq = again.elim (s.stream t .matrix).count (fun z => z.seq)
        ∧ (s.context t).SameRegs (u.context t)

/-- Filling the array: a stationary load puts the operand's elements of its chunk into the cells and zeros elsewhere,
144 cycles long (R76, R77); the first pass of a tile and every further one add to the accumulator of each fed row and
valid column the products of its row of A with the cells, exactly (R68, R79, R84); a preload read adds a row of the
preload tile, the first one replaces what was there (R87, R529). Stated for clean operands, no upset, no earlier tile
at fault, no pre-emption asked for where the tile has not started, and sums that the accumulator holds; `old` is what
the accumulators held. -/
def Obligations.LoadsPassesAndPreloadsAccumulate : Prop :=
  ∀ (s : State) (core : CoreId) (x : ArrayCmd) (t : TileRun) (c : Cmd) (tn tm kc : Nat) (cell : Nat → Nat → Int),
    coreExists core = true → s.live = true → (s.core core).array.cmd = some x → x.cur = some t → c = x.cmd →
    tn = c.mColTile t.index → tm = c.mRowTile t.index → kc = t.passes → x.fault = none → t.fault = none →
    (∀ w ∈ x.waiting, w.fault = none) →
    (∀ o, Sparse.get false (s.core core).scratchPoison o = false) →
    (t.passes < c.mTK → (s.core core).array.needsLoad c t = true →
      (t.passes = 0 → (s.context x.thread).preempt = none) →
      ∃ u x' t', Machine.exec (.stationaryLoad core .none) s = .next u ∧ (u.core core).array.cmd = some x'
        ∧ x'.cur = some t' ∧ t'.loaded = some kc ∧ t'.loadDone = (s.core core).array.freeAt + 144
        ∧ (u.core core).array.held = some (tn, kc) ∧ t'.acc = t.acc ∧ t'.passes = t.passes
        ∧ (∀ k n, n < 144 → Sparse.get 0 (u.core core).array.stationary (k * 144 + n) =
            if k < min c.mKeff (c.mK - kc * c.mKeff) ∧ n < c.mNValid tn then
              intOf c.mBFmt (getElem c.mBFmt ((s.core core).readScratch (c.mStat tn kc + 32 + 72 * k) 72) n) else 0)
        ∧ u = { s with cores := u.cores } ∧ (u.core core).scratch = (s.core core).scratch)
    ∧ ((∀ k n, cell k n = Sparse.get 0 (s.core core).array.stationary (k * 144 + n)) →
      ∀ (new : Nat → Nat → Int), t.rows.Nodup → c.mNValid tn ≤ 144 →
      (∀ m n, new m n = (if t.passes = 0 ∧ c.mPreloads = 0 then 0 else Sparse.get 0 t.acc (m * 144 + n))
        + ((List.range (min c.mKeff (c.mK - kc * c.mKeff))).map (fun k =>
            intOf c.mAFmt (getElem c.mAFmt ((s.core core).readScratch (c.mStream tm kc + 32 + 72 * m) 72) k)
              * cell k n)).sum) →
      (∀ m ∈ t.rows, ∀ n, n < c.mNValid tn → -(2 : Int) ^ 47 ≤ new m n ∧ new m n < (2 : Int) ^ 47) →
      (∀ cycle, t.passes = 0 → 0 < c.mTK → t.preloadsLeft c = false → (s.core core).array.needsLoad c t = false →
        (if t.loaded.isSome then t.loadDone else (s.core core).array.freeAt) ≤ cycle →
        (c.mPreloads = 0 ∨ t.preloadAtCycle < cycle) →
        (∀ v ∈ t.rows.zipIdx, Sparse.get 0 (s.core core).array.rowReadAt v.1 < cycle + v.2 + 148) →
        slotOpen (depthDuty (s.depth (coreDie core) (s.partOfCore core))) cycle = true →
        s.tileHeld core x = false → (s.context x.thread).preempt = none →
        ∃ u t', Machine.exec (.tileFirstPassIssue core cycle .none) s = .next u
          ∧ t'.index = t.index ∧ t'.passes = 1 ∧ t'.issueAt = cycle ∧ t'.fault = none
          ∧ (∀ m ∈ t.rows, ∀ n, n < c.mNValid tn → Sparse.get 0 t'.acc (m * 144 + n) = new m n)
          ∧ (∃ x', (u.core core).array.cmd = some x'
              ∧ (if 1 < c.mTK then x'.cur = some t' else x'.waiting = x.waiting ++ [t'])))
      ∧ (0 < t.passes → t.passes < c.mTK → t.loaded = some kc →
        ∃ u t', Machine.exec (.passIssue core .none) s = .next u
          ∧ t'.index = t.index ∧ t'.passes = t.passes + 1 ∧ t'.issueAt = t.loadDone ∧ t'.fault = none
          ∧ (∀ m ∈ t.rows, ∀ n, n < c.mNValid tn → Sparse.get 0 t'.acc (m * 144 + n) = new m n)
          ∧ (∃ x', (u.core core).array.cmd = some x'
              ∧ (if t.passes + 1 < c.mTK then x'.cur = some t' else x'.waiting = x.waiting ++ [t']))))
    ∧ (∀ i m, t.preloadsLeft c = true → i = t.preloadAt / t.rows.length →
      m = t.rows.getD (t.preloadAt % t.rows.length) 0 →
      x.drainPending m = false → c.mNValid tn ≤ 144 → (s.context x.thread).preempt = none →
      ∀ (new : Nat → Int), (∀ n, new n = (if i = 0 then 0 else Sparse.get 0 t.acc (m * 144 + n))
        + signed 48 (field ((s.core core).readScratch (c.mPreload i (288 * tm + m) + tn * c.mNeff * 6) (6 * c.mNValid tn)) (6 * n) 6)) →
      (∀ n, n < c.mNValid tn → -(2 : Int) ^ 47 ≤ new n ∧ new n < (2 : Int) ^ 47) →
      ∃ u t', Machine.exec (.preloadRead core false) s = .next u
        ∧ t'.index = t.index ∧ t'.preloadAt = t.preloadAt + 1 ∧ t'.passes = t.passes
        ∧ (∀ n, n < c.mNValid tn → Sparse.get 0 t'.acc (m * 144 + n) = new n)
        ∧ (∀ m' n, m' ≠ m → n < 144 → Sparse.get 0 t'.acc (m' * 144 + n) = Sparse.get 0 t.acc (m' * 144 + n))
        ∧ (∃ x', (u.core core).array.cmd = some x'
            ∧ (x'.cur = some t' ∨ (c.mTK = 0 ∧ x'.waiting = x.waiting ++ [t']))))

/-- The tail of a tile: at its commit point a tile without fault or skew goes to drain with its accumulators; a
drained raw row stands in scratch as the accumulators modulo 2^48, and nothing else in scratch changes; a tile whose
rows are all read becomes visible and counts, and the last one ends the command OK; a pre-emption at a tile boundary
ends the command PREEMPTED with the first tile not started (R80, R81, R82, R99, R129). -/
def Obligations.TilesCommitDrainAndBecomeVisible : Prop :=
  ∀ (s : State) (core : CoreId) (x : ArrayCmd),
    coreExists core = true → s.live = true → (s.core core).array.cmd = some x → x.fault = none →
    (∀ t rest, x.waiting = t :: rest → t.fault = none → 0 < x.cmd.mTK →
      tileSkew (fun h => Sparse.get false x.firstPass h) (s.core core) x.cmd t.rows t.index = none →
      ∃ u x' d, Machine.exec (.tileCommitPoint core) s = .next u ∧ (u.core core).array.cmd = some x'
        ∧ x'.waiting = rest ∧ x'.drains = x.drains ++ [d]
        ∧ d.index = t.index ∧ d.rows = t.rows ∧ d.done = [] ∧ d.acc = t.acc
        ∧ d.rowScales = t.rowScales ∧ d.colScales = t.colScales ∧ u = { s with cores := u.cores })
    ∧ (∀ d rest m o n, x.drains = d :: rest → d.nextRow = some m → x.cmd.mDrain = 0 →
      n = x.cmd.mNValid (x.cmd.mColTile d.index) →
      o = x.cmd.mOut + (288 * x.cmd.mRowTile d.index + m) * x.cmd.mPitch 6
        + x.cmd.mColTile d.index * x.cmd.mNeff * 6 → o + 6 * n ≤ generalEnd →
      ∃ u x' d' rest', Machine.exec (.drainOutRowRead core []) s = .next u ∧ (u.core core).array.cmd = some x'
        ∧ x'.drains = d' :: rest' ∧ d'.index = d.index ∧ d'.done = d.done ++ [m] ∧ d'.acc = d.acc
        ∧ (u.core core).readScratch o (6 * n)
            = (List.range n).flatMap (fun k => leBytes 6 (Sparse.get 0 d.acc (m * 144 + k) % (2 : Int) ^ 48).toNat)
        ∧ (∀ a, a < o ∨ o + 6 * n ≤ a →
            Memory.read (u.core core).scratch a = Memory.read (s.core core).scratch a))
    ∧ (∀ d rest, x.drains = d :: rest → d.nextRow = none → x.collects = false →
      ∃ u, Machine.exec (.tileVisible core) s = .next u
        ∧ (∀ y, x.cur = some y → ∃ x', (u.core core).array.cmd = some x' ∧ x'.drains = rest
          ∧ x'.visible = x.visible + 1)
        ∧ (x.cur = none → x.waiting = [] → rest = [] → x.stop ≤ x.next →
            (u.core core).array.cmd = none
            ∧ ∀ r, (s.stream x.thread .matrix).cur = some r → threadCore x.thread = core →
                ∃ r', (u.stream x.thread .matrix).cur = some r' ∧ r'.ended = true ∧ r'.status = stOk
                  ∧ r'.flags = x.flags))
    ∧ (∀ t, (s.context x.thread).preempt.isSome = true → x.cur = none → x.waiting = [] → x.notStarted = some t →
      threadCore x.thread = core →
      ∃ u, Machine.exec (.preemptionTakesEffect core) s = .next u
        ∧ (x.drains ≠ [] → ∃ x', (u.core core).array.cmd = some x' ∧ x'.fault = some (stPreempted, t)
            ∧ x'.drains = x.drains ∧ x'.next = t ∧ x'.stop = t)
        ∧ (x.drains = [] → (u.core core).array.cmd = none
            ∧ ∀ r, (s.stream x.thread .matrix).cur = some r →
                ∃ r', (u.stream x.thread .matrix).cur = some r' ∧ r'.ended = true ∧ r'.status = stPreempted
                  ∧ r'.tile = BitVec.ofNat 32 t))

/-! ## The move engine -/

/-- Loads into scratch: MLOAD lands its block row by row, MLOAD_A and MLOAD_B (not transposed, and transposed) build a
tile of padded rows under its header, MLOAD_S a scale tile in its slot, MMASK a row mask; what stands in a row of a
loaded block is the tensor's element in bounds and zero elsewhere; MLOAD_S copies the entries of its channels into the
slot, zeros after them, under a header that names how many, the role, the handles and the axis index; no other scratch
byte changes, memory stays, and the command ends OK (R125, R126, R215, R239, R242, Table 4.7). -/
def Obligations.LoadsLandInScratch : Prop :=
  (∀ (s : State) (t : Thread) (q : QEntry) (cmd : Cmd) (b : MBlk) (d : Desc) (p : Part) (rows cols keff wide : Nat),
     b = mblkOf (s.context t) cmd → p = s.threadPart t → (rows, cols) = d.part b b.rows b.cols →
     keff = 144 / (bitsOf b.w6 17 16 + 1) → wide = 576 / fmtBits d.fmt →
     (rows ≠ 0 → cols ≠ 0 → s.MoveReady t 0x73 q cmd false anyFmt (b.off, blockBytes d.fmt b.rows b.cols) d →
       s.Readable p (d.blockRanges b rows cols) →
       ∃ u, Machine.exec (.mload t) s = .next u
         ∧ s.Landed u t q cmd b.off (s.loadBlock p d b b.rows b.cols (rowPitch d.fmt b.cols)))
     ∧ (rows ≠ 0 → cols ≠ 0 → s.MoveReady t 0x70 q cmd false tileFmt (b.off, 20768) d →
       s.Readable p (d.blockRanges b rows cols) →
       ∃ u, Machine.exec (.mloadA t) s = .next u
         ∧ s.Landed u t q cmd b.off ((tileHeader b.handle b.w6 0 d.fmt 0 false).map (fun x => (x, false))
             ++ s.loadBlock p d b 288 wide 72))
     ∧ (rows ≠ 0 → cols ≠ 0 → s.MoveReady t 0x71 q cmd false tileFmt (b.off, 32 + keff * 72) d → cmd.bit 1 16 = false →
       s.Readable p (d.blockRanges b rows cols) →
       ∃ u, Machine.exec (.mloadB t) s = .next u
         ∧ s.Landed u t q cmd b.off
             ((tileHeader b.handle (b.o.getD 0 0 / wide) 1 d.fmt (b.w6 % 2 ^ 16) false).map (fun x => (x, false))
               ++ s.loadBlock p d b keff wide 72))
     ∧ (∀ n0 n1, s.MoveReady t 0x71 q cmd false tileFmt (b.off, 32 + keff * 72) d → cmd.bit 1 16 = true →
       d.outerIn b.o = true → n0 = inBounds (b.o.getD 0 0) b.rows (d.extent 0) →
         n1 = inBounds (b.o.getD 1 0) b.cols (d.extent 1) →
       n0 ≠ 0 → n1 ≠ 0 → s.Readable p (d.blockRanges b n1 n0) →
       ∃ u, Machine.exec (.mloadB t) s = .next u
         ∧ s.Landed u t q cmd b.off
             ((tileHeader b.handle (b.o.getD 1 0 / wide) 1 d.fmt (b.w6 % 2 ^ 16) true).map (fun x => (x, false))
               ++ s.loadTransposed p d b keff wide))
     ∧ (∀ c, (1, c) = d.part b 1 b.cols → c ≠ 0 → s.MoveReady t 0x77 q cmd false anyFmt (b.off, 36) d →
       s.Readable p (d.blockRanges b 1 c) →
       ∃ u, Machine.exec (.mmask t) s = .next u
         ∧ s.Landed u t q cmd b.off
             ((padTo 36 (packRowP d.fmt (s.rowElems p d.fmt (d.blockRow b 0) (b.o.getD 0 0) c))).take 36)))
    ∧ (∀ (s : State) (p : Part) (d : Desc) (b : MBlk) (rows width pitch i j : Nat),
         i < rows → j < width → rowBytes d.fmt width ≤ pitch → d.fmt < 15 → (d.part b b.rows b.cols).2 ≤ width →
         (∀ x ∈ s.rowElems p d.fmt (d.blockRow b i) (b.o.getD 0 0) (d.part b b.rows b.cols).2, x.1 < 2 ^ fmtBits d.fmt) →
           getElem d.fmt ((((s.loadBlock p d b rows width pitch).map Prod.fst).drop (i * pitch)).take (rowBytes d.fmt width)) j
             = if i < (d.part b b.rows b.cols).1 ∧ j < (d.part b b.rows b.cols).2 then
                 ((s.rowElems p d.fmt (d.blockRow b i) (b.o.getD 0 0) (d.part b b.rows b.cols).2).getD j (0, false)).1 else 0)
    ∧ (∀ (s : State) (t : Thread) (q : QEntry) (cmd : Cmd) (b : MBlk) (d : Desc) (p : Part) (slot base count : Nat),
         b = mblkOf (s.context t) cmd → p = s.threadPart t → slot = bitsOf b.w4 20 16 → slot ≤ 23 →
         s.MoveReady t 0x72 q cmd true (fun _ => true) (0, 0) d → b.w6 * b.cols < d.channels → 0 < b.cols →
         count = min b.cols (d.channels - b.w6 * b.cols) → count ≤ 288 →
         base = (s.desc p d.scaleHandle).base + 16 * (b.w6 * b.cols) → s.Readable p [(base, 16 * count)] →
           ∃ u, Machine.exec (.mloadS t) s = .next u
             ∧ ((u.core (threadCore t)).scaleTile slot).count = count
             ∧ ((u.core (threadCore t)).scaleTile slot).role = b.rows % 256
             ∧ ((u.core (threadCore t)).scaleTile slot).handle = b.handle
             ∧ ((u.core (threadCore t)).scaleTile slot).axis = b.w6
             ∧ (u.core (threadCore t)).readScratch (slotAt slot + 32) (16 * count) = s.readVa p base (16 * count)
             ∧ (∀ x, slotAt slot + 32 + 16 * count ≤ x ∧ x < slotAt slot + 4640 →
               Memory.read (u.core (threadCore t)).scratch x = 0)
             ∧ (∀ x, x < slotAt slot ∨ slotAt slot + 4640 ≤ x →
                 Memory.read (u.core (threadCore t)).scratch x = Memory.read (s.core (threadCore t)).scratch x)
             ∧ u.stream t .move = (s.stream t .move).took { s.running0 t .move q cmd with ended := true }
             ∧ u.hbm = s.hbm ∧ u.reserve = s.reserve ∧ u.regs = s.regs)

/-- Stores, copies and halos: MSTORE and MCOPY of a block in bounds whose target may be written end OK, and one row of
whole-byte elements to free HBM stands there afterwards as scratch, or the source, held it; MHALO puts its rows into
the mesh neighbour's scratch and nothing else there changes; PM_LOAD to a bank that no running context has selected
writes the block's commands from its index on (R220, R239, R245, R246). -/
def Obligations.StoresCopiesAndHalosArrive : Prop :=
  ∀ (s : State) (t : Thread) (q : QEntry) (cmd : Cmd) (b : MBlk) (d : Desc) (p : Part) (rows cols : Nat),
    b = mblkOf (s.context t) cmd → p = s.threadPart t → (rows, cols) = d.part b b.rows b.cols →
    (rows ≠ 0 → cols ≠ 0 → s.MoveReady t 0x74 q cmd false anyFmt (b.off, blockBytes d.fmt b.rows b.cols) d →
      s.allWritable p (d.blockRanges b rows cols) = true → s.Readable p (d.blockRanges b rows cols) →
      ∃ u r, Machine.exec (.mstore t) s = .next u ∧ (u.stream t .move).cur = some r ∧ r.ended = true ∧ r.status = stOk
        ∧ (s.context t).SameRegs (u.context t)
        ∧ (∀ a n, rows = 1 → fmtBits d.fmt % 8 = 0 → n = cols * (fmtBits d.fmt / 8) →
            a = d.blockRow b 0 + b.o.getD 0 0 * (fmtBits d.fmt / 8) → s.FreeHbm p a n →
            u.readVa p a n = (s.core (threadCore t)).readScratch b.off n))
    ∧ (∀ e r2 c2, rows ≠ 0 → cols ≠ 0 → s.MoveReady t 0x75 q cmd false anyFmt (0, 0) d →
      s.ready p (s.handleRanges p (b.w4 % 2 ^ 16)) = true →
      s.checkHandle p (b.w4 % 2 ^ 16) = .ok e → e.fmt = d.fmt → e.overDim = none → (r2, c2) = e.part b b.rows b.cols →
      r2 ≠ 0 → c2 ≠ 0 → s.allWritable p (e.blockRanges b (min rows r2) (min cols c2)) = true →
      s.Readable p (d.blockRanges b (min rows r2) (min cols c2) ++ e.blockRanges b (min rows r2) (min cols c2)) →
      ∃ u r, Machine.exec (.mcopy t) s = .next u ∧ (u.stream t .move).cur = some r ∧ r.ended = true ∧ r.status = stOk
        ∧ (s.context t).SameRegs (u.context t)
        ∧ (∀ a a' n, min rows r2 = 1 → fmtBits d.fmt % 8 = 0 → n = min cols c2 * (fmtBits d.fmt / 8) →
            a = d.blockRow b 0 + b.o.getD 0 0 * (fmtBits d.fmt / 8) →
            a' = e.blockRow b 0 + b.o.getD 0 0 * (fmtBits d.fmt / 8) → s.FreeHbm p a' n →
            u.readVa p a' n = s.readVa p a n))
    ∧ (∀ n r c pitch from' to', s.Issues t .move 0x76 q cmd → neighbour (threadCore t) (cmd.bits 1 25 24) = some n →
      r = cmd.bits 5 31 16 → c = cmd.bits 5 15 0 → pitch = ceilDiv c 32 * 32 → from' = cmd.bits 4 15 0 * 32 →
      to' = cmd.bits 6 15 0 * 32 → 0 < r → 0 < c → from' + r * pitch ≤ generalEnd → to' + r * pitch ≤ generalEnd →
      ∃ u, Machine.exec (.mhalo t) s = .next u
        ∧ (∀ i, i < r →
          (u.core n).readScratch (to' + i * pitch) c = (s.core (threadCore t)).readScratch (from' + i * pitch) c)
        ∧ (∀ x, (∀ i, i < r → ¬ (to' + i * pitch ≤ x ∧ x < to' + i * pitch + c)) →
            Memory.read (u.core n).scratch x = Memory.read (s.core n).scratch x)
        ∧ (∀ k, k ≠ n → (u.core k).scratch = (s.core k).scratch) ∧ u = { s with cores := u.cores }
        ∧ u.stream t .move = (s.stream t .move).took { s.running0 t .move q cmd with ended := true })
    ∧ (∀ at', rows ≠ 0 → cols ≠ 0 → s.MoveReady t 0x78 q cmd false anyFmt (0, 0) d →
      s.Readable p (d.blockRanges b rows cols) →
      at' = b.w4 % 2 ^ 14 / 2 * 2 →
      (s.loadBlock p d b b.rows b.cols (rowBytes d.fmt b.cols)).length = 64 →
      (s.core (threadCore t)).bankInUse (decide (8192 ≤ at')) = false →
      ∃ u, Machine.exec (.pmLoad t) s = .next u
        ∧ (∀ i, Sparse.get Cmd.zero (u.core (threadCore t)).program i =
            if i = at' then cmdOf (((s.loadBlock p d b b.rows b.cols (rowBytes d.fmt b.cols)).map Prod.fst).take 32)
            else if i = at' + 1 then cmdOf (((s.loadBlock p d b b.rows b.cols (rowBytes d.fmt b.cols)).map Prod.fst).drop 32)
            else Sparse.get Cmd.zero (s.core (threadCore t)).program i)
        ∧ u.stream t .move = (s.stream t .move).took { s.running0 t .move q cmd with ended := true })

/-! ## Host packets and rings -/

/-- Reading a packet moves its ring's head past it and holds it under a fresh number; NOP completes with value 0, a
malformed packet ends MALFORMED with no other effect, and QUERY_STATS answers one whole record for each handle, 64
zero bytes for a handle with none, or SHAPE_OVER where the result buffer is too small. PACKET_COMPLETE writes the
finished packet's reply entry at the reply tail, moves the tail by one and forgets the packet; a result body stands
whole in the half its new generation selects, under a header with that generation, its length and pending clear
(R396-R402, R405, R409). -/
def Obligations.PacketsAreReadAndAnswered : Prop :=
  (∀ (s w : State) (ring : Ring) (p : Part) (bs : List Byte) (k : Packet),
     w = s.taken p ring → k = Packet.init (s.part p).freshId ring bs →
     (∀ needs, s.PacketAt ring p bs needs → s.Reads w p ring bs k)
     ∧ (s.PacketAt ring p bs [] → isPacket 0x01 bs = true →
       ∃ u, Machine.exec (.nopPacket ring) s = .next u
         ∧ w.PacketEnds u p k { k with ended := true, status := some stOk, value := 0 } ∧ w.OnlyPart u p)
     ∧ (s.PacketAt ring p bs [] → malformed bs = true →
       ∃ u, Machine.exec (.malformedPacket ring) s = .next u
         ∧ w.PacketEnds u p k { k with ended := true, status := some stMalformed } ∧ w.OnlyPart u p)
     ∧ (s.PacketAt ring p bs [] → isPacket 0x09 bs = true → (pktResult bs = 0 ∨ pktCap bs < pktParam bs 2 2 * 64) →
       ∃ u, Machine.exec (.queryStats ring) s = .next u
         ∧ w.PacketEnds u p k { k with ended := true, status := some stShapeOver } ∧ w.OnlyPart u p)
     ∧ (s.PacketAt ring p bs ((upTo (pktParam bs 2 2)).map (fun i => (s.descAddr p (pktParam bs 0 2 + i), 128))
           ++ ((s.queryRecords p bs).filter (fun a => decide (a ≠ 0))).map (fun a => (a, 64))) →
       isPacket 0x09 bs = true → pktResult bs ≠ 0 → pktParam bs 2 2 * 64 ≤ pktCap bs →
       (∀ i, i < pktParam bs 2 2 → w.poisoned p (w.descAddr p (pktParam bs 0 2 + i)) 128 = false) →
       ∃ u, Machine.exec (.queryStats ring) s = .next u
         ∧ w.PacketEnds u p k { k with
             ended := true
             status := some stOk
             body := some ((w.queryRecords p bs).flatMap
               (fun a => if a = 0 then List.replicate 64 0 else w.readVa p a 64))
             bodyPoison := (w.queryRecords p bs).map (fun a => decide (a ≠ 0) && w.poisoned p a 64) } ∧ w.OnlyPart u p))
    ∧ (∀ (s : State) (p : Part) (k : Packet) (r : Nat),
         s.live = true → s.nextReply p = some k → r = k.ring.val → s.heldWrites = [] →
         s.FreeHbm p (s.rqAddr r (s.regN .hifRqTail r)) 32 →
         (pktResult k.bytes = 0 →
           ∃ u, Machine.exec (.packetComplete p) s = .next u
             ∧ u.readVa p (s.rqAddr r (s.regN .hifRqTail r)) 32
                 = replyBytes (ringPhase (s.regN .hifRqTail r) (s.regN .hifRqSize r)) (k.status.getD stOk)
                     (outcomeOf (k.status.getD stOk) k.delayed) (k.bucket + k.resource * 16) (2 * b2n k.borrowed)
                     (pktOpcode k.bytes) (pktSeq k.bytes) 0 k.detail k.detail2 k.value
             ∧ u.regN .hifRqTail r = (s.regN .hifRqTail r + 1) % 2 ^ 32
             ∧ (u.part p).packets = (s.part p).packets.filter (fun x => decide (x.id ≠ k.id))
             ∧ (∀ q, q ≠ p → u.part q = s.part q) ∧ u.cores = s.cores ∧ u.sync = s.sync ∧ u.reserve = s.reserve)
         ∧ (∀ addr half gen flags b, pktResult k.bytes = addr → addr ≠ 0 → k.body = some b → k.bodyOut = false →
           gen = (leNat (s.readVa p addr 4) + 1) % 2 ^ 32 → half = addr + 64 + gen % 2 * pktCap k.bytes →
           flags = leNat (s.readVa p (addr + 12) 4) → s.FreeHbm p addr 16 → s.FreeHbm p half b.length →
           s.Apart p addr 16 half b.length → s.Apart p addr 16 (s.rqAddr r (s.regN .hifRqTail r)) 32 →
           s.Apart p half b.length (s.rqAddr r (s.regN .hifRqTail r)) 32 →
           ∃ u, Machine.exec (.packetComplete p) s = .next u
             ∧ u.readVa p addr 16 = resultHeader gen (pktSeq k.bytes) b.length (flags / 2 * 2)
             ∧ u.readVa p half b.length = b
             ∧ u.readVa p (s.rqAddr r (s.regN .hifRqTail r)) 32
                 = replyBytes (ringPhase (s.regN .hifRqTail r) (s.regN .hifRqSize r)) (k.status.getD stOk)
                     (outcomeOf (k.status.getD stOk) k.delayed) (k.bucket + k.resource * 16) (2 * b2n k.borrowed)
                     (pktOpcode k.bytes) (pktSeq k.bytes) gen k.detail k.detail2 k.value
             ∧ (u.part p).packets = (s.part p).packets.filter (fun x => decide (x.id ≠ k.id))))

/-- A ring's pointers move forward only: a submission tail within the ring, a reply head, a placement log tail and an
event head not past what was written are taken and nothing else changes; otherwise the write is dropped and logged.
REGISTER_WRITE: a plain register takes the written value in its writable bits, within its bounds, its other bits
staying as they were; a read-only or locked one stays; an offset where no register starts, a register out of reach,
and a write of half a 64-bit register change nothing but the log (R4, R7-R9, R397, R471, R474, R492-R495, R499, R501,
R510). -/
def Obligations.RegistersAndRingPointersTakeTheirWrites : Prop :=
  (∀ (s : State) (r : Requester) (ring : Ring) (p : Part) (v : BitVec 32) (src : BitVec 16), s.live = true →
     (s.mayWriteReg r ⟨.hifSqTail, ring.val, 0⟩ = true → s.partOfRing ring.val = some p →
       Machine.exec (.hifSqTailWrite r ring v) s = .next (
         if s.running p = true ∧ ahead32 (s.regN .hifSqHead ring.val) (s.regN .hifSqTail ring.val)
               ≤ ahead32 (s.regN .hifSqHead ring.val) v.toNat
             ∧ ahead32 (s.regN .hifSqHead ring.val) v.toNat ≤ s.regN .hifSqSize ring.val
         then s.setRegN .hifSqTail ring.val 0 v.toNat
         else s.log (surveyorSource p) 1 (f2 ring.val ++ f4 v.toNat)))
     ∧ (s.mayWriteReg r ⟨.hifRqHead, ring.val, 0⟩ = true → s.partOfRing ring.val = some p →
       Machine.exec (.hifRqHeadWrite r ring v) s = .next (
         if ahead32 (s.regN .hifRqHead ring.val) v.toNat
             ≤ ahead32 (s.regN .hifRqHead ring.val) (s.regN .hifRqTail ring.val)
         then s.setRegN .hifRqHead ring.val 0 v.toNat
         else s.log (surveyorSource p) 1 (f2 ring.val ++ f4 v.toNat)))
     ∧ (s.mayWriteReg (partReq p) ⟨.survLogTail, p.val, 0⟩ = true →
       ahead32 (s.regN .survLogTail p.val) v.toNat ≤ ahead32 (s.regN .survLogTail p.val) (s.regN .survLogHead p.val) →
       Machine.exec (.survLogTailWrite p v) s = .next (s.setRegN .survLogTail p.val 0 v.toNat))
     ∧ (sourceExists src.toNat = true → s.mayWriteReg r ⟨.evtHead, src.toNat, 0⟩ = true →
       Machine.exec (.evtHeadWrite r src v) s = .next (
         if ahead32 (s.regN .evtHead src.toNat) v.toNat ≤ ahead32 (s.regN .evtHead src.toNat) (s.regN .evtTail src.toNat)
         then s.setRegN .evtHead src.toNat 0 v.toNat
         else s.accessDropped r.val 0 (0x220000000000 + RegName.evtHead.offset src.toNat 0)))
     ∧ (sourceExists src.toNat = true → s.mayWriteReg r ⟨.evtCtrl, src.toNat, 0⟩ = true →
       s.regN .evtCtrl src.toNat = 0 →
       s.ringPlaced (s.sourceOwner src.toNat) (s.regN .evtBase src.toNat) (s.regN .evtSize src.toNat * 32) = true →
       (s.source src).held = [] →
       ∃ u, Machine.exec (.evtEnable r src) s = .next u ∧ u.regN .evtCtrl src.toNat = 1
         ∧ u.regN .evtHead src.toNat = s.regN .evtTail src.toNat
         ∧ u.regN .evtTail src.toNat = s.regN .evtTail src.toNat
         ∧ u.hbm = s.hbm ∧ u.parts = s.parts ∧ u.cores = s.cores ∧ u.sync = s.sync))
    ∧ (∀ (s : State) (r : Requester) (off : BitVec 26) (wide : Bool) (v : DWord) (a : RegAt), s.live = true →
         (regHalf off.toNat = some (a, false) → s.mayWriteReg r a = true → (a.reg.row.wide = true → wide = true) →
           (a.reg.row.access = .rw →
             Machine.exec (.registerWrite r off wide v) s = .next (s.setRegN a.reg a.i a.j
               (clampAll a.reg.row.bounds
                 ((s.regN a.reg a.i a.j - (s.regN a.reg a.i a.j &&& a.reg.row.mask))
                   + ((if a.reg.row.wide then v.toNat else v.toNat % 2 ^ 32) &&& a.reg.row.mask)))))
           ∧ (a.reg.row.access = .ro → Machine.exec (.registerWrite r off wide v) s = .next s)
           ∧ (a.reg.row.access = .rwl → s.boot.locked = true → Machine.exec (.registerWrite r off wide v) s = .next s))
         ∧ (regHalf off.toNat = none →
           Machine.exec (.registerWrite r off wide v) s = .next (s.accessDropped r.val 0 (0x220000000000 + off.toNat)))
         ∧ (∀ upper, regHalf off.toNat = some (a, upper) → s.mayWriteReg r a = false → a.reg.row.access ≠ .rwl →
           Machine.exec (.registerWrite r off wide v) s = .next (s.accessDropped r.val 0 (0x220000000000 + off.toNat)))
         ∧ (∀ upper, regHalf off.toNat = some (a, upper) → s.mayWriteReg r a = true →
           (upper = true ∨ (a.reg.row.wide = true ∧ wide = false)) →
           Machine.exec (.registerWrite r off wide v) s = .next (s.accessDropped r.val 1 (0x220000000000 + off.toNat))))

/-! ## Statistics and steering -/

/-- Gauger takes the next partial: into its record, where each count is added and saturates at its field's limit, each
sampled exponent counts in its bin up to 0xFFF, and amax is the greater one; a partial whose record is held waits in
the held queue and changes no memory (R136-R142). The ring of the die's Gauger is disabled, so that events wait in its
buffer. -/
def Obligations.GaugerMergesPartials : Prop :=
  ∀ (s : State) (d : Die) (m : Partial) (rest : List Partial),
    s.live = true → (s.die d).held = [] → (s.die d).arrivals = m :: rest → s.regN .evtCtrl (0x1000 + d.val) = 0 →
    m.record ≠ 0 →
    (s.recordHeld m = true →
      ∃ u, Machine.exec (.statsPartialMerge d) s = .next u ∧ (u.die d).held = [m] ∧ (u.die d).arrivals = rest
        ∧ u.hbm = s.hbm ∧ u.regs = s.regs ∧ u.parts = s.parts)
    ∧ (∀ old, s.recordHeld m = false → m.chans = [] → s.FreeHbm m.part m.record 64 → old = s.readVa m.part m.record 64 →
      (v32 (recAmax old)).isNan = false →
      ∃ u new, Machine.exec (.statsPartialMerge d) s = .next u ∧ new = u.readVa m.part m.record 64
        ∧ recCount new = Nat.min (recCount old + m.count) (2 ^ 48 - 1)
        ∧ field new 11 6 = Nat.min (field old 11 6 + m.zeros) (2 ^ 48 - 1)
        ∧ field new 17 5 = Nat.min (field old 17 5 + m.sats) (2 ^ 40 - 1)
        ∧ field new 22 5 = Nat.min (field old 22 5 + m.nonfin) (2 ^ 40 - 1)
        ∧ field new 27 3 = Nat.min (field old 27 3 + m.nulls) (2 ^ 24 - 1)
        ∧ (∀ i, i < 16 → recBin new i = Nat.min (recBin old i
            + (m.samples.filter (fun e => sampledAt (recShift old) e.1 && decide (binOf e.2 (recBase old) = i))).length) 0xFFF)
        ∧ recAmax new = (if m.count = m.nonfin then recAmax old
            else if cmpVal (v32 (recAmax old)) (v32 m.amax.toNat) = .lt then m.amax.toNat else recAmax old)
        ∧ recBase new = recBase old ∧ recShift new = recShift old
        ∧ (u.die d).arrivals = rest ∧ u.regN .gauMerges d.val = (s.regN .gauMerges d.val + 1) % 2 ^ 64)

/-- STEP_END notes the step it will end, and while it waits no packet of its partition is read; its snapshot advances
the step by one, opens the step's summary and answers the new step; a suspect summary decides nothing, one that agrees
lets every group whose entry was read follow the width rule, and the first one after a restore with an invalid member
takes every member cold; the decision's words then stand in the slot of the next step and in its copy in memory
(R141-R147, R151-R154, R159). -/
def Obligations.StepEndsAreDecided : Prop :=
  ∀ (s : State) (p : Part),
    (∀ ring bs k, s.PacketAt ring p bs [] → isPacket 0x08 bs = true → k = Packet.init (s.part p).freshId ring bs →
      ∃ u, Machine.exec (.stepEnd ring) s = .next u ∧ s.Reads u p ring bs k
        ∧ (u.part p).update.stepEnd = some (s.regN .partStep p.val))
    ∧ (∀ ring, (s.part p).stepEndWaits = true → s.partOfRing ring.val = some p →
      Machine.exec (.nopPacket ring) s = .next s ∧ Machine.exec (.queryStats ring) s = .next s
        ∧ Machine.exec (.copy ring) s = .next s ∧ Machine.exec (.launch ring) s = .next s)
    ∧ (∀ k, s.live = true → s.running p = true → (s.part p).waitingPacket 0x08 = some k →
      s.earlierDone p k.id = true → s.partialsDone p = true → (s.part p).assize.openStep = none →
      (∀ x ∈ (s.part p).assize.arrived, x.agreement = false) → (s.part p).assize.deciding = none →
      s.ready p (s.snapshotRanges p) = true →
      ∃ u k', Machine.exec (.stepEndSnapshot p) s = .next u
        ∧ u.regN .partStep p.val = (s.regN .partStep p.val + 1) % 2 ^ 64
        ∧ (u.part p).assize.openStep = some (s.regN .partStep p.val)
        ∧ (u.part p).assize.coldLeft = (s.part p).assize.coldLeft - 1
        ∧ k' ∈ (u.part p).packets ∧ k'.id = k.id ∧ k'.ended = true ∧ k'.value = s.regN .partStep p.val + 1)
    ∧ (∀ x rest n, s.live = true → s.running p = true → (s.part p).assize.arrived = x :: rest → x.agreement = false →
      x.step = n → (s.part p).assize.openStep = some n → (s.part p).assize.deciding = none →
        s.ready p (s.flagRanges p) = true →
      ∃ u, Machine.exec (.statsSummaryArrival p) s = .next u
        ∧ (u.part p).assize.arrived = rest ∧ (u.part p).assize.deciding = some ((n + 1) % 2)
        ∧ (u.part p).assize.held = []
        ∧ (x.suspect = true → (u.part p).assize.groups = (s.part p).assize.groups)
        ∧ (x.suspect = false → (s.part p).assize.awaiting = true → field x.bytes 32 4 ≠ 0 →
            (u.part p).assize.cold = true ∧ (u.part p).assize.awaiting = false
              ∧ (u.part p).assize.coldLeft = (s.part p).assize.params.getD 10 0)
        ∧ (x.suspect = false → (s.part p).assize.awaiting = false → (s.part p).assize.cold = false →
            field x.bytes 24 4 = field x.bytes 28 4 → field x.bytes 8 8 = field x.bytes 16 8 →
            ∀ g a old new, g < (s.part p).assize.groupCount → a = (s.part p).assize → old = a.group g →
              new = (u.part p).assize.group g → a.unread.contains g = false →
              new.a = (old.a.rule a.params (a.cfg g) 0 (a.sums x.bytes g 0)).1
                ∧ new.w = (old.w.rule a.params (a.cfg g) 1 (a.sums x.bytes g 1)).1
                ∧ new.g = (old.g.rule a.params (a.cfg g) 2 (a.sums x.bytes g 2)).1))
    ∧ (∀ slot, s.live = true → s.running p = true → (s.part p).assize.deciding = some slot →
      s.ready p (s.flagRanges p) = true →
      ∃ u, Machine.exec (.assizeDecisionComplete p) s = .next u
        ∧ (u.part p).assize.deciding = none ∧ (u.part p).assize.openStep = none
        ∧ (∀ g, g < (s.part p).assize.groupCount → u.wordAt p slot g = s.finalWord p slot g)
        ∧ (∀ base n, base = s.regN .aszWordBase p.val + 8192 * slot → n = (s.part p).assize.groupCount →
            s.copyOk p = true → s.FreeHbm p base (2 * n) →
            u.readVa p base (2 * n) = (upTo n).flatMap (fun g => leBytes 2 (s.finalWord p slot g).toNat)))

/-- ASZ_RESTORE takes the saved record and the silent runs beside it as memory holds them and shows cold words until
it is judged; ASZ_AGREE with no statistics bucket takes this member's own header as the agreed one, and with one opens
an agreement round; ASZ_PROMOTE_CLR notes the group whose promotion the next snapshot ends (R156-R159). -/
def Obligations.AssizeObeysItsControl : Prop :=
  ∀ (s : State) (p : Part), s.live = true →
    (∀ bs at' n runs m groups, s.mayWriteReg (partReq p) ⟨.aszCtrl, p.val, 0⟩ = true →
      s.ready p (s.savedRanges p) = true →
      at' = s.regN .updAszSave p.val → groups = Nat.min (leNat (s.readVa p (at' + 16) 4)) 4096 → n = 64 + 16 * groups →
      runs = at' + s.savedRunsAt p groups → m = 2 * s.regN .aszWatchCount p.val →
      s.mapped p at' n = true → s.poisoned p at' n = false → s.mapped p runs m = true → s.poisoned p runs m = false →
      bs = s.readVa p at' n ++ s.readVa p runs m → at' % 64 = 0 →
      ∃ u, Machine.exec (.aszRestore p) s = .next u
        ∧ (u.part p).assize = { (s.part p).assize with
            restored := some bs, everRestored := true, awaiting := true, words := [] }
        ∧ (∀ slot g, u.wordAt p slot g = coldWord (s.groupCfg p g))
        ∧ u.regN .aszCtrl p.val = (s.regN .aszCtrl p.val ||| 1)
        ∧ u.hbm = s.hbm ∧ ∀ q, q ≠ p → u.part q = s.part q)
    ∧ (s.mayWriteReg (partReq p) ⟨.aszCtrl, p.val, 0⟩ = true → s.ready p (s.configRanges p) = true →
      (s.part p).assize.awaiting = false →
      ((s.part p).statsBucket = none →
        ∃ u, Machine.exec (.aszAgree p) s = .next u
          ∧ (u.part p).assize.arrived = (s.part p).assize.arrived ++ [⟨summaryHeader (s.regN .partStep p.val)
              (s.stateDigest p (s.regN .partStep p.val)) (s.invalidCause p).isSome, false, true, s.regN .partStep p.val⟩]
          ∧ u.regN .aszCtrl p.val = (s.regN .aszCtrl p.val ||| 2))
      ∧ (∀ id b, (s.part p).statsBucket = some (id, b) → (s.part p).rounds = [] →
        ∃ u r, Machine.exec (.aszAgree p) s = .next u ∧ (u.part p).rounds = [r]
          ∧ r.bucket = id ∧ r.cls = 0 ∧ r.ready = true ∧ r.size = 64 ∧ r.step = s.regN .partStep p.val
          ∧ u.regN .aszCtrl p.val = (s.regN .aszCtrl p.val ||| 2)))
    ∧ (∀ group : BitVec 12, s.mayWriteReg (partReq p) ⟨.aszPromoteClr, p.val, 0⟩ = true →
      ∃ u, Machine.exec (.aszPromoteClr p group) s = .next u
        ∧ u = { s with parts := u.parts } ∧ (∀ q, q ≠ p → u.part q = s.part q)
        ∧ group.toNat ∈ (u.part p).assize.clears
        ∧ (∀ g, g ≠ group.toNat → (g ∈ (u.part p).assize.clears ↔ g ∈ (s.part p).assize.clears))
        ∧ (u.part p).packets = (s.part p).packets ∧ (u.part p).assize.groups = (s.part p).assize.groups)

/-! ## Grids and contexts -/

/-- LAUNCH reads its packet and starts its threads: one thread of a plain launch takes context 0 of the first core of
the first die, running from its four entry points with predicate p0 alone, its numeric control word and its thread
number, and no other context changes; a launch while the cap is unreachable is refused; a grid whose threads are done
ends (R168, R169, R251, R403, R404, R433). -/
def Obligations.LaunchStartsThreads : Prop :=
  ∀ (s w : State) (ring : Ring) (p : Part) (bs : List Byte) (k : Packet),
    w = s.taken p ring → k = Packet.init (s.part p).freshId ring bs →
    (∀ d ds t, s.PacketAt ring p bs [] → isPacket 0x02 bs = true → s.powerRefuses = false → launchHandles bs = [] →
      pktParam bs 34 6 = 0 → pktParam bs 26 6 = 0 → pktParam bs 13 1 < 2 → launchThreads bs = 1 →
      s.diesOf p = d :: ds → t = threadOf (coreAt d 0) 0 →
      (∀ x ∈ (s.part p).packets, pktOpcode x.bytes = 0x08 → x.ended = true) →
      (∀ e ∈ (s.core (coreAt d 0)).contexts, e.2.run = .free) →
      ∃ u k', Machine.exec (.launch ring) s = .next u
        ∧ (u.context t).run = .running ∧ (u.context t).halt = none ∧ (u.context t).grid = some k.id
        ∧ (u.context t).bank = launchBank bs ∧ (u.context t).preds = 1
        ∧ (u.context t).ncw = BitVec.ofNat 16 (pktParam bs 22 2)
        ∧ (u.context t).sregs = (s.context t).sregs ∧ (∀ i, (u.context t).param i = 0)
        ∧ (u.context t).scalar.pc = pktParam bs 20 2 ∧ (u.context t).vector.pc = pktParam bs 18 2
        ∧ (u.context t).matrix.pc = pktParam bs 16 2 ∧ (u.context t).move.pc = pktParam bs 14 2
        ∧ (∀ st, (u.stream t st).queue = [] ∧ (u.stream t st).loops = [] ∧ (u.stream t st).cur = none
            ∧ (u.stream t st).count = 0)
        ∧ (∀ t', t' ≠ t → u.context t' = s.context t')
        ∧ k' ∈ (u.part p).packets ∧ k'.id = k.id ∧ k'.started = true ∧ k'.ended = false ∧ k'.placed = 1 ∧ k'.alive = 1)
    ∧ (s.PacketAt ring p bs (s.launchRanges p bs) → isPacket 0x02 bs = true → s.powerRefuses = true →
      ∃ u, Machine.exec (.launch ring) s = .next u
        ∧ w.PacketEnds u p k { k.done stPower with resource := 5 } ∧ w.OnlyPart u p)
    ∧ (∀ g, s.live = true → (s.part p).packets.find? Packet.gridDone = some g → s.packet? p g.id = some g →
      launchChained g.bytes = false →
      ∃ u, Machine.exec (.launchComplete p) s = .next u ∧ s.PacketEnds u p g (g.done stOk) ∧ s.OnlyPart u p)

/-- PREEMPT marks the contexts it names, which issue no further command; a marked context with nothing in flight halts
in place, or is freed where the action is end, and the last of them ends the PREEMPT; RESUME lets the contexts that a
PREEMPT halted go on and answers their number; threads outside the partition end either HANDLE_INVALID (R170). -/
def Obligations.PreemptAndResume : Prop :=
  ∀ (s w : State) (ring : Ring) (p : Part) (bs : List Byte) (k : Packet),
    w = s.taken p ring → k = Packet.init (s.part p).freshId ring bs →
    (∀ row ∈ [(Instr.preemptHalt ring, false), (Instr.preemptEnd ring, true)], s.PacketAt ring p bs [] →
      isPacket 0x0A bs = true → bitOf (pktParam bs 4 1) 0 = row.2 →
      (s.namedThreads p bs = none →
        ∃ u, Machine.exec row.1 s = .next u ∧ w.PacketEnds u p k (k.done stHandle) ∧ w.OnlyPart u p)
      ∧ (∀ ts, s.namedThreads p bs = some ts → (∀ t ∈ ts, (s.context t).preemptible = false) →
        ∃ u, Machine.exec row.1 s = .next u ∧ w.PacketEnds u p k (k.done stOk) ∧ w.OnlyPart u p)
      ∧ (∀ ts, s.namedThreads p bs = some ts → (∃ t ∈ ts, (s.context t).preemptible = true) →
        ∃ u, Machine.exec row.1 s = .next u
          ∧ (∀ t ∈ ts, (s.context t).preemptible = true → ∃ b, (u.context t).preempt = some (k.id, b)
            ∧ (row.2 = true → b = true)
              ∧ u.context t = { s.context t with preempt := (u.context t).preempt })
          ∧ (∀ t, t ∉ ts → u.context t = s.context t)
          ∧ { k with started := true
                     pending := (ts.filter (fun t => (s.context t).preemptible)).map (fun t => t.toNat) } ∈ (u.part p).packets))
    ∧ (s.PacketAt ring p bs [] → isPacket 0x0B bs = true →
      (s.namedThreads p bs = none →
        ∃ u, Machine.exec (.resume ring) s = .next u ∧ w.PacketEnds u p k (k.done stHandle) ∧ w.OnlyPart u p)
      ∧ (∀ ts hit, s.namedThreads p bs = some ts →
        hit = ts.filter (fun t => decide ((s.context t).halt.map (fun h => h.reason) = some 2)) →
        ∃ u, Machine.exec (.resume ring) s = .next u
          ∧ (∀ t ∈ hit, u.context t = { s.context t with halt := none })
          ∧ (∀ t, t ∉ hit → u.context t = s.context t)
          ∧ w.PacketEnds u p k { k.done stOk with value := hit.length }))
    ∧ (∀ t id, s.live = true → coreExists (threadCore t) = true → p = s.threadPart t → (s.context t).halt = none →
      (s.context t).run = .running → (s.context t).busy = false →
      (∀ x ∈ (s.part p).packets, pktOpcode x.bytes ≠ 0x02) →
      ((s.context t).preempt = some (id, false) →
        ∃ u, Machine.exec (.contextHalted t) s = .next u
          ∧ u.context t = { s.context t with preempt := none, halt := some ⟨2, none, .scalar, 0, true⟩ }
          ∧ (∀ t', t' ≠ t → u.context t' = s.context t')
          ∧ (∀ x, (s.part p).packets = [x] → pktOpcode x.bytes = 0x0A → x.pending = [t.toNat] → x.ended = false →
              (u.part p).packets = [{ x.done stOk with pending := [], value := x.value + 1 }]))
      ∧ ((s.context t).preempt = some (id, true) →
        ∃ u, Machine.exec (.contextHalted t) s = .next u ∧ (u.context t).run = .free ∧ (u.context t).preempt = none
          ∧ (u.context t).grid = none ∧ (u.context t).sregs = (s.context t).sregs
          ∧ (∀ st, (u.stream t st).queue = [] ∧ (u.stream t st).cur = none ∧ (u.stream t st).ended = true)
          ∧ (∀ t', t' ≠ t → u.context t' = s.context t')))

/-- A stop unit armed on a thread whose count has been reached halts it; a thread halted by a stop unit or an illegal
command, with nothing in flight, is dumped once, its 768 bytes going to its partition's dump address, and logged; a
resume of the unit's halted thread lets it go on, and has no effect while the thread is not halted (R222, R223, R514).
-/
def Obligations.StopUnitsHaltDumpAndResume : Prop :=
  ∀ (s : State) (p : Part) (unit : Fin 16), s.live = true →
    (∀ (ctrl : BitVec 32) t st n, s.mayWriteReg (partReq p) ⟨.dbgStopCtrl, unit.val, 0⟩ = true →
      s.stopWritable p unit = true → s.stopPart ctrl.toNat = some p → t = stopThread ctrl.toNat →
        st = stopStream ctrl.toNat →
      n = s.regN .dbgStopCount unit.val →
      ∃ u, Machine.exec (.dbgStopArm p unit ctrl) s = .next u
        ∧ u.regN .dbgStopCtrl unit.val = ctrl.toNat &&& 0x80037FFF
        ∧ u.context t = (if bitOf ctrl.toNat 31 = true ∧ (s.context t).run ≠ .free ∧ n ≤ (s.stream t st).count.toNat
              ∧ (s.context t).halt = none then
            { s.context t with halt := some ⟨0, some unit, st, BitVec.ofNat 32 n, false⟩ } else s.context t)
        ∧ (∀ t', t' ≠ t → u.context t' = s.context t')
        ∧ u.parts = s.parts ∧ u.hbm = s.hbm ∧ u.sync = s.sync)
    ∧ (∀ t h x, coreExists (threadCore t) = true → (s.context t).halt = some h → h.dumped = false → h.reason < 2 →
      (h.unit = some x ∨ h.unit = none) → (s.context t).busy = false →
      ∃ u, Machine.exec (.threadDump t) s = .next u
        ∧ ((∀ st, (s.stream t st).loops.length ≤ 4) → (s.dumpBytes t h).length = 768)
        ∧ (∀ k a va, va = s.regN .dbgDumpAddr (s.threadPart t).val / 256 * 256 →
          s.place (s.threadPart t) va = .host k a →
            s.regN .evtCtrl (coreSource (threadCore t) 0).toNat = 0 →
            u.rclPort k = (s.writeVa (s.threadPart t) va (s.dumpBytes t h) false).rclPort k)
        ∧ u.context t = { s.context t with halt := some { h with dumped := true } }
        ∧ (∀ t', t' ≠ t → u.context t' = s.context t')
        ∧ u.regN .evtSeq ((threadCore t).toNat * 8) = (s.regN .evtSeq ((threadCore t).toNat * 8) + 1) % 2 ^ 32
        ∧ u.sync = s.sync)
    ∧ (∀ t, s.mayWriteReg (partReq p) ⟨.dbgStopResume, unit.val, 0⟩ = true → s.stopWritable p unit = true →
      s.stopHalted unit = true → s.stopPart (s.regN .dbgStopCtrl unit.val) = some p →
      t = stopThread (s.regN .dbgStopCtrl unit.val) →
      ∃ u, Machine.exec (.dbgStopResume p unit) s = .next u ∧ u = { s with cores := u.cores }
        ∧ u.context t = { s.context t with halt := none } ∧ (∀ t', t' ≠ t → u.context t' = s.context t'))
    ∧ (s.mayWriteReg (partReq p) ⟨.dbgStopResume, unit.val, 0⟩ = true → s.stopWritable p unit = true →
      s.stopHalted unit = false → Machine.exec (.dbgStopResume p unit) s = .next s)

/-! ## Surveyor: tensors, slots, pages -/

/-- TENSOR_ALLOC with no scale tensor and no record: a shape that R530 refuses ends the packet, a partition with no
room is told so, and otherwise the lowest free handle names a tensor at the place Surveyor found over the hinted
stripe set, or in HBM over the automatic one, its descriptor stands in the table, and the packet answers the handle
(R225-R228, R251, R530). TENSOR_FREE waits for the partition's earlier commands; then the handle names no tensor, its
descriptor reads free and its pages are unmapped; PLACE_HINT writes the hint word of the descriptor and ends OK (R225,
R229). -/
def Obligations.TensorsArePlacedFreedAndHinted : Prop :=
  (∀ (s w : State) (ring : Ring) (p : Part) (bs : List Byte) (k : Packet),
     w = s.taken p ring → k = Packet.init (s.part p).freshId ring bs → s.PacketAt ring p bs (s.handleRanges p 0) →
     isPacket 0x04 bs = true → pktHandle bs 0 = 0 →
     (allocShapeBad bs = true →
       ∃ u, Machine.exec (.tensorAlloc ring) s = .next u ∧ w.PacketEnds u p k (k.done stShapeOver) ∧ w.OnlyPart u p)
     ∧ (∀ h set outside h0 auto autoOut autoH0 tiers why, allocShapeBad bs = false → (s.part p).freeHandle = some h →
       (set, outside, h0) = w.stripeOf p h (allocDesc h bs).hints (allocDesc h bs).footprint none →
       (auto, autoOut, autoH0) = w.stripeOf p h 0 (allocDesc h bs).footprint none →
       (tiers, why) = tierOrder (allocDesc h bs) →
       (w.placeFirst p (set, h0) (auto, autoH0) (allocDesc h bs).footprint tiers = none →
         ∃ u, Machine.exec (.tensorAlloc ring) s = .next u ∧ w.PacketEnds u p k { k.done stQuota with resource := 7 }
           ∧ (u.part p).tensors = (s.part p).tensors ∧ (u.part p).pageTable = (s.part p).pageTable)
       ∧ (∀ x, w.placeFirst p (set, h0) (auto, autoH0) (allocDesc h bs).footprint tiers = some x →
         pktParam bs 36 1 % 2 = 0 → x.state.FreeHbm p (x.state.descAddr p h) 128 →
         (∀ i, x.state.Apart p (x.state.descAddr p h) 128
           (x.state.regN .survLogBase p.val + i % x.state.regN .survLogSize p.val * 32) 32) →
         ∃ u t, Machine.exec (.tensorAlloc ring) s = .next u ∧ w.PacketEnds u p k { k.done stOk with value := h }
           ∧ Sparse.find? (u.part p).tensors h = some t ∧ t.base = x.base ∧ t.pages = x.pages ∧ t.tier = x.tier
           ∧ t.stripe = x.set ∧ t.offset = x.h0 ∧ t.bytes = (allocDesc h bs).footprint ∧ t.record = 0
           ∧ t.off = .resident ∧ t.armed = true ∧ t.leaving = false
           ∧ (∀ h', h' ≠ h → Sparse.find? (u.part p).tensors h' = Sparse.find? (s.part p).tensors h')
           ∧ (u.part p).pageTable = (x.state.part p).pageTable ∧ u.usedHbm = x.state.usedHbm
           ∧ u.readVa p (x.state.descAddr p h) 128 = descBytes { allocDesc h bs with base := x.base })))
    ∧ (∀ (s w : State) (ring : Ring) (p : Part) (bs : List Byte) (k : Packet),
         w = s.taken p ring → k = Packet.init (s.part p).freshId ring bs →
         (s.PacketAt ring p bs (s.handleRanges p (pktHandle bs 0)) → isPacket 0x05 bs = true →
           (∀ d, w.checkHandle p (pktHandle bs 0) = .ok d → Machine.exec (.tensorFree ring) s = .next w)
           ∧ (∀ st, w.checkHandle p (pktHandle bs 0) = .fail st false →
             ∃ u, Machine.exec (.tensorFree ring) s = .next u ∧ w.PacketEnds u p k (k.done st) ∧ w.OnlyPart u p))
         ∧ (∀ f h t, s.live = true → s.running p = true → (s.part p).waitingPacket 0x05 = some f →
           s.packet? p f.id = some f →
           s.earlierDone p f.id = true → h = pktHandle f.bytes 0 → s.handleBusy p h = false →
           Sparse.find? (s.part p).tensors h = some t → t.leaving = false → (s.part p).moving h = false →
           t.record = 0 → pageSize ≤ t.bytes → s.FreeHbm p (s.descAddr p h) 128 →
           (∀ l ∈ linesOf (s.descAddr p h) 128, ∀ i, pageIndex l = some i →
             i < t.firstPage ∨ t.firstPage + t.pages ≤ i) →
           ∃ u, Machine.exec (.tensorFreeTakesEffect p) s = .next u ∧ s.PacketEnds u p f (f.done stOk)
             ∧ Sparse.find? (u.part p).tensors h = none
             ∧ (∀ h', h' ≠ h → Sparse.find? (u.part p).tensors h' = Sparse.find? (s.part p).tensors h')
             ∧ u.readVa p (s.descAddr p h) 128 = List.replicate 128 0
             ∧ (∀ j, j < t.pages → ((u.part p).page (t.firstPage + j)).valid = false)
             ∧ (∀ i, (i < t.firstPage ∨ t.firstPage + t.pages ≤ i) → (u.part p).page i = (s.part p).page i))
         ∧ (∀ d, s.PacketAt ring p bs (s.handleRanges p (pktHandle bs 0)) → isPacket 0x06 bs = true →
           w.checkHandle p (pktHandle bs 0) = .ok d → w.FreeHbm p (w.descAddr p (pktHandle bs 0) + 120) 4 →
           ∃ u, Machine.exec (.placeHint ring) s = .next u ∧ w.PacketEnds u p k (k.done stOk)
             ∧ u.readVa p (w.descAddr p (pktHandle bs 0) + 120) 4 = leBytes 4 (pktParam bs 0 4)
             ∧ u.cores = w.cores ∧ u.sync = w.sync ∧ u.regs = w.regs))

/-- SLOT_OPEN with no shared block takes the lowest free slot with its own page table, resets its sync object and
answers the slot; SLOT_CLOSE waits for earlier commands and then frees the slot; growth never takes a block away
(R268-R273). -/
def Obligations.SlotsOpenGrowAndClose : Prop :=
  ∀ (s w : State) (ring : Ring) (p : Part) (bs : List Byte) (k : Packet),
    w = s.taken p ring → k = Packet.init (s.part p).freshId ring bs →
    (∀ d n s1 table obj, s.PacketAt ring p bs (s.handleRanges p (pktHandle bs 0)) → isPacket 0x18 bs = true →
      (s.freeSlot p) = some n → w.checkHandle p (pktHandle bs 0) = .ok d → obj = BitVec.ofNat 15 (pktParam bs 17 2) →
      s.ownsSync p obj = true → pktParam bs 13 2 = 0 →
      w.allocTable p = some (s1, table) →
      ∃ u x l, Machine.exec (.slotOpen ring) s = .next u ∧ w.PacketEnds u p k { k.done stOk with value := n }
        ∧ u.slot? p n = some x ∧ x.pool = pktHandle bs 0 ∧ x.layers = pktParam bs 8 2 ∧ x.perPage = pktParam bs 10 2
        ∧ x.ahead = pktParam bs 12 1 ∧ x.obj = obj ∧ x.table = table
        ∧ (∀ n', n' ≠ n → u.slot? p n' = s.slot? p n')
        ∧ u.syncQueue = w.syncQueue ++ ⟨obj, .reset 0, none, firmwareSource 0⟩ :: l)
    ∧ (s.PacketAt ring p bs [] → isPacket 0x19 bs = true →
      (∀ x, s.slot? p (pktParam bs 0 2) = some x → Machine.exec (.slotClose ring) s = .next w)
      ∧ (s.slot? p (pktParam bs 0 2) = none →
        ∃ u, Machine.exec (.slotClose ring) s = .next u ∧ w.PacketEnds u p k (k.done stHandle) ∧ w.OnlyPart u p))
    ∧ (∀ f x, s.live = true → s.running p = true → (s.part p).waitingPacket 0x19 = some f → s.packet? p f.id = some f →
      s.earlierDone p f.id = true → s.slot? p (pktParam f.bytes 0 2) = some x →
      ∃ u, Machine.exec (.slotCloseTakesEffect p) s = .next u ∧ s.PacketEnds u p f (f.done stOk)
        ∧ u.slot? p (pktParam f.bytes 0 2) = none
        ∧ (∀ n y, n ≠ pktParam f.bytes 0 2 → s.slot? p n = some y → ∃ z, u.slot? p n = some z ∧ y.blocks ≤ z.blocks))
    ∧ (s.live = true → s.running p = true → 0 < (s.part p).growSignals →
      ∃ u, Machine.exec (.kvGrowSignal p) s = .next u ∧ (u.part p).growSignals = (s.part p).growSignals - 1
        ∧ (u.part p).packets = (s.part p).packets ∧ (u.part p).tensors = (s.part p).tensors
        ∧ (∀ n, (u.slot? p n).isSome = (s.slot? p n).isSome)
        ∧ (∀ n y, s.slot? p n = some y → ∃ z, u.slot? p n = some z ∧ y.blocks ≤ z.blocks ∧ z.layers = y.layers
            ∧ z.pool = y.pool ∧ z.table = y.table ∧ z.obj = y.obj))

/-- A page's migration marks it, then its entry names the new frame and the old one waits until nothing can reach it;
an armed tensor whose trigger has come starts moving to the frames found for it, or stays when there is no room.
SET_PHASE changes the partition's tag at once, or, with drain, once every earlier packet has completed, the later ones
waiting meanwhile; entering FORWARD re-arms every tensor's offload (R237, R259-R267). -/
def Obligations.PagesMigrateAndPhasesChange : Prop :=
  (∀ (s : State) (p : Part), s.live = true →
     (∀ m, (s.part p).flying < 64 → s.nextMigration p = some m →
       (m.toHost = true →
         ∃ u, Machine.exec (.pageMigrationStart p) s = .next u ∧ s.OnlyPart u p
           ∧ (u.part p).page m.page = { (s.part p).page m.page with migrating := true }
           ∧ (∀ i, i ≠ m.page → (u.part p).page i = (s.part p).page i) ∧ (u.part p).flying = (s.part p).flying + 1)
       ∧ (∀ f, m.toHost = false → s.prefetchFrame p m = some f →
         ∃ u, Machine.exec (.pageMigrationStart p) s = .next u
           ∧ (u.part p).page m.page = { (s.part p).page m.page with migrating := true }
           ∧ (∀ i, i ≠ m.page → (u.part p).page i = (s.part p).page i) ∧ Sparse.get false u.usedHbm f = true
           ∧ (u.part p).flying = (s.part p).flying + 1))
     ∧ (∀ (page : BitVec 21) m, (s.part p).migrations.find? (fun x => x.started && decide (x.page = page.toNat)) = some m →
       m.toRead = 0 → m.inFlight = 0 →
       (m.toHost = true → s.frameWaits m.oldFrame = false ∧ s.ownedLines m.oldFrame = []) →
       (∀ t, Sparse.find? (s.part p).tensors m.handle = some t → t.leaving = false) →
       ∃ u, Machine.exec (.pageCopyComplete p page) s = .next u
         ∧ (u.part p).page page.toNat
             = ⟨true, ((s.part p).page page.toNat).writable, m.newTarget, m.newPort, false, false, m.newFrame⟩
         ∧ (∀ i, i ≠ page.toNat → (u.part p).page i = (s.part p).page i)
         ∧ (page.toNat, m.oldTarget, m.oldPort.val, m.oldFrame) ∈ (u.part p).retired ∧ m ∉ (u.part p).migrations
         ∧ (∀ h ∈ u.heldWrites, h.part = p → h.line = none → pageIndex h.va ≠ some page.toNat))
     ∧ (∀ (page : BitVec 21) r, (s.part p).retired.find? (fun x => decide (x.1 = page.toNat)) = some r →
       (r.2.1 = .hbm → s.heldLines r.2.2.2 = [] →
         ∃ u, Machine.exec (.oldFrameFree p page) s = .next u ∧ Sparse.get false u.usedHbm r.2.2.2 = false
           ∧ (∀ f, f ≠ r.2.2.2 → Sparse.get false u.usedHbm f = Sparse.get false s.usedHbm f)
           ∧ u.usedHost = s.usedHost ∧ (u.part p).retired = (s.part p).retired.erase r ∧ u.hbm = s.hbm)
       ∧ (r.2.1 = .host → r.2.2.1 < 4 →
         ∃ u, Machine.exec (.oldFrameFree p page) s = .next u
           ∧ Sparse.get false u.usedHost (r.2.2.1 * 2 ^ 21 + r.2.2.2) = false ∧ u.usedHbm = s.usedHbm
           ∧ (u.part p).retired = (s.part p).retired.erase r))
     ∧ (∀ (h : Handle) t moving, s.running p = true → Sparse.find? (s.part p).tensors h.toNat = some t →
       t.armed = true →
       t.leaving = false → t.off = .resident → s.offloadable p h.toNat t = true →
       (s.part p).offloadTrigger (hintLayer (s.desc p h.toNat).hints) = true →
       moving = ((upTo t.pages).map (fun j => t.firstPage + j)).filter (fun i => decide (((s.part p).page i).target ≠ .host)) →
       (s.arenaFrames p moving.length = none →
         ∃ u, Machine.exec (.offloadTrigger p h) s = .next u
           ∧ Sparse.find? (u.part p).tensors h.toNat = some { t with armed := false }
           ∧ (u.part p).migrations = (s.part p).migrations ∧ (u.part p).pageTable = (s.part p).pageTable)
       ∧ (∀ s1 frames, s.arenaFrames p moving.length = some (s1, frames) → moving ≠ [] →
         ∃ u more, Machine.exec (.offloadTrigger p h) s = .next u
           ∧ Sparse.find? (u.part p).tensors h.toNat = some { t with armed := false, off := .offloading }
           ∧ (u.part p).migrations = (s.part p).migrations ++ more ∧ more.length = moving.length
           ∧ (∀ m ∈ more, m.handle = h.toNat ∧ m.toHost = true ∧ m.started = false ∧ m.page ∈ moving)
           ∧ u.usedHost = s1.usedHost ∧ (u.part p).pageTable = (s.part p).pageTable)
       ∧ (moving = [] → (∀ m ∈ (s.part p).migrations, m.handle ≠ h.toNat) →
         ∃ u, Machine.exec (.offloadTrigger p h) s = .next u
           ∧ Sparse.find? (u.part p).tensors h.toNat = some { t with armed := false, off := .host }
           ∧ (u.part p).migrations = (s.part p).migrations ∧ (u.part p).pageTable = (s.part p).pageTable)))
    ∧ (∀ (s w : State) (ring : Ring) (p : Part) (bs : List Byte) (k : Packet),
         w = s.taken p ring → k = Packet.init (s.part p).freshId ring bs →
         (s.PacketAt ring p bs [] → isPacket 0x07 bs = true →
           (pktParam bs 1 1 = 0 →
             ∃ u, Machine.exec (.setPhase ring) s = .next u ∧ w.PacketEnds u p k (k.done stOk) ∧ w.OnlyPart u p
               ∧ (u.part p).phase = pktParam bs 0 1
               ∧ (pktParam bs 0 1 = 1 → (s.part p).phase ≠ 1 → ∀ e ∈ (u.part p).tensors, e.2.armed = true))
           ∧ (pktParam bs 1 1 ≠ 0 →
             ∃ u, Machine.exec (.setPhase ring) s = .next u ∧ s.Reads u p ring bs k
               ∧ (u.part p).phase = (s.part p).phase
               ∧ (u.part p).drainPhase = some (k.id, pktParam bs 0 1) ∧ u.interprets p = false))
         ∧ (∀ f tag, s.live = true → s.running p = true → (s.part p).drainPhase = some (f.id, tag) →
           s.packet? p f.id = some f → s.earlierDone p f.id = true →
           ∃ u, Machine.exec (.setPhaseTakesEffect p) s = .next u ∧ s.PacketEnds u p f (f.done stOk) ∧ s.OnlyPart u p
             ∧ (u.part p).phase = tag ∧ (u.part p).drainPhase = none))

/-! ## Copies and the Update Die -/

/-- COPY gives the destination the source's extents and its elements: one row of whole bytes stands there afterwards;
an empty source ends EMPTY, formats that differ or name no format FORMAT_MISMATCH, and it is refused while the cap is
unreachable. REQUANT_COPY into a partition that does not run, or whose queue has no place, is refused; without a grant
it ends HANDLE_INVALID; else it holds or awaits the destination. Once its turn comes it forms the destination's
entries and writes the codes that R275 gives, one row of one-byte elements under a proportional scale being shown; and
when every element is visible and Gauger has taken its partials, it signals the destination, logs HANDOVER_DONE there
and ends OK (R142, R274-R277, R400). -/
def Obligations.CopiesDeliver : Prop :=
  ∀ (s w : State) (ring : Ring) (p : Part) (bs : List Byte) (k : Packet),
    w = s.taken p ring → k = Packet.init (s.part p).freshId ring bs →
    (∀ src dst, s.PacketAt ring p bs (s.copyRanges p bs) → isPacket 0x03 bs = true → s.powerRefuses = false →
      w.copyOnReserve p bs = false → w.checkHandle p (pktHandle bs 0) = .ok src →
        w.checkHandle p (pktHandle bs 1) = .ok dst →
      w.mappedRw p dst.base dst.footprint = true →
      (src.fmt ≠ dst.fmt ∨ src.fmt = 15 → ∃ u, Machine.exec (.copy ring) s = .next u
        ∧ w.PacketEnds u p k (k.done stFormat) ∧ w.OnlyPart u p)
      ∧ (src.fmt = dst.fmt → src.fmt < 15 → overDest src dst = none → src.isEmpty = true →
        ∃ u, Machine.exec (.copy ring) s = .next u ∧ w.PacketEnds u p k (k.done stEmpty))
      ∧ (src.fmt = dst.fmt → src.fmt < 15 → overDest src dst = none → src.isEmpty = false →
        ∃ u, Machine.exec (.copy ring) s = .next u ∧ w.PacketEnds u p k (k.done stOk)
          ∧ (∀ a b n, src.rowCount = 1 → fmtBits src.fmt % 8 = 0 → a = src.rowAddr (src.rowIndex 0) →
              b = dst.rowAddr (src.rowIndex 0) → n = src.extent 0 * (fmtBits src.fmt / 8) → w.FreeHbm p a n →
                w.FreeHbm p b n →
              w.Apart p a n b n → w.Apart p a n (w.descAddr p dst.handle) 128 →
              u.readVa p b n = w.readVa p a n)))
    ∧ (s.PacketAt ring p bs (s.copyRanges p bs) → isPacket 0x03 bs = true → s.powerRefuses = true →
      ∃ u, Machine.exec (.copy ring) s = .next u ∧ w.PacketEnds u p k { k.done stPower with resource := 5 }
        ∧ w.OnlyPart u p)
    ∧ (∀ q, s.PacketAt ring p bs [] → isPacket 0x14 bs = true → s.powerRefuses = false → q = requantDest bs →
      (s.requantAllowed p bs = false → (s.handoverTo p q = true → s.running q = true) →
        (∀ st, w.admission p (reqKey q.val (pktHandle bs 1)) ≠ .refused st) →
        ∃ u, Machine.exec (.requantCopy ring) s = .next u ∧ w.PacketEnds u p k (k.done stHandle) ∧ w.OnlyPart u p)
      ∧ (∀ st, (s.handoverTo p q = true → s.running q = true) →
        w.admission p (reqKey q.val (pktHandle bs 1)) = .refused st →
        ∃ u, Machine.exec (.requantCopy ring) s = .next u ∧ w.PacketEnds u p k { k.done st with resource := 8 }
          ∧ w.OnlyPart u p)
      ∧ (s.handoverTo p q = true → s.running q = false →
        ∃ u, Machine.exec (.requantCopy ring) s = .next u ∧ w.PacketEnds u p k { k.done stPartState with resource := 4 }
          ∧ w.OnlyPart u p)
      ∧ (∀ pool, s.requantAllowed p bs = true → s.running q = true →
        w.admission p (reqKey q.val (pktHandle bs 1)) = .served pool →
        ∃ u, Machine.exec (.requantCopy ring) s = .next u
          ∧ w.PacketServed u p k (reqKey q.val (pktHandle bs 1)) 0 pool ∧ w.OnlyPart u p))
    ∧ (∀ c q src dst, s.live = true → s.running p = true → (s.part p).requantNext = some c → s.packet? p c.id = some c →
      s.earlierDone p c.id = true → q = requantDest c.bytes → s.running q = true → s.requantAllowed p c.bytes = true →
      s.requantHeld q c.bytes = false →
      s.ready p (s.requantRanges p c.bytes) = true → s.ready q (s.requantDestRanges q c.bytes) = true →
      s.checkHandle p (pktHandle c.bytes 0) true = .ok src → s.checkHandle q (pktHandle c.bytes 1) true = .ok dst →
      s.mappedRw q dst.base dst.footprint = true → src.fmt < 8 → dst.fmt < 8 → src.scaleAxis = dst.scaleAxis →
      overDest src dst = none → src.isEmpty = false → s.firstPoisoned p (s.requantRanges p c.bytes) = none →
      (∀ i, i < src.extent src.scaleAxis → entryOk (s.memEntry p src i) (some src.fmt) src.firstPass = true) →
      ∃ u c', Machine.exec (.requantCopyStart p) s = .next u ∧ c' ∈ (u.part p).packets ∧ c'.id = c.id ∧ c'.placed = 1
        ∧ c'.ended = false ∧ (c'.status = some stOk ∨ c'.status = some stSaturated)
        ∧ (∀ at' n (entry : Nat → ScaleEntry), src.rowCount = 1 → fmtBits dst.fmt = 8 →
          requantMeasured c.bytes = false →
            0 < src.extent src.scaleAxis → at' = dst.rowAddr (src.rowIndex 0) → n = src.extent 0 → s.FreeHbm q at' n →
            (∀ i, entry i = requantEntry false src.fmt dst.fmt 0 (s.memEntry p src i) (s.memEntry q dst i)) →
            u.readVa q at' n = packRow dst.fmt
              ((s.rowElems p src.fmt (src.rowAddr (src.rowIndex 0)) 0 n).zipIdx.map (fun x =>
                (requantElem src.fmt dst.fmt (requantClass c.bytes)
                  (s.memEntry p src (((src.rowIndex 0).set 0 x.2).getD src.scaleAxis 0))
                  (entry (((src.rowIndex 0).set 0 x.2).getD src.scaleAxis 0)) x.1.1
                  (dst.elementIndex ((src.rowIndex 0).set 0 x.2))).1))))
    ∧ (∀ c q, s.live = true → s.running p = true → (s.part p).requantDone = some c → s.packet? p c.id = some c →
      q = requantDest c.bytes → s.writesWait q (s.desc q (pktHandle c.bytes 1)) = false →
      s.partialsOut q (pktHandle c.bytes 1) = false →
      ∃ u, Machine.exec (.handoverDone p) s = .next u ∧ s.PacketEnds u p c (c.done stOk)
        ∧ u.syncQueue = s.syncQueue ++ [⟨requantObj c.bytes, .signal 1, none, surveyorSource q⟩]
        ∧ u.regN .evtSeq (0x1020 + q.val) = (s.regN .evtSeq (0x1020 + q.val) + 1) % 2 ^ 32)

/-- UPDATE_STEP binds to the last STEP_END, is refused with none, ends EMPTY over no entry, and otherwise joins the
jobs once its checks pass and its unit is served, or is refused when no unit can be; a rewrite needs no STEP_END. Pass
one leaves each entry's norm partial and frozen granules, or ends the step at a poisoned gradient; pass two starts
when the norm is there and the words are final, and skips the rule where R291 says so; the release of an entry signals
its object, and that of the last ends the step with its number (R281-R300). -/
def Obligations.UpdateStepsRunTheirPasses : Prop :=
  ∀ (s w : State) (ring : Ring) (p : Part) (bs : List Byte) (k : Packet),
    w = s.taken p ring → k = Packet.init (s.part p).freshId ring bs →
    (s.PacketAt ring p bs (s.updRanges p bs) → isPacket 0x11 bs = true → usRewrite bs = false → s.powerRefuses = false →
      ((s.part p).update.stepEnd = none →
        ∃ u, Machine.exec (.updateStep ring) s = .next u ∧ w.PacketEnds u p k { k.done stPartState with resource := 4 }
          ∧ w.OnlyPart u p)
      ∧ (∀ n, (s.part p).update.stepEnd = some n → usCount bs = 0 →
        ∃ u, Machine.exec (.updateStep ring) s = .next u ∧ w.PacketEnds u p k (k.done stEmpty)
          ∧ (u.part p).update.stepEnd = none)
      ∧ (∀ n es pool, (s.part p).update.stepEnd = some n → usCount bs ≠ 0 → es = w.ptabEntries p bs →
        w.poisoned p (w.ptabAddr p (usFirst bs)) (64 * usCount bs) = false → w.updCheck p bs es = none →
        w.admission p updKey = .served pool →
        ∃ u, Machine.exec (.updateStep ring) s = .next u ∧ w.PacketServed u p k updKey (w.updBytes p k) pool
          ∧ (u.part p).update.stepEnd = none ∧ (u.part p).update.jobs = (s.part p).update.jobs ++ [mkJob k es n])
      ∧ (∀ n st, (s.part p).update.stepEnd = some n → usCount bs ≠ 0 → w.admission p updKey = .refused st →
        ∃ u, Machine.exec (.updateStep ring) s = .next u ∧ w.PacketEnds u p k { k.done st with resource := 3 }
          ∧ (u.part p).update.stepEnd = none ∧ (u.part p).update.jobs = (s.part p).update.jobs))
    ∧ (∀ es pool, s.PacketAt ring p bs (s.updRanges p bs) → isPacket 0x11 bs = true → usRewrite bs = true →
      s.powerRefuses = false → usCount bs ≠ 0 → es = w.ptabEntries p bs →
      w.poisoned p (w.ptabAddr p (usFirst bs)) (64 * usCount bs) = false → w.updCheck p bs es = none →
      w.admission p updKey = .served pool →
      ∃ u, Machine.exec (.updateStepRewrite ring) s = .next u ∧ w.PacketServed u p k updKey (w.updBytes p k) pool
        ∧ (u.part p).update.stepEnd = (s.part p).update.stepEnd
        ∧ (u.part p).update.jobs = (s.part p).update.jobs ++ [mkJob k es 0])
    ∧ (∀ j c x entry, s.live = true → s.running p = true → (s.part p).updJob = some (j, c) →
      j.entries.find? (fun y => decide (y.index = entry)) = some x →
      s.oneReady p j x = true → s.updServes p = true → s.ready p (s.passOneRanges p x) = true →
      (∀ v, s.passOne p x.raw (s.frozenNow p x.raw) = .inl v →
        ∃ u j' rest x', Machine.exec (.updatePassOneEntry p entry) s = .next u ∧ (u.part p).update.jobs = j' :: rest
          ∧ j'.entries.find? (fun y => decide (y.index = entry)) = some x' ∧ x'.norm = some (BitVec.ofNat 32 v)
          ∧ x'.frozen = s.frozenNow p x.raw ∧ x'.raw = x.raw ∧ j'.passTwo = false ∧ j'.entries.length = j.entries.length
          ∧ u.cores = s.cores ∧ u.hbm = s.hbm)
      ∧ (∀ g, s.passOne p x.raw (s.frozenNow p x.raw) = .inr g →
        ∃ u, Machine.exec (.updatePassOneEntry p entry) s = .next u
          ∧ s.PacketEnds u p c { c.done stPoisoned with detail := x.index, detail2 := g }
          ∧ (u.part p).update.jobs = (s.part p).update.jobs.tail))
    ∧ (∀ j c, s.live = true → s.running p = true → (s.part p).updJob = some (j, c) → j.passTwo = false →
      (j.rewrite = true ∨ (j.norm.isSome = true ∧ j.boundStep < s.regN .partStep p.val)) → j.normPoison = false →
      s.wordsFinal p j = true → (s.part p).update.overlaps j = false → s.updLinked p (s.passTwoRanges p j c) = true →
      s.updServes p = true → s.ready p (s.passTwoRanges p j c) = true →
      ∃ u j' rest, Machine.exec (.updatePassTwoStart p) s = .next u ∧ (u.part p).update.jobs = j' :: rest
        ∧ j'.packet = j.packet ∧ j'.passTwo = true ∧ j'.written ≤ j.written + j.entries.length
          ∧ j'.released = j.released
        ∧ (j'.poison = none → j.poison = none ∧ j'.written = j.written + j.entries.length)
        ∧ (j.rewrite = false → (v32 ((j.norm.getD 0).toNat)).finite = false →
            j'.skip = some (0, usNorm c.bytes)))
    ∧ (∀ j c x, s.live = true → s.running p = true → (s.part p).updJob = some (j, c) → j.passTwo = true →
      j.released < j.written → j.entries[j.released]? = some x → s.entryVisible p j x.raw = true →
      ∃ u, Machine.exec (.entryRelease p) s = .next u
        ∧ u.syncQueue = s.syncQueue ++ [⟨peObj x.raw, .signal 1, none, updSource⟩]
        ∧ (j.released + 1 ≠ j.entries.length →
            ∃ rest, (u.part p).update.jobs = { j with released := j.released + 1 } :: rest
              ∧ (u.part p).packets = (s.part p).packets)
        ∧ (j.released + 1 = j.entries.length → (u.part p).update.jobs = (s.part p).update.jobs.tail
            ∧ s.PacketEnds u p c { c.done (if j.saturated then stSaturated else stOk) with value := j.step }))

/-- A Reserve address lies in the package and at the offset that R279 gives, each address in one place of its own;
every 2 MiB frame draws on all twelve packages; and a Reserve line carries poison (R279, R482). -/
def Obligations.ReserveUnitsRotateOverThePackages : Prop :=
  ∀ (s : State) (x : Nat),
    reservePackage x = x / 256 % 12 ∧ reserveOffset x = x / 256 / 12 * 256 + x % 256
    ∧ (∀ y, reservePackage y = reservePackage x → reserveOffset y = reserveOffset x → y = x)
    ∧ s.packageByte (reservePackage x) (reserveOffset x) = Memory.read s.reserve x
    ∧ (∀ k, k < 12 → ∃ y, y / pageSize = x / pageSize ∧ reservePackage y = k)
    ∧ (∀ cells, ((s.storeReserve (x / 64 * 64) cells true).loadReserve (x / 64 * 64)).2 = true)

/-- CHECKPOINT and RESTORE ask for a port of the partition and a unit of the Update Die. A checkpoint starts with the
next number, its Assize record, the parameter table and the silent runs saved where the model lays them (log 64), and
ends OK with its number and count once its last header is acknowledged; one whose acknowledgement fails to come ends
ABANDONED with the count acknowledged. A restore reads both headers, then places the slot's bytes where the state
region says (R304-R308). -/
def Obligations.CheckpointsAndRestores : Prop :=
  ∀ (s w : State) (ring : Ring) (p : Part) (bs : List Byte) (k : Packet),
    w = s.taken p ring → k = Packet.init (s.part p).freshId ring bs →
    (∀ row ∈ [(Instr.checkpoint ring, 0x12), (Instr.restore ring, 0x13)], s.PacketAt ring p bs [] →
      isPacket row.2 bs = true →
      s.powerRefuses = false →
      (s.ownsFab p (mirrorPort bs).val = false →
        ∃ u, Machine.exec row.1 s = .next u
          ∧ w.PacketEnds u p k { k.done stQuota with resource := 1, detail := (mirrorPort bs).val } ∧ w.OnlyPart u p)
      ∧ (∀ pool, s.ownsFab p (mirrorPort bs).val = true → w.admission p updKey = .served pool →
        ∃ u, Machine.exec row.1 s = .next u ∧ w.PacketServed u p k updKey (w.updBytes p k) pool ∧ w.OnlyPart u p))
    ∧ (∀ c n, s.live = true → s.running p = true → (s.part p).servedPacket 0x12 = some c →
      (s.part p).update.ckpt = none →
      s.earlierDone p c.id = true → (s.mirrorLink (mirrorPort c.bytes)).isSome = true →
        s.ready p (s.ckptRanges p) = true →
      n = (s.regN .updCkptNumber p.val + 1) % 2 ^ 32 → (s.fab (mirrorPort c.bytes)).state = .up →
      ∃ u j, Machine.exec (.checkpointStart p) s = .next u ∧ (u.part p).update.ckpt = some j ∧ j.packet = c.id
        ∧ j.port = mirrorPort c.bytes ∧ j.number = n ∧ j.stage = 0 ∧ j.sent = 0 ∧ j.acked = 0
        ∧ u.regN .updCkptNumber p.val = n
        ∧ (∀ at' kept groups runs size, at' = s.regN .updAszSave p.val → kept = s.savedNow p →
          groups = recordGroups kept.1 →
            kept.1.length = 64 + 16 * groups → runs = 2 * s.regN .aszWatchCount p.val → size = s.savedLength p groups →
            s.FreeHbm p at' size →
            u.readVa p at' kept.1.length = kept.1
            ∧ (s.Apart p (s.regN .updPtabBase p.val) (64 * s.regN .updPtabCount p.val) at' size →
                u.readVa p (at' + savedTableAt groups) (64 * s.regN .updPtabCount p.val) = s.ptabBytes p)
            ∧ u.readVa p (at' + s.savedRunsAt p groups) runs = (kept.2 ++ List.replicate runs 0).take runs))
    ∧ (∀ port x c j key rest, s.live = true → s.headCell port tyMirrorAck = some x →
      s.ackOwner port x.target.toNat = some (p, j, key, rest) →
      (j.stage = 1 → key < 2 ^ 60 →
        ∃ u j', Machine.exec (.mirrorAck port) s = .next u ∧ s.Consumed u port 6 x ∧ (u.part p).update.ckpt = some j'
          ∧ j'.acked = j.acked + 1 ∧ j'.number = j.number
          ∧ Sparse.get false (if j.number % 2 = 0 then (u.part p).update.clean0 else (u.part p).update.clean1) key = true)
      ∧ (2 ≤ j.stage → s.packet? p j.packet = some c →
        ∃ u, Machine.exec (.mirrorAck port) s = .next u ∧ (u.part p).update.ckpt = none
          ∧ s.PacketEnds u p c { c.done stOk with value := j.number + j.sent * 2 ^ 32 }))
    ∧ (∀ c j, s.live = true → s.packet? p c.id = some c →
      ((s.part p).update.ckpt = some j → j.flying ≠ [] → j.packet = c.id →
        ∃ u, Machine.exec (.checkpointAckTimeout p) s = .next u ∧ (u.part p).update.ckpt = none
          ∧ s.PacketEnds u p c { c.done stAbandoned with value := j.number + j.acked * 2 ^ 32 })
      ∧ (∀ r, (s.part p).update.ckpt = none → (s.part p).update.restore = some r → r.packet = c.id →
        ∃ u, Machine.exec (.checkpointAckTimeout p) s = .next u ∧ (u.part p).update.restore = none
          ∧ s.PacketEnds u p c (c.done stAbandoned)))
    ∧ (∀ c, s.live = true → s.running p = true → (s.part p).servedPacket 0x13 = some c →
      (s.part p).update.restore = none →
      (∀ x ∈ (s.part p).packets, c.id ≤ x.id ∨ x.ended = true) → (s.mirrorLink (mirrorPort c.bytes)).isSome = true →
      (s.fab (mirrorPort c.bytes)).state = .up →
      ∃ u, Machine.exec (.restoreStart p) s = .next u
        ∧ (u.part p).update.restore = some ⟨c.id, mirrorPort c.bytes, none, none, none, 0⟩
        ∧ s.Sends u (mirrorPort c.bytes) [mkCell tyMirrorRead 0 0 true true false (padPayload 32 (leBytes 4 64)),
            mkCell tyMirrorRead 0 64 true true false (padPayload 32 (leBytes 4 64))])
    ∧ (∀ port x j, s.live = true → s.headCell port tyMirrorData = some x →
      allParts.find? (fun q => (s.part q).update.restore.any (fun r => decide (r.port = port))) = some p →
      (s.part p).update.restore = some j →
      (j.chosen = none → x.target.toNat = 0 → j.head1 = none → x.poison = false →
        ∃ u, Machine.exec (.mirrorData port) s = .next u ∧ s.Consumed u port 6 x
          ∧ (u.part p).update.restore = some { j with head0 := some (x.payload.take 64) })
      ∧ (∀ h n at', j.chosen = some h →
        x.target.toNat = pageSize + field h 24 8 % 2 * s.regN .updStateSize p.val + j.got →
        n = x.payload.length → j.got + n < s.regN .updStateSize p.val → at' = s.regN .updStateBase p.val + j.got →
        s.FreeHbm p at' n →
        ∃ u, Machine.exec (.mirrorData port) s = .next u ∧ u.readVa p at' n = x.payload
          ∧ (u.part p).update.restore = some { j with got := j.got + n }))

/-- The neighbour's side: a mirror write inside the region of the rank that mirrors there is stored and acknowledged
at its last cell; a mirror read of the region is answered with its bytes; one outside changes no memory. A message
with a second first cell is a violation, and what follows of a message with a violation is dropped (R302, R332). -/
def Obligations.MirrorRegionServesItsRank : Prop :=
  ∀ (s : State) (port : FPort) (p : Part) (x : Cell), s.live = true →
    (∀ at' n, s.headCell port tyMirrorWrite = some x → s.mirrorOf port = some p → n = x.payload.length →
      ((s.fab port).rxMirror.find? (fun m => decide (m.1 = x.tag)) = none
        ∨ (x.first = false ∧ (s.fab port).rxMirror.find? (fun m => decide (m.1 = x.tag)) = some (x.tag, true))) →
      x.target.toNat + n ≤ s.regN .updMirrorSize p.val → at' = s.regN .updMirrorBase p.val + x.target.toNat →
        s.FreeHbm p at' n →
      ∃ u, Machine.exec (.mirrorWrite port) s = .next u ∧ s.Consumed u port 3 x ∧ u.readVa p at' n = x.payload
        ∧ (x.last = false → s.Sends u port [])
        ∧ (x.last = true →
          s.Sends u port [mkCell tyMirrorAck x.tag x.target.toNat true true false (List.replicate 32 0)])
        ∧ u.parts = s.parts ∧ u.cores = s.cores)
    ∧ (∀ ok, s.headCell port tyMirrorWrite = some x →
      (s.fab port).rxMirror.find? (fun m => decide (m.1 = x.tag)) = some (x.tag, ok) →
      (x.first = false → ok = false →
        ∃ u, Machine.exec (.mirrorWrite port) s = .next u ∧ s.Consumed u port 3 x ∧ s.Sends u port []
          ∧ u = { s with fabric := u.fabric })
      ∧ (x.first = true → (s.fab port).violations = [] → 1 ≤ s.regN .fabViolLimit →
        s.regN .evtCtrl (0x1030 + port.val) = 0 →
        ∃ u, Machine.exec (.mirrorWrite port) s = .next u ∧ s.Consumed u port 3 x ∧ s.Sends u port [] ∧ u.hbm = s.hbm
          ∧ u.reserve = s.reserve ∧ u.parts = s.parts ∧ (u.fab port).violations.length = 1))
    ∧ (s.headCell port tyMirrorWrite = some x → (s.fab port).rxMirror.find? (fun m => decide (m.1 = x.tag)) = none →
      (s.mirrorOf port = none
        ∨ (s.mirrorOf port = some p ∧ s.regN .updMirrorSize p.val < x.target.toNat + x.payload.length)) →
      (s.fab port).violations = [] → 1 ≤ s.regN .fabViolLimit → s.regN .evtCtrl 0x1080 = 0 →
      s.regN .evtCtrl (0x1030 + port.val) = 0 →
      ∃ u, Machine.exec (.mirrorWrite port) s = .next u ∧ s.Consumed u port 3 x ∧ u.hbm = s.hbm ∧ u.reserve = s.reserve
        ∧ u.parts = s.parts ∧ (u.fab port).violations.length = 1)
    ∧ (∀ len, s.headCell port tyMirrorRead = some x → s.mirrorOf port = some p → len = field x.payload 0 4 →
      x.target.toNat + len ≤ s.regN .updMirrorSize p.val →
      ∃ u, Machine.exec (.mirrorRead port) s = .next u ∧ s.Consumed u port 3 x
        ∧ s.Sends u port (messageCells tyMirrorData x.tag true true (fun o => x.target.toNat + o)
            (s.readMarked p (s.regN .updMirrorBase p.val + x.target.toNat) len))
        ∧ u = { s with fabric := u.fabric })
    ∧ (s.headCell port tyMirrorRead = some x → s.mirrorOf port = none →
      ∃ u, Machine.exec (.mirrorRead port) s = .next u ∧ s.Consumed u port 3 x ∧ s.Sends u port []
        ∧ u = { s with fabric := u.fabric })

/-! ## Puts, gets and windows -/

/-- A window is registered whole or refused, and removed once no message names it; PUT and GET of a served partition
send their cells under a fresh tag, and the peer's final cell ends them (R328-R331, Tables 11.8 and 14.4). -/
def Obligations.MessagesAreInitiated : Prop :=
  ∀ (s w : State) (ring : Ring) (p : Part) (bs : List Byte) (k : Packet),
    w = s.taken p ring → k = Packet.init (s.part p).freshId ring bs →
    (∀ n x, s.PacketAt ring p bs [] → isPacket 0x20 bs = true → bitOf (pktParam bs 1 1) 2 = false →
      n = pktParam bs 0 1 →
      x = { part := p, base := pktParam bs 16 8, size := pktParam bs 24 8, read := bitOf (pktParam bs 1 1) 0
            write := bitOf (pktParam bs 1 1) 1, rank := BitVec.ofNat 32 (pktParam bs 2 4)
            ports := BitVec.ofNat 32 (pktParam bs 6 4)
            obj := if pktParam bs 10 2 = 0x7FFF then none else some (BitVec.ofNat 15 (pktParam bs 10 2)), leaving := none } →
      (Sparse.find? s.windows n ≠ none →
        ∃ u, Machine.exec (.windowRegister ring) s = .next u ∧ w.PacketEnds u p k (k.done stHandle) ∧ w.OnlyPart u p)
      ∧ (Sparse.find? s.windows n = none → (∀ o, x.obj = some o → s.ownsSync p o = true) →
        w.mapped p x.base x.size = true →
        (x.write = true → w.mappedRw p x.base x.size = true) →
        ∃ u, Machine.exec (.windowRegister ring) s = .next u ∧ w.PacketEnds u p k (k.done stOk)
          ∧ Sparse.find? u.windows n = some x
          ∧ ∀ n', n' ≠ n → Sparse.find? u.windows n' = Sparse.find? s.windows n'))
    ∧ (∀ n, s.PacketAt ring p bs [] → isPacket 0x20 bs = true → bitOf (pktParam bs 1 1) 2 = true → n = pktParam bs 0 1 →
      (Sparse.find? s.windows n = none →
        ∃ u, Machine.exec (.windowDeregister ring) s = .next u ∧ w.PacketEnds u p k (k.done stHandle) ∧ w.OnlyPart u p)
      ∧ (∀ x, Sparse.find? s.windows n = some x → x.part = p → (∀ e ∈ s.windows, e.2.leaving = none) →
        s.windowBusy n = false →
        ∃ u, Machine.exec (.windowDeregister ring) s = .next u ∧ w.PacketEnds u p k { k.done stOk with started := true }
          ∧ Sparse.find? u.windows n = none
          ∧ ∀ n', n' ≠ n → Sparse.find? u.windows n' = Sparse.find? s.windows n'))
    ∧ (∀ d n va pool q, s.PacketAt ring p bs (s.putRanges p bs) → isPacket 0x21 bs = true → s.powerRefuses = false →
      n = putPort bs → q = s.fab n → s.ownsFab p n.val = true → w.admission p (fabKey n.val) = .served pool →
      w.checkHandle p (pktHandle bs 0) = .ok d → putLocal bs + putLength bs ≤ d.footprint → q.takesMessages = true →
      va = d.base + putLocal bs →
      ∃ u, Machine.exec (.put ring) s = .next u ∧ w.PacketServed u p k (fabKey n.val) (putLength bs) pool
        ∧ (u.fab n).txMessages = q.txMessages ++ [mkMessage q.nextTag false k.id p va (putLength bs)]
        ∧ (u.fab n).nextTag = q.nextTag + 1
        ∧ w.Sends u n (mkCell tyPutOpen q.nextTag (putWindow bs * 2 ^ 40 + putOffset bs) true false false
              (padPayload 32 (leBytes 4 (putLength bs)))
            :: messageCells tyPutData q.nextTag false true (fun o => putOffset bs + o) (w.markedBytes p va (putLength bs))))
    ∧ (∀ d n va pool q, s.PacketAt ring p bs (s.handleRanges p (pktHandle bs 0)) → isPacket 0x22 bs = true →
      s.powerRefuses = false → n = putPort bs → q = s.fab n → s.ownsFab p n.val = true →
      w.admission p (fabKey n.val) = .served pool → w.checkHandle p (pktHandle bs 0) = .ok d →
      putLocal bs + putLength bs ≤ d.footprint → va = d.base + putLocal bs → w.mappedRw p va (putLength bs) = true →
      q.takesMessages = true →
      ∃ u, Machine.exec (.get ring) s = .next u ∧ w.PacketServed u p k (fabKey n.val) (putLength bs) pool
        ∧ (u.fab n).txMessages = q.txMessages ++ [mkMessage q.nextTag true k.id p va (putLength bs)]
        ∧ (u.fab n).nextTag = q.nextTag + 1
        ∧ w.Sends u n [mkCell tyGetReq q.nextTag (putWindow bs * 2 ^ 40 + putOffset bs) true true false
            (padPayload 32 (leBytes 4 (putLength bs)))])
    ∧ (∀ port c m g, s.live = true → s.headCell port tyPutAck = some c →
      (s.fab port).txMessages.find? (fun y => decide (y.tag = c.tag) && !y.isGet) = some m →
      s.packet? m.part m.packet = some g → g.ended = false → pktOpcode g.bytes = 0x21 →
      ∃ u, Machine.exec (.putAck port) s = .next u ∧ s.Consumed u port 5 c
        ∧ (∀ y ∈ (u.fab port).txMessages, y.tag ≠ c.tag)
        ∧ s.PacketEnds u m.part g (if c.target.toNat % 256 = 0 then g.done stOk
            else if c.target.toNat % 256 = 5 then { g.done stPartState with resource := 4 } else g.done stHandle))

/-- A put or get that a peer opens is checked whole; its data cells land at the window's base plus their target, its
end is acknowledged and its window's object signalled once it is visible; a get is answered with the window's bytes,
or with one refusal; the answer to our own get lands in the local tensor, and its last cell ends it (R328-R330, R332).
-/
def Obligations.MessagesAreServed : Prop :=
  ∀ (s : State) (port : FPort) (c : Cell), s.live = true → (s.fab port).violations = [] →
    (∀ len win off, s.headCell port tyPutOpen = some c → c.first = true → (∀ m ∈ (s.fab port).rxPuts, m.tag ≠ c.tag) →
      (s.fab port).inbound < 256 → len = field c.payload 0 4 → win = bitsOf c.target.toNat 47 40 →
      off = bitsOf c.target.toNat 39 0 → putLenOk len = true → s.windowStatus port true win off len = 0 →
      ∃ u, Machine.exec (.putOpen port) s = .next u ∧ s.Consumed u port 2 c ∧ u = { s with fabric := u.fabric }
        ∧ (u.fab port).rxPuts = (s.fab port).rxPuts ++
            [{ tag := c.tag, window := win, offset := off, length := len, written := 0, status := 0, done := false }])
    ∧ (∀ m n x at', s.headCell port tyPutData = some c →
      (s.fab port).rxPuts.find? (fun y => decide (y.tag = c.tag)) = some m →
      m.done = false → c.first = false → m.status = 0 → n = c.payload.length → m.offset ≤ c.target.toNat →
      c.target.toNat + n ≤ m.offset + m.length → c.last = decide (m.written + n = m.length) →
      Sparse.find? s.windows m.window = some x → at' = x.base + c.target.toNat → s.FreeHbm x.part at' n →
      ∃ u, Machine.exec (.putData port) s = .next u ∧ s.Consumed u port 2 c ∧ u.readVa x.part at' n = c.payload
        ∧ (u.fab port).rxPuts.find? (fun y => decide (y.tag = c.tag))
            = some { m with written := m.written + n, done := c.last }
        ∧ u.parts = s.parts ∧ u.cores = s.cores ∧ u.regs = s.regs)
    ∧ (∀ m rest x o, (s.fab port).rxPuts = m :: rest → m.done = true → m.status = 0 →
      Sparse.find? s.windows m.window = some x → x.obj = some o →
        s.rangeWaits x.part (x.base + m.offset) m.length = false →
      ∃ u, Machine.exec (.putComplete port) s = .next u ∧ (u.fab port).rxPuts = rest
        ∧ u.syncQueue = s.syncQueue ++ [⟨o, .signal 1, none, fabSource port⟩]
        ∧ s.Sends u port [mkCell tyPutAck m.tag 0 true true false (List.replicate 32 0)])
    ∧ (∀ len win off, s.headCell port tyGetReq = some c → len = field c.payload 0 4 →
      win = bitsOf c.target.toNat 47 40 →
      off = bitsOf c.target.toNat 39 0 →
      (∀ x, putLenOk len = true → (s.fab port).inbound < 256 → Sparse.find? s.windows win = some x →
        s.windowStatus port false win off len = 0 →
        s.ready x.part [(x.base + off, len)] = true →
        ∃ u, Machine.exec (.getReq port) s = .next u ∧ s.Consumed u port 2 c
          ∧ s.Sends u port (messageCells tyGetResp c.tag true true (fun o => o) (s.markedBytes x.part (x.base + off) len))
          ∧ u.hbm = s.hbm ∧ u.parts = s.parts)
      ∧ (∀ st, st = (if putLenOk len = false ∨ 256 ≤ (s.fab port).inbound then 2 else s.windowStatus port false win off len) →
        st ≠ 0 → 1 ≤ s.regN .fabViolLimit →
        ∃ u, Machine.exec (.getReq port) s = .next u ∧ s.Consumed u port 2 c
          ∧ s.Sends u port [mkCell tyGetResp c.tag (st * 2 ^ 40) true true false (List.replicate 32 0)]))
    ∧ (∀ m n g at', s.headCell port tyGetResp = some c →
      (s.fab port).txMessages.find? (fun y => decide (y.tag = c.tag) && y.isGet) = some m → n = c.payload.length →
      c.target.toNat = m.landed → m.length ≤ 0x1000000 → m.landed + n ≤ m.length →
        c.last = decide (m.landed + n = m.length) →
      c.first = decide (m.landed = 0) → s.packet? m.part m.packet = some g → g.ended = false →
        pktOpcode g.bytes = 0x22 →
      at' = m.va + m.landed → s.FreeHbm m.part at' n →
      ∃ u, Machine.exec (.getResp port) s = .next u ∧ s.Consumed u port 5 c ∧ u.readVa m.part at' n = c.payload
        ∧ (c.last = true → s.PacketEnds u m.part g (g.done stOk) ∧ ∀ y ∈ (u.fab port).txMessages, y.tag ≠ m.tag))
    ∧ (s.headCell port tyMgmt = some c →
      ∃ u, Machine.exec (.mgmt port) s = .next u ∧ s.Consumed u port 4 c ∧ s.Sends u port []
        ∧ u = { s with fabric := u.fabric })

/-! ## Collectives -/

/-- BUCKET_DECLARE takes a valid entry that passes its checks, with the round it expects first, and leaves the other
buckets; one over the partition's buffers or with a round begun is refused; BUCKET_UNDECLARE forgets the bucket. The
least expected round of an engine is activated when the window and the buffers allow it, its ports resolved and credit
sent to its children; an activated round that is ready takes its source and reduces (R336-R338, R340-R344, R349). -/
def Obligations.BucketsAndTheirRoundsBegin : Prop :=
  (∀ (s w : State) (ring : Ring) (p : Part) (bs : List Byte) (k : Packet) (b : Nat) (e : List Byte),
     w = s.taken p ring → k = Packet.init (s.part p).freshId ring bs → b = pktParam bs 0 2 →
     s.PacketAt ring p bs (s.declareRanges p bs) → isPacket 0x10 bs = true → e = w.readVa p (w.bucketAddr p b) 64 →
     w.poisoned p (w.bucketAddr p b) 64 = false →
     (entValid (s.readVa p (s.bucketAddr p b) 64) = true →
       (s.roundBegun p b = true →
         ∃ u, Machine.exec (.bucketDeclare ring) s = .next u
           ∧ w.PacketEnds u p k { k.done stPartState with resource := 4 }
           ∧ w.OnlyPart u p)
       ∧ (∀ x, s.roundBegun p b = false →
         x = mkBucket b e (sortRanks (w.memberRanks p e)) (s.regN .fabRank) (s.regN .partStep p.val) →
         (s.colBuffers p < x.credits * x.children →
           ∃ u, Machine.exec (.bucketDeclare ring) s = .next u
             ∧ w.PacketEnds u p k { k.done stQuota with resource := 2 }
             ∧ w.OnlyPart u p)
         ∧ (x.credits * x.children ≤ s.colBuffers p → w.declareCheck p b e x.ranks = none →
           ∃ u, Machine.exec (.bucketDeclare ring) s = .next u ∧ w.PacketEnds u p k (k.done stOk)
             ∧ (u.part p).bucket? b = some x ∧ (∀ b', b' ≠ b → (u.part p).bucket? b' = (s.part p).bucket? b')
             ∧ (u.part p).rounds = (s.part p).rounds.filter (fun r => decide (r.bucket ≠ b))
                 ++ (if x.kind = 2 then [] else
                   [Round.pending b (x.kind + 1) (s.regN .partStep p.val) x.size x.engine x.position]))))
     ∧ (entValid (s.readVa p (s.bucketAddr p b) 64) = false → s.roundBegun p b = false →
       ∃ u, Machine.exec (.bucketUndeclare ring) s = .next u ∧ w.PacketEnds u p k (k.done stOk)
         ∧ ({ u with earlyCredits := w.earlyCredits } : State) = { w with parts := u.parts }
         ∧ (∀ q, q ≠ p → u.part q = w.part q)
         ∧ (∀ x ∈ s.earlyCredits, x ∈ u.earlyCredits ∨ (x.bucket = b
           ∧ ((s.part p).bucket? b).any (fun y => decide (y.groupTag = x.tag)) = true))
         ∧ (∀ x ∈ u.earlyCredits, x ∈ s.earlyCredits)
         ∧ (u.part p).bucket? b = none ∧ (∀ b', b' ≠ b → (u.part p).bucket? b' = (s.part p).bucket? b')
         ∧ (∀ r ∈ (u.part p).rounds, r.bucket ≠ b)))
    ∧ (∀ (s : State) (p : Part) (r : Round) (b : Bucket), s.live = true → s.running p = true →
         (s.part p).bucket? r.bucket = some b →
         (∀ (iod other : Iod) ports r', leastRound ((s.part p).rounds.filter (fun x => decide (x.state = .pending
           ∧ x.engine = iod))) = some r →
           other = (if iod = 0 then 1 else 0) → (s.part p).incomplete iod < s.regN .colWindow p.val →
           (s.part p).openRound r.bucket = none → (s.part p).noneBefore iod r = true →
           (s.part p).buffersUsed iod + b.credits * b.children ≤ s.colBuffers p →
           (s.part p).buffersUsed other + b.children ≤ s.colBuffers p → ports = s.resolvePorts b →
           edgeMissing b.edges (ports.take 3) = false → edgeMissing b.edges (ports.drop 3) = false →
           (∀ x ∈ s.earlyCredits, x.bucket = r.bucket → x.tag ≠ b.groupTag) →
           r' = { r with state := .active, ports := ports, position := b.position, engine := b.engine
                         stride := s.regN .colCheckStride p.val } →
           ∃ u, Machine.exec (.roundActivate p iod) s = .next u ∧ (u.part p).openRound r.bucket = some r'
             ∧ (∀ n, r'.left = some n → r'.right ≠ some n → s.Sends u n [collCtrl b r' 1 1 (b.credits + r.nextUp)])
             ∧ (∀ n, r'.right = some n → r'.left ≠ some n → s.Sends u n [collCtrl b r' 1 1 (b.credits + r.nextUp)]))
         ∧ (∀ bucket : BitVec 12, bucket.toNat = r.bucket → (s.part p).openRound r.bucket = some r →
           s.round? p r = some r →
           r.state = .active → s.readyNow b r = true → s.ready p (s.sourceRange p b r) = true → b.position ≠ 0 →
           r.creditUp = 0 → r.mparent = none → r.down = [] →
           ∃ u, Machine.exec (.roundReady p bucket) s = .next u
             ∧ (u.part p).openRound r.bucket = some { r with
                 source := s.sourceItems p b r
                 state := .reducing
                 flags := if (s.sourceItems p b r).any (fun y => y.2) then r.flags ||| 8 else r.flags }
             ∧ u.cores = s.cores ∧ u.sync = s.sync ∧ u.hbm = s.hbm))

/-- A round takes the messages of its step: credit counts from its parent, cells of its children's chunks, and the end
of its result, which goes on to its children; an ABORT, no traffic in time, or a chunk of another step fails it: it is
over, its flags carry the cause, its done object is signalled; a CREDIT for a bucket not declared here is held; a
comparison that does not come is skipped (R344-R346, R350-R357). -/
def Obligations.RoundsTakeTheirMessages : Prop :=
  ∀ (s : State) (port : FPort) (p : Part) (b : Bucket) (r : Round), s.live = true → s.running p = true →
    (s.fab port).violations = [] → (s.part p).openRound r.bucket = some r → s.round? p r = some r →
    (s.part p).bucket? r.bucket = some b →
    (∀ c, s.headCell port tyCollCtrl = some c → s.collOwner c = some (p, b) → collBucket c = r.bucket →
      ctlStep c = r.step →
      (ctlType c = 1 → r.state = .active → r.down = [] →
        ∃ u, Machine.exec (.credit port) s = .next u ∧ s.Consumed u port 1 c
          ∧ (u.part p).openRound r.bucket = some (if collDir c = 2 then { r with mcreditUp := Nat.max r.mcreditUp (ctlCount c) }
              else { r with creditUp := Nat.max r.creditUp (ctlCount c) }))
      ∧ (∀ r', ctlType c = 2 → r.parent = some port → r.state ≠ .draining →
        r' = { r with ended := true, flags := r.flags ||| ctlFlags c, mismatch := ctlMismatch c } →
        ∃ u, Machine.exec (.resultEnd port) s = .next u ∧ (u.part p).openRound r.bucket = some r'
          ∧ (∀ n, r.left = some n → r.right ≠ some n → s.Sends u n [collCtrl b r' 1 2 0])
          ∧ (∀ n, r.right = some n → r.left ≠ some n → s.Sends u n [collCtrl b r' 1 2 0]))
      ∧ (ctlType c = 3 →
        ∃ u, Machine.exec (.abort port) s = .next u ∧ u.round? p r = none
          ∧ ((u.part p).bucket? r.bucket).map (fun x => x.flags) = some (r.flags % 16 / 4 * 4 + 3 + 16 * 5)
          ∧ u.syncQueue = s.syncQueue ++ [⟨b.doneObj, .signal 1, none, colSource r.engine⟩]))
    ∧ (∀ c m put m', s.headCell port tyCollData = some c → s.collOwner c = some (p, b) → collBucket c = r.bucket →
      collStepLo c = r.step % 16 → collDir c = 0 → r.state = .active → r.down = [] →
      r.slot b port 0 (collChunk c) = some (m, put, true) → r.addCell b m c = some m' →
      ∃ u, Machine.exec (.collData port) s = .next u ∧ s.Consumed u port 0 c
        ∧ (u.part p).openRound r.bucket = some (put m') ∧ u.hbm = s.hbm ∧ u.cores = s.cores ∧ u.sync = s.sync)
    ∧ (∀ c, s.headCell port tyCollData = some c → s.collOwner c = some (p, b) → collBucket c = r.bucket →
      collStepLo c ≠ r.step % 16 →
      ∃ u, Machine.exec (.collData port) s = .next u ∧ s.Consumed u port 0 c ∧ u.round? p r = none
        ∧ ((u.part p).bucket? r.bucket).map (fun x => x.flags) = some (r.flags % 16 / 4 * 4 + 3 + 16 * 4))
    ∧ (∀ c, s.headCell port tyCollCtrl = some c → s.collOwner c = none → ctlType c = 1 →
      ∃ u, Machine.exec (.credit port) s = .next u ∧ s.Consumed u port 1 c ∧ u.parts = s.parts
        ∧ u.earlyCredits = s.earlyCredits ++ [⟨collBucket c, c.tag, ctlStep c, decide (collDir c = 2), ctlCount c, ctlSender c⟩])
    ∧ (∀ bucket : BitVec 12, bucket.toNat = r.bucket →
      (r.state = .reducing ∨ r.state = .draining →
        ∃ u, Machine.exec (.roundTimeout p bucket) s = .next u ∧ u.round? p r = none
          ∧ ((u.part p).bucket? r.bucket).map (fun x => x.flags) = some (r.flags % 16 / 4 * 4 + 3 + 16 * 2)
          ∧ u.syncQueue = s.syncQueue ++ [⟨b.doneObj, .signal 1, none, colSource r.engine⟩])
      ∧ (∀ c x rest, r.state = .reducing → r.kept = (c, x) :: rest →
        ∃ u, Machine.exec (.mirrorCompareTimeout p bucket) s = .next u
          ∧ (u.part p).openRound r.bucket = some { r with
              compared := r.compared ++ [c], kept := Sparse.erase r.kept c, flags := r.flags ||| 4 }
          ∧ u.syncQueue = s.syncQueue ∧ u.cores = s.cores))

/-! ## Fabric links -/

/-- A port with a signal tries its good lanes in turn, sends PARAM there, and takes the first mode of Table 11.1 that
both sides support; lanes above the limit fail and it chooses again; 30 s without HELLO leave it DARK. The bootstrap
pattern goes out on lanes 0-3 in DETECT and on lane 0 in DARK; no HELLO goes out before the identity keys (R313-R316,
R468). -/
def Obligations.FabricLinksTrain : Prop :=
  ∀ (s : State) (port : FPort) (q : FabPort), s.live = true → q = s.fab port →
    (∀ l, s.power.fabRefclk.getD (fabIod port).val true = true → q.laneFrom 0 = some l →
      (q.state = .detect ∧ q.backoff = false) ∨ q.state = .retrain →
      ∃ u, Machine.exec (.peerSignalDetected port) s = .next u ∧ s.FabOnly u port ∧ u.fab port = q.boots l)
    ∧ (s.power.fabRefclk.getD (fabIod port).val true = true → q.state = .dark →
      ∃ u, Machine.exec (.peerSignalDetected port) s = .next u ∧ s.FabOnly u port
        ∧ (u.fab port).state = .detect ∧ (u.fab port).backoff = false ∧ (u.fab port).detectAt = s.fabTime port
        ∧ (u.fab port).patterns = q.patterns ++ [0xF])
    ∧ (q.state = .detect → q.backoff = true →
      ∃ u, Machine.exec (.detectRetryTimer port) s = .next u ∧ s.FabOnly u port
        ∧ u.fab port = { q with backoff := false, patterns := q.patterns ++ [0xF] })
    ∧ (q.backoff = false → Machine.exec (.detectRetryTimer port) s = .next s)
    ∧ (q.state = .detect ∨ q.state = .boot ∨ q.state = .train → s.FabQuiet port →
      ∃ u, Machine.exec (.detectTimeout port) s = .next u ∧ s.FabOnly u port
        ∧ u.fab port = FabPort.fresh { q with state := .dark, backoff := false, mode := none, lanesUsed := 0 })
    ∧ (q.state = .dark →
      ∃ u, Machine.exec (.darkBeaconTimer port) s = .next u ∧ s.FabOnly u port
        ∧ u.fab port = { q with patterns := q.patterns ++ [1] })
    ∧ (q.state = .boot →
      (∀ l, q.laneFrom (q.bootLane + 1) = some l →
        ∃ u, Machine.exec (.bootLaneTimeout port) s = .next u ∧ s.FabOnly u port ∧ u.fab port = q.boots l)
      ∧ (q.laneFrom (q.bootLane + 1) = none →
        ∃ u, Machine.exec (.bootLaneTimeout port) s = .next u ∧ s.FabOnly u port
          ∧ (u.fab port).state = .detect ∧ (u.fab port).backoff = true))
    ∧ (∀ (lanes : BitVec 4) (rate : Fin 3) (m : Fin 9) (k : Nat), q.state = .boot →
      (fabModes.getD m.val (0, 0)).2 ≤ rate.val →
      laneSet (fabModes.getD m.val (0, 0)).1 (q.good &&& lanes).toNat = some k →
      (∀ m' : Fin 9, m' < m → (fabModes.getD m'.val (0, 0)).2 ≤ rate.val →
        laneSet (fabModes.getD m'.val (0, 0)).1 (q.good &&& lanes).toNat = none) →
      ∃ u, Machine.exec (.param port lanes rate 1) s = .next u ∧ s.FabOnly u port
        ∧ u.fab port = { q with peerMask := lanes, peerRate := rate, state := .train, mode := some m
                                lanesUsed := BitVec.ofNat 4 k })
    ∧ (∀ (lanes : BitVec 4) (rate : Fin 3) (version : BitVec 8), q.state ≠ .boot →
      Machine.exec (.param port lanes rate version) s = .next s)
    ∧ (∀ ratios, q.state = .train →
      (q.badLanes ratios 5 = [] →
        ∃ u, Machine.exec (.laneTestComplete port ratios) s = .next u ∧ s.FabOnly u port
          ∧ u.fab port = { q with state := .hello, seenPeer := false
                                  link := q.link ++ s.helloCell port false })
      ∧ (q.badLanes ratios 5 ≠ [] →
        ∃ u, Machine.exec (.laneTestComplete port ratios) s = .next u ∧ s.FabOnly u port
          ∧ ((u.fab port).state = .train ∨ (u.fab port).state = .detect)
          ∧ ∀ l, l < 4 → (u.fab port).laneFailed.getLsbD l
              = (q.laneFailed.getLsbD l || decide (l ∈ q.badLanes ratios 5))))
    ∧ (∀ lane : Fin 4, q.carriesCells = true → bitOf q.lanesUsed.toNat lane.val = true →
      ∃ u, Machine.exec (.laneLockLoss port lane) s = .next u ∧ s.FabOnly u port ∧ u.fab port = q.retrains)
    ∧ (∀ ratios, q.carriesCells = true →
      (q.badLanes ratios 4 = [] → Machine.exec (.serWindowEnd port ratios) s = .next s)
      ∧ (q.badLanes ratios 4 ≠ [] →
        ∃ u, Machine.exec (.serWindowEnd port ratios) s = .next u ∧ s.FabOnly u port ∧ (u.fab port).state = .retrain
          ∧ (u.fab port).away = true ∧ (u.fab port).replay = q.replay ∧ (u.fab port).waiting = q.waiting
          ∧ ∀ l, l < 4 → (u.fab port).laneFailed.getLsbD l
              = (q.laneFailed.getLsbD l || decide (l ∈ q.badLanes ratios 4))))
    ∧ (q.away = true →
      (s.FabQuiet port → ∃ u, Machine.exec (.retrainLimitExpiry port) s = .next u ∧ s.FabOnly u port
        ∧ u.fab port = q.fresh)
      ∧ (∀ m g, q.txMessages = [m] → (s.setFab port { q with txMessages := [] }).FabQuiet port →
        s.packet? m.part m.packet = some g → g.ended = false → pktOpcode g.bytes = 0x21 ∨ pktOpcode g.bytes = 0x22 →
        ∃ u, Machine.exec (.retrainLimitExpiry port) s = .next u
          ∧ s.PacketEnds u m.part g (g.done stAbandoned)))

/-- HELLO records the peer, and a seen one brings the port up, LIMITED unless both ranks are assigned in one domain; a
new rank or domain is told to every peer; the host retrains, re-lanes and wakes ports, and a lost reference takes
block lock from every port of its die (R315, R316, R325-R327, R333, R506, R521). -/
def Obligations.PortsMeetTheirPeersAndObeyTheHost : Prop :=
  ∀ (s : State) (port : FPort) (q : FabPort), s.live = true → q = s.fab port →
    (∀ h : Hello, h.version = 1 → q.state = .hello → q.known = false ∨ q.nbrId = h.deviceId →
      (h.seen = false → ∃ u, Machine.exec (.hello port h) s = .next u ∧ s.FabOnly u port ∧ u.fab port = q.meet h)
      ∧ (h.seen = true →
        ∃ u, Machine.exec (.hello port h) s = .next u ∧ s.FabOnly u port
          ∧ (u.fab port).state = (if h.domain.toNat = s.regN .fabDomain ∧ h.rank ≠ 0xFFFFFFFF
              ∧ s.regN .fabRank ≠ 0xFFFFFFFF then .up else .limited)
          ∧ (u.fab port).nbrId = h.deviceId ∧ (u.fab port).nbrRank = h.rank ∧ (u.fab port).nbrPort = h.port
          ∧ (u.fab port).nbrDomain = h.domain ∧ (u.fab port).away = false ∧ s.Sends u port []))
    ∧ (q.state = .hello →
      ∃ u, Machine.exec (.helloResendTimer port) s = .next u ∧ s.FabOnly u port
        ∧ u.fab port = { q with link := q.link ++ s.helloCell port q.seenPeer })
    ∧ (∀ (r : Requester) (domain : Bool) (value : BitVec 32) (w : State),
      w = s.setRegN (if domain then .fabDomain else .fabRank) 0 0 value.toNat →
      s.mayWriteReg r ⟨if domain then .fabDomain else .fabRank, 0, 0⟩ = true →
      ∃ u, Machine.exec (.fabRankWrite r domain value) s = .next u
        ∧ u.regN (if domain then .fabDomain else .fabRank) = value.toNat
        ∧ (∀ n, (s.fab n).carriesCells = true →
          (u.fab n).state = (if w.mayUp (s.fab n) then .up else .limited) ∧ s.Sends u n []
          ∧ (u.fab n).link = (s.fab n).link ++ w.helloCell n true)
        ∧ (∀ n, (s.fab n).carriesCells = false → u.fab n = s.fab n))
    ∧ (∀ r : Requester, s.mayWriteReg r ⟨.fabPortCtrl, port.val, 0⟩ = true →
      (q.carriesCells = true →
        (∃ u, Machine.exec (.fabPortRetrain r port) s = .next u ∧ s.FabOnly u port ∧ u.fab port = q.retrains)
        ∧ ∃ u, Machine.exec (.fabPortRelane r port) s = .next u ∧ s.FabOnly u port
          ∧ u.fab port = { q.retrains with laneFailed := 0 })
      ∧ (q.state = .isolated →
        ∃ u, Machine.exec (.fabPortRetrain r port) s = .next u ∧ s.FabOnly u port ∧ u.fab port = q.fresh.retrains)
      ∧ (q.state = .dark →
        ∃ u, Machine.exec (.fabPortWake r port) s = .next u ∧ s.FabOnly u port ∧ (u.fab port).state = .detect
          ∧ (u.fab port).backoff = false ∧ (u.fab port).detectAt = s.fabTime port
          ∧ (u.fab port).patterns = q.patterns ++ [0xF]))
    ∧ (∀ iod : Iod, s.power.fabRefclk.length = 2 →
      (∃ u, Machine.exec (.fabRefclkLoss iod) s = .next u ∧ u.power.fabRefclk[iod.val]? = some false
        ∧ (∀ n, fabIod n = iod → (s.fab n).carriesCells = true → u.fab n = (s.fab n).retrains)
        ∧ (∀ n, fabIod n ≠ iod → u.fab n = s.fab n))
      ∧ (∃ u, Machine.exec (.fabRefclkReturn iod) s = .next u ∧ u.power.fabRefclk[iod.val]? = some true
        ∧ (∀ n l, fabIod n = iod → (s.fab n).state = .retrain → (s.fab n).laneFrom 0 = some l →
          u.fab n = (s.fab n).boots l)
        ∧ (∀ n, fabIod n ≠ iod → u.fab n = s.fab n)))

/-- LINK_CTRL takes the peer's credit counts and frees what it acknowledges, and a nak or 20 µs without progress
resends what is left; a cell in sequence is buffered and its place in the sequence taken, one of a bad CRC or out of
sequence is a link error asked for once more, one that breaks a rule is a violation and not acted on, and in LIMITED
one of a channel other than VC4 is dropped, its buffer given back (the model's choice, log 116); an isolated port
tells its peer (R321-R323, R332, R333). -/
def Obligations.FabricCellsAreSequenced : Prop :=
  ∀ (s : State) (port : FPort) (q : FabPort), s.live = true → q = s.fab port →
    (∀ (credits : List (BitVec 16)) (ack : BitVec 12) (nak : Bool), q.carriesCells = true → credits.length = 7 →
      ∃ u, Machine.exec (.linkCtrl port credits ack nak) s = .next u ∧ s.FabOnly u port
        ∧ (u.fab port).granted = credits.map BitVec.toNat
        ∧ (∀ c0 k, q.replay.head? = some c0 → ack = c0.seq + BitVec.ofNat 12 k → k < q.replay.length →
          q.replay.length ≤ 1536 →
          (u.fab port).cells.Perm ((q.replay.drop (k + 1) ++ q.waiting.map OutCell.cell).map (fun c => { c with seq := 0 }))
          ∧ (q.waiting = [] → (u.fab port).replay = q.replay.drop (k + 1)
            ∧ (u.fab port).resends = q.resends + b2n (nak && decide (k + 1 < q.replay.length)))))
    ∧ (q.carriesCells = true →
      ∃ u c, Machine.exec (.linkCtrlTimer port) s = .next u ∧ s.FabOnly u port
        ∧ u.fab port = { q with sendNak := false, link := q.link ++ [c] } ∧ c.type = tyLinkCtrl
        ∧ (∀ v, v < 7 → field c.payload (2 * v) 2 = q.returned.getD v 0 % 65536)
        ∧ field c.payload 16 2 = (q.expectSeq - 1).toNat + b2n q.sendNak * 2 ^ 15)
    ∧ (∀ (c : Cell) (crc : BitVec 32) (crcOk : Bool), q.carriesCells = true →
      crcOk = decide (field (cellHeader c) 12 4 = crc.toNat) →
      (crcOk = true → c.seq = q.expectSeq → q.cellFault c = none → q.state = .up ∨ c.vc = 4 →
        ∃ u, Machine.exec (.sequencedCellReceived port c crc true) s = .next u ∧ s.FabOnly u port
          ∧ (u.fab port).rx = q.rx ++ [c]
          ∧ (u.fab port).expectSeq = q.expectSeq + 1 ∧ (u.fab port).returned = q.returned
            ∧ u = { s with fabric := u.fabric })
      ∧ (crcOk = true → c.seq = q.expectSeq → q.cellFault c = none → q.state = .limited → c.vc ≠ 4 →
        q.returned.length = 7 →
        c.vc ≠ 7 →
        ∃ u, Machine.exec (.sequencedCellReceived port c crc true) s = .next u ∧ s.FabOnly u port
          ∧ (u.fab port).rx = q.rx
          ∧ (u.fab port).expectSeq = q.expectSeq + 1
          ∧ (u.fab port).returned.getD c.vc.toNat 0 = (q.returned.getD c.vc.toNat 0 + 1) % 65536
          ∧ u = { s with fabric := u.fabric })
      ∧ (∀ f, crcOk = true → c.seq = q.expectSeq → q.cellFault c = some f → q.violations = [] →
        1 ≤ s.regN .fabViolLimit →
        s.regN .evtCtrl (0x1030 + port.val) = 0 →
        ∃ u, Machine.exec (.sequencedCellReceived port c crc true) s = .next u ∧ s.FabOnly u port
          ∧ (u.fab port).rx = q.rx
          ∧ (u.fab port).expectSeq = q.expectSeq + 1 ∧ (u.fab port).violations.length = 1
          ∧ u.regN .fabViolCount port.val = Nat.min (s.regN .fabViolCount port.val + 1) (2 ^ 64 - 1)
          ∧ u.parts = s.parts ∧ u.cores = s.cores)
      ∧ (crcOk = false ∨ c.seq ≠ q.expectSeq →
        ∃ u, Machine.exec (.sequencedCellReceived port c crc true) s = .next u ∧ s.FabOnly u port
          ∧ (u.fab port).rx = q.rx
          ∧ (u.fab port).expectSeq = q.expectSeq ∧ (u.fab port).replay = q.replay
          ∧ u.regN .fabLinkErrors port.val = Nat.min (s.regN .fabLinkErrors port.val + 1) (2 ^ 64 - 1)
          ∧ (q.gap = false → (crcOk = false ∨ (c.seq - q.expectSeq).toNat < 2048) →
            (u.fab port).gap = true ∧ ∃ n, (u.fab port).link = q.link ++ [n] ∧ n.type = tyLinkCtrl
              ∧ field n.payload 16 2 = (q.expectSeq - 1).toNat + 2 ^ 15)
          ∧ (q.gap = true → (u.fab port).link = q.link))
      ∧ (s.regN .fabUncorrLimit ≤ (lastMilli (s.fabTime port) q.uncorr).length →
        ∃ u, Machine.exec (.sequencedCellReceived port c crc false) s = .next u ∧ s.FabOnly u port
          ∧ (u.fab port).rx = q.rx
          ∧ (u.fab port).state = .retrain ∧ (u.fab port).away = true))
    ∧ (q.carriesCells = true → q.replay ≠ [] →
      ∃ u, Machine.exec (.replayTimer port) s = .next u ∧ s.FabOnly u port
        ∧ u.fab port = { q with resends := q.resends + 1 })
    ∧ (∀ cause : BitVec 8, q.carriesCells = true → s.regN .evtCtrl (fabSource port).toNat = 0 →
      (s.source (fabSource port)).held = [] →
      ∃ u, Machine.exec (.isolateNotice port cause) s = .next u ∧ s.FabOnly u port ∧ u.fab port = q
        ∧ (u.source (fabSource port)).held.map HeldEvent.data = [f1 cause.toNat])
    ∧ (q.state = .isolated →
      ∃ u c, Machine.exec (.isolateNoticeTimer port) s = .next u ∧ s.FabOnly u port
        ∧ u.fab port = { q with link := q.link ++ [c] }
        ∧ c.type = tyIsolate ∧ u = { s with fabric := u.fabric })

/-! ## Ratil Coherent Link ports -/

/-- A port trains as Table 13.2 says: DETECT to PARAM on a signal, to TRAIN in the first mode of Table 13.1 both sides
support with the features both have, to ACTIVE when every lane passes, and back or DARK when an attempt or the time
runs out; the host retrains, re-lanes and wakes it, and a lost reference takes its die's ACTIVE ports to RETRAIN
(R361-R365, R388, R389, R521). -/
def Obligations.RclPortsTrain : Prop :=
  ∀ (s : State) (port : RPort) (q : RclPort), s.live = true → q = s.rclPort port →
    (∀ k : RPort, s.regN .evtCtrl (rclSource k).toNat = 0) →
    ((q.state = .detect ∧ q.backoff = false) ∨ q.state = .retrain →
      ∃ u, Machine.exec (.rclPeerSignalDetected port) s = .next u ∧ s.RclOnly u port
        ∧ u.rclPort port = q.asks (s.ownParams port))
    ∧ (q.state = .dark →
      ∃ u, Machine.exec (.rclPeerSignalDetected port) s = .next u ∧ s.RclOnly u port ∧ (u.rclPort port).state = .detect
        ∧ (u.rclPort port).backoff = false ∧ (u.rclPort port).control = q.control ++ [.pattern 0xFFFF])
    ∧ (q.state = .detect → q.backoff = true →
      ∃ u, Machine.exec (.rclDetectRetryTimer port) s = .next u ∧ s.RclOnly u port
        ∧ u.rclPort port = { q with backoff := false, control := q.control ++ [.pattern 0xFFFF] })
    ∧ (q.state = .detect ∨ q.state = .param ∨ q.state = .train → s.RclQuiet port →
      ∃ u, Machine.exec (.rclDetectTimeout port) s = .next u ∧ s.RclOnly u port
        ∧ u.rclPort port = RclPort.fresh { q with state := .dark, backoff := false, mode := none, lanesUsed := 0 })
    ∧ (q.state = .dark →
      ∃ u, Machine.exec (.rclDarkBeaconTimer port) s = .next u ∧ s.RclOnly u port
        ∧ u.rclPort port = { q with control := q.control ++ [.pattern 1] })
    ∧ (q.state = .param →
      (∃ u, Machine.exec (.rclParamTimeout port) s = .next u ∧ s.RclOnly u port ∧ (u.rclPort port).state = .detect
        ∧ (u.rclPort port).backoff = true ∧ (u.rclPort port).messages = q.messages)
      ∧ (∀ (lanes : BitVec 16) (rate : Fin 3) (version : BitVec 8) (peer : DWord) (features : BitVec 4) (m : Fin 9) (k : Nat),
        q.known = false ∨ q.peer = peer →
        (rclModes.getD m.val (0, 0)).2 ≤ rate.val →
        rclLaneSet (rclModes.getD m.val (0, 0)).1 (~~~ q.laneFailed &&& lanes).toNat = some k →
        (∀ m' : Fin 9, m' < m → (rclModes.getD m'.val (0, 0)).2 ≤ rate.val →
          rclLaneSet (rclModes.getD m'.val (0, 0)).1 (~~~ q.laneFailed &&& lanes).toNat = none) →
        ∃ u, Machine.exec (.rclParamFlit port lanes rate version peer features) s = .next u ∧ s.RclOnly u port
          ∧ u.rclPort port = { q with peerMask := lanes, peerRate := rate, peer := peer, known := true
                                      features := features &&& 0xF, state := .train, mode := some m
                                      lanesUsed := BitVec.ofNat 16 k }))
    ∧ (∀ ratios, q.state = .train →
      ((∀ l, l < 16 → bitOf q.lanesUsed.toNat l = true → ratioAtMost (ratios.getD l 0).toNat 6 = true) → q.owed = [] →
        ∃ u, Machine.exec (.rclLaneTestComplete port ratios) s = .next u ∧ s.RclOnly u port
          ∧ (u.rclPort port).state = .active
          ∧ (u.rclPort port).away = false ∧ s.RclSends u port []
          ∧ (u.rclPort port).resends = q.resends + b2n (!q.replay.isEmpty))
      ∧ (∀ l, l < 16 → bitOf q.lanesUsed.toNat l = true → ratioAtMost (ratios.getD l 0).toNat 6 = false →
        ∃ u, Machine.exec (.rclLaneTestComplete port ratios) s = .next u ∧ s.RclOnly u port
          ∧ ((u.rclPort port).state = .train ∨ (u.rclPort port).state = .detect)
          ∧ (u.rclPort port).laneFailed.getLsbD l = true))
    ∧ (q.state = .isolated ∨ q.state = .active →
      ∃ u, Machine.exec (.rclPeerSignalLoss port) s = .next u ∧ s.RclOnly u port ∧ u.rclPort port = q.retrains)
    ∧ (q.away = true → s.RclQuiet port →
      ∃ u, Machine.exec (.rclRetrainLimitExpiry port) s = .next u ∧ s.RclOnly u port ∧ u.rclPort port = q.fresh)
    ∧ (q.state = .isolated →
      ∃ u, Machine.exec (.rclIsolateTimer port) s = .next u ∧ s.RclOnly u port
        ∧ u.rclPort port = { q with control := q.control ++ [.isolate] })
    ∧ (∀ r : Requester, s.mayWriteReg r ⟨.rclPortCtrl, port.val, 0⟩ = true →
      (q.state = .isolated ∨ q.state = .active →
        (∃ u, Machine.exec (.rclPortRetrain r port) s = .next u ∧ s.RclOnly u port ∧ u.rclPort port = q.retrains)
        ∧ ∃ u, Machine.exec (.rclPortRelane r port) s = .next u ∧ s.RclOnly u port
          ∧ u.rclPort port = { q.retrains with laneFailed := 0 })
      ∧ (q.state = .dark →
        ∃ u, Machine.exec (.rclPortWake r port) s = .next u ∧ s.RclOnly u port ∧ (u.rclPort port).state = .detect
          ∧ (u.rclPort port).detectAt = s.rclTime port))
    ∧ (∀ iod : Iod,
      ∃ u, Machine.exec (.rclRefclkLoss iod) s = .next u
        ∧ (∀ k, rclIod k = iod → (s.rclPort k).state = .active → u.rclPort k = (s.rclPort k).retrains)
        ∧ (∀ k, rclIod k ≠ iod ∨ (s.rclPort k).state ≠ .active → u.rclPort k = s.rclPort k))

/-- A flit in sequence is accepted: its header acknowledges and returns credits, its message waits for its turn, and
it is acknowledged; one of a bad CRC or out of sequence is dropped and asked for again, and too many of them retrain
the port; a message that breaks a rule is counted, answered and never performed; an unacknowledged flit goes again
after 2 µs; an EVENT held off goes out when its interval ends (R366-R368, R385-R387). -/
def Obligations.RclFlitsAreAccepted : Prop :=
  ∀ (s : State) (port : RPort) (q : RclPort), s.live = true → q = s.rclPort port → q.state = .active →
    (∀ (head body bs : List Byte) (marks : List Bool) (h : FlitHeader), bs = fecCorrect (head ++ body) →
      h = flitHead bs → q.waiting = [] →
      (flitCrcOk bs = true → h.kind = 1 → h.seq = q.expectSeq →
        (h.valid = 0 →
          ∃ u, Machine.exec (.rclFlitReceived port head body marks) s = .next u ∧ s.RclOnly u port
            ∧ u.rclPort port = RclPort.idle { q.header h with expectSeq := q.expectSeq + 1, sendNak := false })
        ∧ (∀ (n : Nat) (us : List (List Byte)) (m : RclMsg), q.rxUnits = [] → n ≤ 14 →
          h.valid = BitVec.ofNat 14 (2 ^ n - 1) →
          us = (upTo n).map (fun i => (bs.drop (16 * i + 16)).take 16) →
          rclUnits (BitVec.ofNat 8 (leNat (us.headD []))) = some n →
            m = { unitsMsg us with poison := marks.headD false } →
          (q.msgFault m = none →
            ∃ u, Machine.exec (.rclFlitReceived port head body marks) s = .next u ∧ s.RclOnly u port
              ∧ (u.rclPort port).expectSeq = q.expectSeq + 1
              ∧ (rclClass m.opcode = 0 → (u.rclPort port).reqs = q.reqs ++ [m] ∧ (u.rclPort port).rsps = q.rsps
                ∧ (nonPosted m.opcode = true → (u.rclPort port).hostTags = q.hostTags ++ [m.tag]))
              ∧ (rclClass m.opcode ≠ 0 → (u.rclPort port).reqs = q.reqs ∧ (u.rclPort port).rsps = q.rsps ++ [m])
              ∧ (u.rclPort port).freed = q.freed ∧ u = { s with rcl := u.rcl })
          ∧ (∀ f, q.msgFault m = some f → q.violations = [] → 1 ≤ s.regN .rclViolLimit →
            s.regN .evtCtrl (rclSource port).toNat = 0 →
            ∃ u, Machine.exec (.rclFlitReceived port head body marks) s = .next u ∧ s.RclOnly u port
              ∧ (u.rclPort port).reqs = q.reqs
              ∧ (u.rclPort port).rsps = q.rsps ∧ (u.rclPort port).violations.length = 1
              ∧ (u.rclPort port).messages.Perm ((q.header h).messages ++ [rclRefusal m stMalformed])
              ∧ u.regN .rclViolCount port.val = Nat.min (s.regN .rclViolCount port.val + 1) (2 ^ 64 - 1)
              ∧ u.parts = s.parts ∧ u.hbm = s.hbm ∧ u.sync = s.sync)))
      ∧ (flitCrcOk bs = true → h.kind = 0 ∨ h.kind = 2 →
        ∃ u, Machine.exec (.rclFlitReceived port head body marks) s = .next u ∧ s.RclOnly u port
          ∧ u.rclPort port = q.header h))
    ∧ (∀ (head body bs : List Byte) (marks : List Bool), bs = fecCorrect (head ++ body) →
      flitCrcOk bs = false ∨ ((flitHead bs).kind = 1 ∧ (flitHead bs).seq ≠ q.expectSeq) →
      ∃ u x, Machine.exec (.rclFlitReceived port head body marks) s = .next u ∧ s.RclOnly u port
        ∧ (u.rclPort port).reqs = q.reqs
        ∧ (u.rclPort port).rsps = q.rsps ∧ (u.rclPort port).expectSeq = q.expectSeq ∧ (u.rclPort port).replay = q.replay
        ∧ (u.rclPort port).sent = q.sent ++ [x] ∧ x.head.nak = true ∧ x.head.ackSeq = q.expectSeq - 1
        ∧ u.regN .rclLinkErrors port.val = Nat.min (s.regN .rclLinkErrors port.val + 1) (2 ^ 64 - 1)
        ∧ (u.rclPort port).state
            = (if s.regN .rclCrcLimit ≤ (lastMilli (s.rclTime port) q.drops).length then .retrain else .active))
    ∧ (q.replay ≠ [] →
      ∃ u, Machine.exec (.rclReplayTimer port) s = .next u ∧ s.RclOnly u port
        ∧ u.rclPort port = { q with resends := q.resends + 1
                                    sent := q.sent ++ q.replay.map (fun x => msgFlit (q.head 1 x.1) x.2) })
    ∧ (∀ (source : BitVec 16) (p : Part), bitOf q.features.toNat 1 = true → q.holdoff = [source.toNat] →
      q.owed = [source.toNat] → s.partOfRcl port = some p →
      s.heldWrites = [] → (∀ k, k ≠ port → (s.rclPort k).holdoff = []) →
      ∃ u, Machine.exec (.eventHoldoffExpiry source) s = .next u ∧ s.RclOnly u port ∧ (u.rclPort port).owed = []
        ∧ s.RclSends u port [s.eventMessage port source.toNat]
        ∧ (u.rclPort port).holdoff = (if s.regN .rclEvtHoldoff = 0 then [] else [source.toNat]))

/-! ## Messages of a host -/

/-- A read answers with the line or the register, a write stores the bytes it names and nothing else, an MMIO_WR is a
write of the register and a DOORBELL one of its ring's tail, all as the port's partition; an address that is not
there, or a port with no partition, is answered ADDRESS_REFUSED and performed not at all; a CMP no request awaits is a
violation (R362, R370-R372, R384, R386, R458). -/
def Obligations.HostRequestsReachMemoryAndRegisters : Prop :=
  ∀ (s : State) (port : RPort) (m : RclMsg) (va : Nat), s.live = true → va = m.addr.toNat →
    (∀ rest p, s.hostPart port = some p → s.readsOf port opRdUnc = m :: rest → s.ready p [(va, 64)] = true →
      inSync va = false → inMmio va = false →
      ∃ u, Machine.exec (.rdUnc port) s = .next u ∧ s.Performs u port m ∧ u.hbm = s.hbm ∧ u.parts = s.parts
        ∧ (s.place p va = .unmapped → s.RclSends u port [rclReply opData m stAddress (List.replicate 64 0) false])
        ∧ (∀ bs poison, s.place p va ≠ .unmapped → s.readLine p va = (bs, poison) →
          s.RclSends u port [rclReply opData m (if poison then stPoisoned else stOk) bs poison]))
    ∧ (∀ rest, s.hostPart port = none → s.readsOf port opRdUnc = m :: rest →
      ∃ u, Machine.exec (.rdUnc port) s = .next u ∧ s.Performs u port m ∧ u = { s with rcl := u.rcl }
        ∧ s.RclSends u port [rclReply opData m stAddress (List.replicate 64 0) false])
    ∧ (∀ p, s.hostPart port = some p → inSync va = false → inMmio va = false → va % 64 = 0 → s.FreeHbm p va 64 →
      (s.nextPosted port opWrLine = some m → m.data.length = 64 →
        ∃ u, Machine.exec (.wrLine port) s = .next u ∧ s.Performs u port m ∧ s.RclSends u port []
          ∧ u.readVa p va 64 = m.data ∧ u.poisoned p va 64 = m.poison
          ∧ (∀ a, s.place p va = .hbm a → ∀ x, x / 64 ≠ a / 64 → Memory.read u.hbm x = Memory.read s.hbm x)
          ∧ u.parts = s.parts ∧ u.regs = s.regs ∧ u.reserve = s.reserve ∧ u.cores = s.cores)
      ∧ (s.nextPosted port opWrPartial = some m → m.data.length = 80 →
        ∃ u, Machine.exec (.wrPartial port) s = .next u ∧ s.Performs u port m ∧ s.RclSends u port []
          ∧ (∀ i, i < 64 → (u.readVa p va 64).getD i 0
              = if bitOf (field m.data 0 8) i then m.data.getD (16 + i) 0 else (s.readVa p va 64).getD i 0)
          ∧ (∀ a, s.place p va = .hbm a → ∀ x, x / 64 ≠ a / 64 → Memory.read u.hbm x = Memory.read s.hbm x)
          ∧ u.parts = s.parts ∧ u.regs = s.regs ∧ u.reserve = s.reserve ∧ u.cores = s.cores))
    ∧ (∀ p, s.hostPart port = some p → inSync va = false → inMmio va = false → s.place p va = .unmapped →
      s.nextPosted port opWrLine = some m →
      ∃ u, Machine.exec (.wrLine port) s = .next u ∧ s.Performs u port m ∧ u = { s with rcl := u.rcl }
        ∧ s.RclSends u port [rclReply opErr m stAddress [] false])
    ∧ (s.hostPart port = none → s.recoveryPort port = true → inBootSram va = true → m.data.length = 64 →
      s.nextPosted port opWrLine = some m →
      ∃ u, Machine.exec (.wrLine port) s = .next u ∧ s.Performs u port m ∧ s.RclSends u port []
        ∧ ∀ i, i < 64 → Memory.read u.boot.bootSram (va + i) = m.data.getD i 0)
    ∧ (∀ p rest wide, s.hostPart port = some p → wide = m.sub.getLsbD 0 → s.readsOf port opMmioRd = m :: rest →
      s.ready p [(va, mmioBytes m)] = true →
      (inMmio va = true →
        ∃ u, Machine.exec (.mmioRd port) s = .next u ∧ s.Performs u port m
          ∧ s.RclSends u port
            [rclReply opDataMmio m stOk (leBytes 16 (s.readMmio (partReq p) (va - 0x220000000000) wide)) false])
      ∧ (∀ i : SyncObj, va = 0x210000000000 + 64 * i.toNat → s.ownsSync p i = true →
        ∃ u, Machine.exec (.mmioRd port) s = .next u ∧ s.Performs u port m ∧ u.sync = s.sync
          ∧ s.RclSends u port [rclReply opDataMmio m stOk
              (leBytes 16 (if wide then (s.syncValue i).toNat else (s.syncValue i).toNat % 2 ^ 32)) false]))
    ∧ (∀ p n, s.hostPart port = some p → n = mmioBytes m → inMmio va = true → s.nextPosted port opMmioWr = some m →
      Machine.exec (.mmioWr port) s = Machine.exec (.registerWrite (partReq p) (BitVec.ofNat 26 (va - 0x220000000000))
        (m.sub.getLsbD 0) (BitVec.ofNat 64 (field m.data 0 n))) (s.takeReq port m))
    ∧ (∀ p (ring : Ring), s.hostPart port = some p → s.ownsRing p ring.val = true → va % 4096 = ring.val →
      s.nextPosted port opDoorbell = some m →
      Machine.exec (.doorbell port) s = Machine.exec (.hifSqTailWrite (partReq p) ring m.aux) (s.takeReq port m))
    ∧ ((s.rclPort port).rsps.find? (fun x => decide (x.opcode = opCmp)) = some m → (s.rclPort port).violations = [] →
      1 ≤ s.regN .rclViolLimit → s.regN .evtCtrl (rclSource port).toNat = 0 →
      ∃ u, Machine.exec (.cmp port) s = .next u ∧ (u.rclPort port).rsps = (s.rclPort port).rsps.erase m
        ∧ (u.rclPort port).violations.length = 1
        ∧ u.regN .rclViolCount port.val = Nat.min (s.regN .rclViolCount port.val + 1) (2 ^ 64 - 1)
        ∧ u.hbm = s.hbm ∧ u.parts = s.parts ∧ u.snoops = s.snoops)

/-- A line has one owner or only sharers: a cached read is answered when no other host stands in its way, and
otherwise those that do are snooped and it waits; outside an enabled region, or by a port that has not agreed on
coherent caching, it is a violation; a write-back and a snoop's answer give the line's value, an unanswered snoop
poisons an Owned line; a region is enabled unless R377 refuses it, and its lines are recalled before it is disabled
(R376-R383). -/
def Obligations.HostCachesStayCoherent : Prop :=
  ∀ (s : State) (port : RPort) (m : RclMsg) (p : Part) (va line : Nat), s.live = true → va = m.addr.toNat →
    s.hostPart port = some p → (∀ n ∈ s.snoops, n.port = port → n.sent = true) →
    (∀ row ∈ [(Instr.rdShared port, opRdShared, false), (Instr.rdOwn port, opRdOwn, true)], s.readsOf port row.2.1 = [m] →
      (s.cacheable port va = true → (s.rclPort port).coherent = true → s.lineOf p va = some line →
        (row.2.2 = true → s.writable p va = true) →
        s.lineBusy line = false → s.victim (rclIod port) line = none →
        (s.inTheWay port line row.2.2 = [] →
          ∃ u, Machine.exec row.1 s = .next u ∧ s.Performs u port m ∧ u.hbm = s.hbm
            ∧ u.holds port line = (if row.2.2 then .owned else .shared) ∧ u.heldVa port line = va
            ∧ (row.2.2 = true → ∀ k, k ≠ port → u.holds k line = .invalid)
            ∧ (∀ k l, k ≠ port ∨ l ≠ line → u.holds k l = s.holds k l)
            ∧ s.RclSends u port [rclReply opData m (if (s.loadHbm (line * 64)).2 then stPoisoned else stOk)
                (s.loadHbm (line * 64)).1 (s.loadHbm (line * 64)).2])
        ∧ (∀ j tag, s.inTheWay port line row.2.2 = [j] → s.tagRoom j = true → (∀ n ∈ s.snoops, n.port = j →
          n.sent = true) →
          (∀ h ∈ s.heldWrites, h.claim ≠ some (port, m.tag, row.2.2)) →
          tag = (s.rclPort j).freeTag (s.snoopTags j) 4096 (s.rclPort j).nextTag →
          ∃ u, Machine.exec row.1 s = .next u ∧ (u.rclPort port).reqs = (s.rclPort port).reqs
            ∧ u.snoops = s.snoops ++ [⟨j, line, s.heldVa j line, tag, row.2.2, false, true⟩]
            ∧ u.heldWrites = s.heldWrites ++ [⟨p, va, [], [], false, some line, none, none, some (port, m.tag, row.2.2)⟩]
            ∧ s.RclSends u j [rclHeader (if row.2.2 then opSnpInv else opSnpData) tag (s.heldVa j line)]
            ∧ u = { s with rcl := u.rcl, snoops := u.snoops, heldWrites := u.heldWrites }))
      ∧ (s.cacheable port va = false ∨ (s.rclPort port).coherent = false → (s.rclPort port).violations = [] →
        1 ≤ s.regN .rclViolLimit → s.regN .evtCtrl (rclSource port).toNat = 0 →
        (∀ h ∈ s.heldWrites, h.line ≠ some (s.grantLine port va)) →
        ∃ u, Machine.exec row.1 s = .next u ∧ s.Performs u port m ∧ (u.rclPort port).violations.length = 1
          ∧ s.RclSends u port [rclReply opData m (if s.cacheable port va then stMalformed else stNotCoherent)
              (List.replicate 64 0) false]
          ∧ u.filters = s.filters ∧ u.hbm = s.hbm))
    ∧ (∀ rest, s.readsOf port opWb = m :: rest → s.inEnabled port va = true → (s.rclPort port).coherent = true →
      s.heldLine port va = some line → s.holds port line = .owned → m.data.length = 64 → (s.rclPort port).owed = [] →
      (∀ n, n < 8 → s.cohEnabled port n = true → s.cohRequest port n = true) →
      (s.NoneWaits →
        ∃ u, Machine.exec (.wb port) s = .next u ∧ s.Performs u port m ∧ u.loadHbm (line * 64) = (m.data, m.poison)
          ∧ u.holds port line = .invalid ∧ s.RclSends u port [rclReply opCmp m stOk [] false])
      ∧ (∀ n, s.snoops = [n] → n.port = port → n.line = line →
        ∃ u, Machine.exec (.wb port) s = .next u ∧ u.loadHbm (line * 64) = (m.data, m.poison)
          ∧ u.snoops = [{ n with wbTaken := true }] ∧ s.RclSends u port [rclReply opCmp m stOk [] false]))
    ∧ (s.nextPosted port opEvictClean = some m → s.heldLine port va = some line → s.holds port line = .shared →
      s.NoneWaits →
      (∀ n, n < 8 → s.cohEnabled port n = true → s.cohRequest port n = true) →
      ∃ u, Machine.exec (.evictClean port) s = .next u ∧ s.Performs u port m ∧ u.holds port line = .invalid
        ∧ s.RclSends u port [] ∧ u.hbm = s.hbm)
    ∧ (∀ x r, (s.rclPort port).rsps.find? (fun y => decide (y.opcode = opData)) = some x →
      (s.rclPort port).reads.find? (fun y => decide (y.tag = x.tag)) = some r → r.landing = .buffer →
      ∃ u, Machine.exec (.data port) s = .next u ∧ (u.rclPort port).rsps = (s.rclPort port).rsps.erase x
        ∧ (u.rclPort port).reads = (s.rclPort port).reads.filter (fun y => decide (y.tag ≠ x.tag))
        ∧ (u.rclPort port).hostBuf = (s.rclPort port).hostBuf ++ [⟨r.addr, x.data, x.poison || decide (x.status ≠ 0)⟩]
        ∧ u = { s with rcl := u.rcl })
    ∧ (∀ x n, s.snoopOf port x = some n → s.heldWrites = [] →
      (∀ i, i < 8 → s.cohEnabled port i = true → s.cohRequest port i = true) →
      ((s.rclPort port).rsps.find? (fun y => decide (y.opcode = opSnpRsp) && s.afterWb port y) = some x →
        ∃ u, Machine.exec (.snpRsp port) s = .next u ∧ (u.rclPort port).rsps = (s.rclPort port).rsps.erase x
          ∧ u.snoops = s.snoops.filter (fun y => decide (y ≠ n)) ∧ u.hbm = s.hbm
          ∧ u.holds port n.line = (if n.inv = true ∨ s.holds port n.line = .invalid then .invalid else .shared))
      ∧ ((s.rclPort port).rsps.find? (fun y => decide (y.opcode = opSnpRspData) && s.afterWb port y) = some x →
        x.data.length = 64 → s.holds port n.line = .owned →
        ∃ u, Machine.exec (.snpRspData port) s = .next u ∧ (u.rclPort port).rsps = (s.rclPort port).rsps.erase x
          ∧ u.snoops = s.snoops.filter (fun y => decide (y ≠ n))
          ∧ u.loadHbm (n.line * 64) = (x.data, x.poison || decide (x.status ≠ 0))
          ∧ u.holds port n.line = (if n.inv then .invalid else .shared)))
    ∧ (∀ n, s.snoops.find? (fun y => y.sent && decide (y.port = port)) = some n →
      (∀ i, i < 8 → s.cohEnabled port i = true → s.cohRequest port i = true) → (s.rclPort port).violations = [] →
      1 ≤ s.regN .rclViolLimit → s.regN .evtCtrl (rclSource port).toNat = 0 → s.heldWrites = [] →
      ∃ u, Machine.exec (.snoopTimeout port) s = .next u ∧ u.snoops = s.snoops.filter (fun y => decide (y ≠ n))
        ∧ u.holds port n.line = .invalid ∧ (u.rclPort port).violations.length = 1 ∧ u.hbm = s.hbm
        ∧ Sparse.get false u.hbmPoison n.line
            = (Sparse.get false s.hbmPoison n.line || decide (s.holds port n.line = .owned)))
    ∧ (∀ region : Fin 8, s.mayWriteReg (partReq p) ⟨.rclCohCtrl, port.val, 0⟩ = true →
      (s.cohRequest port region.val = false → s.cohEnabled port region.val = false →
        ∃ u, Machine.exec (.cohRegionEnable p port region) s = .next u ∧ u.cohRequest port region.val = true
          ∧ u.cohEnabled port region.val = (s.regionRefusal p port region.val).isNone)
      ∧ (s.cohRequest port region.val = true → s.cohEnabled port region.val = true →
        (s.regionLines port region.val = [] →
          ∃ u, Machine.exec (.cohRegionDisable p port region) s = .next u ∧ u.cohRequest port region.val = false
            ∧ u.cohEnabled port region.val = false)
        ∧ (∀ x tag, s.regionLines port region.val = [x] → s.snoops = [] → s.tagRoom port = true →
          (∀ i, i < 8 → i ≠ region.val → s.cohEnabled port i = true → s.cohRequest port i = true) →
          tag = (s.rclPort port).freeTag [] 4096 (s.rclPort port).nextTag →
          ∃ u, Machine.exec (.cohRegionDisable p port region) s = .next u ∧ u.cohRequest port region.val = false
            ∧ u.cohEnabled port region.val = true
            ∧ u.snoops = [⟨port, x.1, s.heldVa port x.1, tag, true, false, true⟩])))

/-! ## Partitions -/

/-- A start runs a STOPPED partition with its ring indices at 0, or is refused and logged; a reset frees its contexts,
ends every packet and leaves nothing queued, and it is STOPPED once its replies are written; a freed unit starts the
head of the queue it goes to (R394, R395, R413, R414, R466, R484). -/
def Obligations.PartitionsStartStopAndQueue : Prop :=
  ∀ (s : State) (r : Requester) (p : Part), s.live = true →
    (s.mayWriteReg r ⟨.partCtrl, p.val, 0⟩ = true →
      ((s.part p).state = 0 → s.mgt.fatal = false →
        (s.startRefusal p = none →
          ∃ u, Machine.exec (.partStart r p) s = .next u ∧ (u.part p).state = 1
            ∧ (∀ ring : Ring, s.ownsRing p ring.val = true → u.regN .hifSqHead ring.val = 0
              ∧ u.regN .hifSqTail ring.val = 0
              ∧ u.regN .hifRqHead ring.val = 0 ∧ u.regN .hifRqTail ring.val = 0)
            ∧ (∀ q, q ≠ p → u.part q = s.part q))
        ∧ (∀ c, s.startRefusal p = some c → s.regN .evtCtrl secSource.toNat = 0 → (s.source secSource).held = [] →
          ∃ u, Machine.exec (.partStart r p) s = .next u ∧ u.parts = s.parts
            ∧ (u.source secSource).held.map HeldEvent.data = [f1 p.val ++ f1 (Config.code 3 c)]))
      ∧ ((s.part p).state ≠ 0 ∨ s.mgt.fatal = true → Machine.exec (.partStart r p) s = .next s)
      ∧ ((s.part p).state = 1 →
        ∃ u, Machine.exec (.partReset r p) s = .next u ∧ (u.part p).state = 2
          ∧ (∀ t, threadCore t ∈ s.coresOf p → (u.context t).run = .free)
          ∧ (∀ k ∈ (u.part p).packets, k.ended = true) ∧ (u.part p).queues = [] ∧ (u.part p).units = []
          ∧ (u.part p).update.jobs = [] ∧ (u.part p).update.ckpt = none ∧ (u.part p).update.restore = none
          ∧ (∀ q, q ≠ p → (u.part q).state = (s.part q).state))
      ∧ ((s.part p).state ≠ 1 → Machine.exec (.partReset r p) s = .next s))
    ∧ ((s.part p).state = 2 → s.quiet p = true →
      ∃ u, Machine.exec (.partitionStopped p) s = .next u ∧ u.part p = { s.part p with phase := 0, state := 0 }
        ∧ (∀ q, q ≠ p → u.part q = s.part q) ∧ (∀ k, s.ownsRcl p k = true → (u.rclPort k).hostBuf = []))
    ∧ (∀ pool id rest k, s.nextQueued updKey = some (p, pool) → s.queuedOn p updKey = id :: rest →
      s.packet? p id = some k →
      pktOpcode k.bytes ∈ [0x11, 0x12, 0x13] →
      ∃ u, Machine.exec (.admissionUnitFreed .update) s = .next u
        ∧ (∃ k' ∈ (u.part p).packets, k'.id = k.id ∧ k'.started = true ∧ k'.borrowed = pool ∧ k'.ended = k.ended)
        ∧ ⟨k.id, updKey, pool, s.updBytes p k⟩ ∈ (u.part p).units ∧ (∀ x ∈ (u.part p).queues, x.1 ≠ k.id)
        ∧ (pool = true → Sparse.get 3 u.poolTurn updKey = p.val) ∧ (∀ q, q ≠ p → u.part q = s.part q))

/-! ## The governor -/

/-- The PLL and the rails of a die move in the order of R421: whatever window, sensor, preference or cap a command
brings, the rails cover the PLL; a completed PLL change is in force, and the preferred depth follows the partition's
phase tag. A window over a rail's limit deepens its die by one step, a hundred quiet ones relax it; a thousand windows
of a large difference are a mismatch; a monitored rail over its limit sets rail_over; heat deepens a die and coolness
relaxes it; a sensor that gives no reading has failed and holds the die deep; 115 °C trips (R416, R420-R428,
R435-R437). -/
def Obligations.TheGovernorFollowsItsLoops : Prop :=
  (∀ (s : State) (d : Die), s.live = true → (s.die d).Covered →
     (∀ c ∈ [Instr.pllChangeComplete d, .railSlewComplete d, .thermalWindowEnd d],
       ∃ u, Machine.exec c s = .next u ∧ (u.die d).Covered ∧ ∀ e, e ≠ d → u.die e = s.die e)
     ∧ (∀ t, (s.die d).pllTo = some t →
       ∃ u, Machine.exec (.pllChangeComplete d) s = .next u ∧ (u.die d).op = t
         ∧ (u.die d).railDepth = (s.die d).railDepth ∧ (u.die d).thermDepth = (s.die d).thermDepth)
     ∧ (∀ t, (s.die d).slewTo = some t → (s.die d).pllTo = none → t ≠ (s.die d).op → depthOp (s.dieDepth d) = t →
       ∃ u, Machine.exec (.railSlewComplete d) s = .next u ∧ (u.die d).volts = t ∧ (u.die d).pllTo = some t
         ∧ (u.die d).slewTo = none)
     ∧ (∀ p, s.partValid p = true → d ∈ s.diesOf p → (∀ e, (s.die e).Covered) →
       ∃ u, Machine.exec (.phasePreferenceUpdate p) s = .next u
         ∧ (u.die d).prefDepth
             = Nat.min (bitsOf (s.regN .govPhaseOp p.val) (4 * (s.part p).phase + 3) (4 * (s.part p).phase)) 11
         ∧ (∀ e, (u.die e).Covered) ∧ (∀ e, e ∉ s.diesOf p → u.die e = s.die e))
     ∧ (∀ loop est ew mw mon,
       ∃ u, Machine.exec (.railWindowEnd d loop est ew mw mon) s = .next u ∧ (u.die d).Covered)
     ∧ (∀ readings, ∃ u, Machine.exec (.thermalSensorRead d readings) s = .next u ∧ (u.die d).Covered)
     ∧ (∀ samples, (∀ e, (s.die e).Covered) → ∃ u, Machine.exec (.capWindowEnd samples) s = .next u
       ∧ ∀ e, (u.die e).Covered))
    ∧ (∀ (s : State) (d : Die) (q : DieState), s.live = true → q = s.die d →
         (∀ loop est ew mw, q.mismatch = false → differsBy 20 ew mw = false →
           ((∃ i, i < 5 ∧ loopLimits.getD i 0 < judged false loop est i) → 1 ≤ q.sinceRise → q.railDepth < 27 →
             ∃ u, Machine.exec (.railWindowEnd d loop est ew mw []) s = .next u ∧ s.DieOnly u d
               ∧ (u.die d).railDepth = q.railDepth + 1
               ∧ (u.die d).sinceRise = 0 ∧ (u.die d).quiet = 0 ∧ (u.die d).differ = 0)
           ∧ ((∀ i, i < 5 → judged false loop est i * 100 < loopLimits.getD i 0 * 90) →
             ∃ u, Machine.exec (.railWindowEnd d loop est ew mw []) s = .next u ∧ s.DieOnly u d
               ∧ (u.die d).railDepth = (if 99 ≤ q.quiet then q.railDepth - 1 else q.railDepth)
               ∧ (u.die d).quiet = (if 99 ≤ q.quiet then 0 else q.quiet + 1) ∧ (u.die d).mismatch = false)
           ∧ ((∃ i, i < 5 ∧ loopLimits.getD i 0 * 90 ≤ judged false loop est i * 100) →
             (∀ i, i < 5 → judged false loop est i ≤ loopLimits.getD i 0) →
             ∃ u, Machine.exec (.railWindowEnd d loop est ew mw []) s = .next u ∧ s.DieOnly u d
               ∧ (u.die d).railDepth = q.railDepth
               ∧ (u.die d).quiet = 0))
         ∧ (∀ ew mw, q.mismatch = false → differsBy 20 ew mw = true →
           ∃ u, Machine.exec (.railWindowEnd d [] [] ew mw []) s = .next u ∧ s.DieOnly u d
             ∧ (u.die d).mismatch = decide (999 ≤ q.differ)
             ∧ (999 ≤ q.differ → bitOf (u.regN .govStatus) 1 = true ∧ bitOf (u.regN .mgtAlertStatus) 9 = true))
         ∧ (∀ (rail : Fin 27) amps, 20 ≤ rail.val → railLimit rail.val < amps →
           ∃ u, Machine.exec (.railWindowEnd d [] [] 0 0 [(rail, amps)]) s = .next u ∧ s.DieOnly u d
             ∧ bitOf (u.regN .govStatus) 0 = true
             ∧ bitOf (u.regN .mgtAlertStatus) 5 = true)
         ∧ (∀ (readings : List (Option Int)) (x : Int), q.sensorFailed = 0 → (∀ i, i < 8 →
           goodReading (readings.getD i none) = true) →
           (∃ i, i < 8 ∧ readings.getD i none = some x) → (∀ i y, i < 8 → readings.getD i none = some y → y ≤ x) →
           ∃ u, Machine.exec (.thermalSensorRead d readings) s = .next u ∧ s.DieOnly u d ∧ u.die d = { q with
             reading := x, hot := q.hot || decide (9500 ≤ x), cool := if 9500 ≤ x then 0 else q.cool })
         ∧ (∀ (readings : List (Option Int)) i, i < 8 → goodReading (readings.getD i none) = false →
           ∃ u, Machine.exec (.thermalSensorRead d readings) s = .next u ∧ s.DieOnly u d
             ∧ (u.die d).sensorFailed.getLsbD i = true
             ∧ (q.sensorFailed.getLsbD i = false → 11 ≤ (u.die d).thermDepth ∧ bitOf (u.regN .mgtAlertStatus) 8 = true))
         ∧ (10000 ≤ q.reading → q.thermDepth < 27 →
           ∃ u, Machine.exec (.thermalWindowEnd d) s = .next u ∧ s.DieOnly u d
             ∧ (u.die d).thermDepth = q.thermDepth + 1 ∧ (u.die d).cool = 0
             ∧ (q.thermDepth = 0 → bitOf (u.regN .mgtAlertStatus) 3 = true))
         ∧ (q.reading < 9500 → q.hot = true →
           ∃ u, Machine.exec (.thermalWindowEnd d) s = .next u ∧ s.DieOnly u d
             ∧ u.die d = { q with cool := 0, hot := false })
         ∧ (q.reading < 9500 → q.hot = false → q.sensorFailed = 0 →
           ∃ u, Machine.exec (.thermalWindowEnd d) s = .next u ∧ s.DieOnly u d ∧ (u.die d).hot = false
             ∧ (u.die d).thermDepth = (if 99 ≤ q.cool then q.thermDepth - 1 else q.thermDepth)
             ∧ (u.die d).cool = (if 99 ≤ q.cool then 0 else q.cool + 1))
         ∧ (9500 ≤ q.reading → q.reading < 10000 →
           ∃ u, Machine.exec (.thermalWindowEnd d) s = .next u ∧ s.DieOnly u d
             ∧ u.die d = { q with cool := 0, hot := true })
         ∧ (∀ unit centi, 0 < s.power.railsUp →
           Machine.exec (.thermalTrip unit centi) s
             = .next { s with power := { s.power with trip := s.power.trip || decide (11500 ≤ centi) } }))

/-- The cap registers hold the written cap within 600 to 2,100; a window whose mean is above the effective cap deepens
the valid partition of the least weighted depth, the lower of equals, or makes the cap unreachable when none is left,
its valid partitions then at depth 27 (the last DEDUCED, log 122); the tenth window below 95 % relaxes the partition
of the largest weighted depth, the higher of equals (R429-R434, R504). -/
def Obligations.TheCapSharesPower : Prop :=
  ∀ (s : State) (r : Requester) (v : BitVec 32) (cap : Nat), s.live = true →
    cap = min (s.regN .govCapWatts) (s.regN .govBoardCap) →
    (∀ row ∈ [(Instr.govCapWattsWrite r v, RegName.govCapWatts), (.govBoardCapWrite r v, .govBoardCap)],
      (s.mayWriteReg r ⟨row.2, 0, 0⟩ = true →
        ∃ u, Machine.exec row.1 s = .next u ∧ u.regN row.2 = max 600 (min (v.toNat % 4096) 2100) ∧ u.parts = s.parts)
      ∧ (s.mayWriteReg r ⟨row.2, 0, 0⟩ = false → ∃ u, Machine.exec row.1 s = .next u ∧ u.regN row.2 = s.regN row.2))
    ∧ (r.val < 4 → s.mayWriteReg r ⟨.govBoardCap, 0, 0⟩ = false)
    ∧ Machine.exec (.capWindowEnd []) s = .next s
    ∧ (∀ (samples : List Nat) (n sum : Nat), 0 < n → n = samples.length → sum = samples.sum → cap * n < sum →
      (∀ p, p ∈ s.validParts → s.partDepth p < 27 →
        (∀ q ∈ s.validParts, s.partDepth q < 27 → q ≠ p →
          (s.partDepth p + 1) * s.powerWeight p < (s.partDepth q + 1) * s.powerWeight q
            ∨ ((s.partDepth p + 1) * s.powerWeight p = (s.partDepth q + 1) * s.powerWeight q ∧ p < q)) →
        ∃ u, Machine.exec (.capWindowEnd samples) s = .next u ∧ (u.part p).capDepth = s.partDepth p + 1
          ∧ (∀ q, q ≠ p → (u.part q).capDepth = (s.part q).capDepth) ∧ u.power.quietCaps = 0
          ∧ u.regN .govMeasWatts = min (samples.getLastD 0) 65535)
      ∧ (s.validParts ≠ [] → (∀ p ∈ s.validParts, 27 ≤ s.partDepth p) →
        ∃ u, Machine.exec (.capWindowEnd samples) s = .next u ∧ u.power.unreachable = true
          ∧ (∀ p, s.power.unreachable = true ∨ p ∉ s.validParts → (u.part p).capDepth = (s.part p).capDepth)
          ∧ (s.power.unreachable = false →
            (∀ p ∈ s.validParts, (u.part p).capDepth = max (s.part p).capDepth 27)
            ∧ bitOf (u.regN .govStatus) 2 = true ∧ bitOf (u.regN .mgtAlertStatus) 4 = true)))
    ∧ (∀ (samples : List Nat) (n sum : Nat), 0 < n → n = samples.length → sum = samples.sum → sum ≤ cap * n →
      (cap * 95 * n ≤ sum * 100 →
        ∃ u, Machine.exec (.capWindowEnd samples) s = .next u ∧ u.power.quietCaps = 0 ∧ u.power.unreachable = false
          ∧ u.parts = s.parts)
      ∧ (sum * 100 < cap * 95 * n → s.power.quietCaps < 9 →
        ∃ u, Machine.exec (.capWindowEnd samples) s = .next u ∧ u.power.quietCaps = s.power.quietCaps + 1
          ∧ u.power.unreachable = false ∧ u.parts = s.parts)
      ∧ (∀ p, sum * 100 < cap * 95 * n → 9 ≤ s.power.quietCaps → p ∈ s.validParts → 0 < (s.part p).capDepth →
        (∀ q ∈ s.validParts, 0 < (s.part q).capDepth → q ≠ p →
          (s.part q).capDepth * s.powerWeight q < (s.part p).capDepth * s.powerWeight p
            ∨ ((s.part q).capDepth * s.powerWeight q = (s.part p).capDepth * s.powerWeight p ∧ q < p)) →
        ∃ u, Machine.exec (.capWindowEnd samples) s = .next u ∧ (u.part p).capDepth = (s.part p).capDepth - 1
          ∧ (∀ q, q ≠ p → (u.part q).capDepth = (s.part q).capDepth) ∧ u.power.quietCaps = 0))

/-! ## Power and reset -/

/-- The rails rise in the order of Table 16.1 and PWR_GOOD follows the last; a fault, a late sequence, PWR_EN falling,
an input out of range or a lost board reference takes every rail down, all state with it; RESET_n low resets a powered
device, and its rise starts the ROM. With power, the JTAG port loads the instruction it is given; an external-test
instruction acts only while RESET_n is low, and as BYPASS otherwise, and a rise of RESET_n turns one into BYPASS
(R416, R442-R445, R487, R490, R515, R521, R525). -/
def Obligations.PowerResetAndJtag : Prop :=
  (∀ (s : State) (q : Power), q = s.power →
     (q.pwrEn = false →
       Machine.exec .pwrEnRise s = .next { s with power := { q with
         pwrEn := true, failed := false, brdRefclk := true, fabRefclk := [true, true] } })
     ∧ (q.pwrEn = true → q.failed = false →
       (q.railsUp < 9 →
         ∃ u, Machine.exec .railGood s = .next u ∧ u.power.railsUp = q.railsUp + 1 ∧ u.power.pwrGood = false
           ∧ u.boot = s.boot ∧ u.rcl = s.rcl)
       ∧ (q.railsUp = 9 → q.brdRefclk = true →
         ∃ u, Machine.exec .railGood s = .next u ∧ u.power.railsUp = 10 ∧ u.power.pwrGood = true
           ∧ u.PortsDetect
           ∧ u.boot = (if q.resetLow then s.boot else { s.boot with stage := .romReady }))
       ∧ (q.railsUp = 9 → q.brdRefclk = false →
         ∃ u, Machine.exec .railGood s = .next u ∧ u.power.railsUp = 10 ∧ u.power.pwrGood = false ∧ u.boot = s.boot))
     ∧ (∀ c keep, (c = Instr.powerUpTimeout ∧ q.pwrEn = true ∧ q.pwrGood = false ∧ q.failed = false ∧ keep = (q.vaux
             && decide (q.railsUp ≠ 0)))
           ∨ (∃ rail : Fin 27, c = .regulatorFault rail ∧ q.pwrEn = true ∧ q.failed = false
             ∧ keep = (q.vaux && decide (rail.val ≠ 26)))
           ∨ (∃ rail : Fin 27, c = .railHardLimitTrip rail ∧ q.pwrGood = true
             ∧ keep = (q.vaux && decide (rail.val ≠ 26)))
           ∨ (c = .pwrEnFall ∧ keep = false)
           ∨ (∃ mv us, c = .inputOutOfRange mv us ∧ q.pwrEn = true ∧ inputLost mv us = true ∧ keep = false)
           ∨ (c = .brdRefclkLoss ∧ q.pwrGood = true ∧ keep = false) →
       ∃ u, Machine.exec c s = .next u ∧ u.power.pwrGood = false ∧ u.power.vaux = keep ∧ u.power.railsUp = b2n keep
         ∧ u.hbm = [] ∧ u.reserve = [] ∧ u.parts = [] ∧ u.cores = [] ∧ u.sync = [] ∧ u.fabric = [] ∧ u.dies = []
         ∧ u.boot = { Boot.off with flash := s.boot.flash, revoke := s.boot.revoke, svnFuses := s.boot.svnFuses }
         ∧ u.pending = s.pending ∧ (keep = true → bitOf (u.regN .mgtAlertStatus) 5 = true))
     ∧ (∀ rail : Fin 27, q.pwrEn = true → q.failed = false →
       ∃ u, Machine.exec (.regulatorFault rail) s = .next u ∧ u.mgt.failingRail = rail.val ∧ u.power.failed = true)
     ∧ (∀ mv us, inputLost mv us = false → Machine.exec (.inputOutOfRange mv us) s = .next s)
     ∧ (q.pwrGood = true →
       (∃ u, Machine.exec .resetNLow s = .next u ∧ u.power.resetLow = true ∧ u.power.pwrGood = true
         ∧ u.power.railsUp = q.railsUp
         ∧ u.regs = [] ∧ u.hbm = [] ∧ u.parts = [] ∧ u.cores = [] ∧ u.boot.stage = .off ∧ u.PortsDetect
         ∧ (∀ n, (u.fab n).patterns = [0xF]) ∧ (∀ k, (u.rclPort k).control = [sentPattern])
         ∧ u.boot.flash = s.boot.flash ∧ u.boot.svnFuses = s.boot.svnFuses ∧ u.boot.revoke = s.boot.revoke
         ∧ u.boot.causeA = s.boot.causeA ∧ u.boot.causeB = s.boot.causeB)
       ∧ (s.boot.stage = .off →
         ∃ u, Machine.exec .resetNRise s = .next u ∧ u.power.resetLow = false ∧ u.boot.stage = .romReady
           ∧ u.jtag = s.jtag.high ∧ u.regs = s.regs)))
    ∧ (∀ (s : State), s.power.vaux = true →
         (∀ row ∈ [(Instr.bypass, JtagInstr.bypass), (.idcode, .idcode), (.samplePreload, .samplePreload)],
           Machine.exec row.1 s = .next { s with jtag := row.2 })
         ∧ (∀ row ∈ [(Instr.extest, JtagInstr.extest), (.extestPulse, .extestPulse), (.extestTrain, .extestTrain)],
           (s.power.resetLow = true → Machine.exec row.1 s = .next { s with jtag := row.2 }
             ∧ ∃ u v, Machine.exec row.1 s = .next u ∧ Machine.exec .resetNRise u = .next v ∧ v.jtag = .bypass)
           ∧ (s.power.resetLow = false → Machine.exec row.1 s = .next { s with jtag := .bypass })))

/-! ## Boot -/

/-- The ROM prints a line that begins with the time (its text is open, log 121), samples BOOT_SEL and waits for its
keys; it then runs the preferred image whose manifest passes, records the cause of one that fails and tries the other,
and enters recovery when told or when both have failed; the boot code measures the firmware manifest and configures
the device, or restarts it with the cause; so does the watchdog (R447, R451, R456-R460, R464, R487, R489). -/
def Obligations.TheRomRunsAnImageThatPasses : Prop :=
  ∀ (s : State), s.live = true →
    (∀ sel : BitVec 2, s.boot.stage ≠ .romReady → Machine.exec (.bootRomStart sel) s = .next s)
    ∧ (∀ sel : BitVec 2, s.boot.stage = .romReady → s.boot.keys = false →
      Machine.exec (.bootRomStart sel) s = .next { s.uartPrint with boot := { s.boot with
        stage := .romWait, bootSel := (if sel = 1 then 1 else 0), bootSelReserved := decide (2 ≤ sel.toNat) } })
    ∧ (s.boot.stage = .romWait → s.boot.keys = false →
      (s.boot.bootSel = 1 ∨ (s.boot.causeA ≠ 0 ∧ s.boot.causeB ≠ 0) →
        ∃ u, Machine.exec .identityKeysReady s = .next u ∧ u.parts = s.parts ∧ u.hbm = s.hbm
          ∧ u.boot.stage = .recovery ∧ u.boot.keys = true
          ∧ bitOf (u.regN .mgtAlertStatus) 1 = true
          ∧ u.boot.recoveryForced = (s.boot.recoveryForced || (decide (s.boot.causeA ≠ 0) && decide (s.boot.causeB ≠ 0))))
      ∧ (∀ img base read m c, s.boot.bootSel = 0 → img = s.preferredImage → base = imageAt img →
        read = (fun o n => s.flashBytes (base + o) n) → m = read 0 8192 → s.boot.cause img = 0 →
        c = s.manifestCause 1 true none m read →
        (c = 0 →
          ∃ u, Machine.exec .identityKeysReady s = .next u ∧ u.parts = s.parts ∧ u.hbm = s.hbm
            ∧ u.boot.stage = .bootCode ∧ u.boot.source = img
            ∧ u.boot.manifest = m ∧ u.boot.meas0 = extendAll s.boot.meas0 m (loadComps m read) ∧ u.boot.watchdog = true
            ∧ u.boot.stageCode = 1 ∧ u.boot.imageBase = base ∧ u.boot.causeA = s.boot.causeA
              ∧ u.boot.causeB = s.boot.causeB)
        ∧ (c ≠ 0 → s.boot.cause (1 - img) ≠ 0 →
          ∃ u, Machine.exec .identityKeysReady s = .next u ∧ u.parts = s.parts ∧ u.hbm = s.hbm
            ∧ u.boot.stage = .recovery ∧ u.boot.cause img = c
            ∧ u.boot.cause (1 - img) = s.boot.cause (1 - img) ∧ bitOf (u.regN .mgtAlertStatus) 1 = true)
        ∧ (∀ read' m', c ≠ 0 → s.boot.cause (1 - img) = 0 →
          read' = (fun o n => s.flashBytes (imageAt (1 - img) + o) n) →
          m' = read' 0 8192 → s.bumpFree.bumpFree.manifestCause 1 true none m' read' = 0 →
          ∃ u, Machine.exec .identityKeysReady s = .next u ∧ u.parts = s.parts ∧ u.hbm = s.hbm
            ∧ u.boot.stage = .bootCode ∧ u.boot.source = 1 - img
            ∧ u.boot.manifest = m' ∧ u.boot.cause img = c)))
    ∧ (∀ read f c w, s.boot.stage = .bootCode → read = (fun o n => s.flashBytes (s.boot.imageBase + firmwareAt + o) n) →
      f = read 0 8192 → c = s.manifestCause 2 true (some (manSeq s.boot.manifest)) f read →
      (c ≠ 0 → s.boot.source < 2 →
        ∃ u, Machine.exec .bootCodeStart s = .next u ∧ u.boot.stage = .romReady ∧ u.boot.cause s.boot.source = c
          ∧ u.boot.cause (1 - s.boot.source) = s.boot.cause (1 - s.boot.source) ∧ u.parts = [] ∧ u.hbm = []
            ∧ u.cores = [])
      ∧ (c = 0 → w = { s.uartPrint.bumpFree.bumpFree with boot := { s.boot with
            fwManifest := f, fwComps := loadComps f read, meas1 := extendAll s.boot.meas1 f (loadComps f read) } } →
        (w.configure = none → s.boot.source < 2 →
          ∃ u, Machine.exec .bootCodeStart s = .next u ∧ u.boot.stage = .romReady ∧ u.boot.cause s.boot.source = 10)
        ∧ (∀ x, w.configure = some x →
          ∃ u, Machine.exec .bootCodeStart s = .next u ∧ u.boot = { x.boot with stage := .configured }
            ∧ (∀ p, x.partValid p = true → u.regN .secFwrBase p.val = x.firmwareBase p % 2 ^ 64
              ∧ u.regN .secFwrSize p.val = 0x4000000))))
    ∧ (s.boot.watchdog = true → s.boot.source < 2 →
      ∃ u, Machine.exec .bootWatchdogExpiry s = .next u ∧ u.boot.stage = .romReady ∧ u.boot.cause s.boot.source = 11
        ∧ u.boot.watchdog = false ∧ u.parts = [] ∧ u.hbm = [])
    ∧ (∀ (r : Requester) read m c, s.inRecovery = true → r ≠ mgmtPort → s.boot.stage = .recovery →
      read = (fun o n => Memory.readBytes s.boot.bootSram o n) → m = read 0 8192 →
      c = s.manifestCause 1 false none m read →
      (c = 0 →
        ∃ u, Machine.exec (.secRecoveryGo r) s = .next u ∧ u.parts = s.parts ∧ u.hbm = s.hbm
          ∧ u.boot.stage = .recoveryFw ∧ u.boot.source = 2
          ∧ u.boot.stageCode = 3 ∧ u.boot.manifest = m ∧ u.boot.meas0 = extendAll s.boot.meas0 m (loadComps m read))
      ∧ (c ≠ 0 →
        ∃ u, Machine.exec (.secRecoveryGo r) s = .next u ∧ u.parts = s.parts ∧ u.hbm = s.hbm
          ∧ u.boot.stage = .recovery ∧ u.boot.causeRec = c
          ∧ bitOf (u.regN .mgtAlertStatus) 1 = true))

/-- The lock measures the RWL registers, is set for good and stops every valid partition; device firmware then trains
each part, marks those that fail, and reports ready with the last (R461, R462, R464-R466, R487). -/
def Obligations.LockFirmwareAndReady : Prop :=
  ∀ (s : State), s.live = true →
    (s.boot.stage = .configured →
      ∃ u, Machine.exec .secLockSet s = .next u ∧ u.boot.locked = true ∧ u.boot.stage = .locked ∧ u.regN .secLock = 1
        ∧ u.boot.meas2 = extend s.boot.meas2 s.rwlValues ∧ (∀ p, s.partValid p = true → (u.part p).state = 0)
        ∧ u.boot.meas0 = s.boot.meas0 ∧ u.boot.meas1 = s.boot.meas1)
    ∧ (s.boot.stage = .locked →
      ∃ u, Machine.exec .deviceFirmwareStart s = .next u ∧ u.hbm = s.hbm ∧ u.cores = s.cores
        ∧ u.boot.stage = .firmware ∧ u.boot.stageCode = 2
        ∧ u.boot.training = trainParts ∧ u.parts = s.parts
        ∧ (s.boot.causeA = 0 → s.boot.causeB = 0 → s.boot.causeRec = 0 → s.boot.source = 2 →
          (s.source secSource).held = [] →
          (u.source secSource).held.map (fun h => (h.code, h.data))
            = [(0x1803, f4 s.boot.bootSel ++ f4 (b2n s.boot.recoveryForced))]))
    ∧ (∀ part, s.boot.stage = .firmware → part ∈ s.boot.training →
      (∀ x, x ∈ s.boot.training → x ≠ part →
        (∃ u, Machine.exec (.memoryTrainingComplete part true) s = .next u
          ∧ u = { s.uartPrint with boot := { s.boot with training := s.boot.training.filter (fun y => decide (y ≠ part)) } })
        ∧ ∃ u, Machine.exec (.memoryTrainingComplete part false) s = .next u
          ∧ u.boot.training = s.boot.training.filter (fun y => decide (y ≠ part)) ∧ u.boot.ready = s.boot.ready
          ∧ (∀ h, part = .stack h → u.boot.hbmFailed = s.boot.hbmFailed ||| BitVec.ofNat 8 (2 ^ h.val))
          ∧ (part = .reserve → u.boot.reserveFailed = true)
          ∧ (∀ i, part = .updLink i → u.boot.linkFailed = s.boot.linkFailed ||| BitVec.ofNat 2 (2 ^ i.val)))
      ∧ ((∀ x ∈ s.boot.training, x = part) →
        ∃ u, Machine.exec (.memoryTrainingComplete part true) s = .next u ∧ u.boot.ready = true
          ∧ u.boot.watchdog = false
          ∧ u.boot.training = [] ∧ bitOf (u.regN .mgtAlertStatus) 2 = true))

/-! ## Fuses, flash and attestation -/

/-- A key slot is revoked, and the anti-rollback counter raised, by running firmware alone and only as R454 and R455
allow; every attempt is logged, and no fuse is ever cleared. A flash request is taken when none is busy; a write to
the running image or the control block in force is refused; the request that completes fills the buffer, programs the
flash from it, or erases its 64 KiB block. An attestation go copies its nonce and address, and the report is written
in turn, once its place is still good (R447, R467, R512). -/
def Obligations.FusesFlashAndAttestation : Prop :=
  (∀ (s : State) (r : Requester), s.live = true → s.regN .evtCtrl secSource.toNat = 0 → (s.source secSource).held = [] →
     (∀ slot : BitVec 2, s.mayWriteReg r ⟨.secKeyRevoke, 0, 0⟩ = true →
       (s.boot.stage = .firmware → s.boot.namesOther slot.toNat = true →
         s.slotUsable (slot.toNat / 2 * 2 + (1 - slot.toNat % 2)) = true →
         ∃ u, Machine.exec (.secKeyRevoke r slot) s = .next u
           ∧ u.boot.revoke = s.boot.revoke ||| BitVec.ofNat 4 (2 ^ slot.toNat)
           ∧ u.boot.svnFuses = s.boot.svnFuses
             ∧ (u.source secSource).held.map (fun h => (h.code, h.data)) = [(0x1807, f1 slot.toNat)])
       ∧ ((s.boot.stage ≠ .firmware ∨ s.boot.namesOther slot.toNat = false
           ∨ s.slotUsable (slot.toNat / 2 * 2 + (1 - slot.toNat % 2)) = false) →
         ∃ u, Machine.exec (.secKeyRevoke r slot) s = .next u ∧ u.boot = s.boot
           ∧ (u.source secSource).held.map (fun h => (h.code, h.data)) = [(0x1808, f1 slot.toNat)]))
     ∧ (∀ v : BitVec 7, s.mayWriteReg r ⟨.secSvnCommit, 0, 0⟩ = true →
       (s.boot.stage = .firmware → s.rollback < v.toNat → v.toNat ≤ manSvn s.boot.manifest → v.toNat ≤ 64 →
         ∃ u, Machine.exec (.secSvnCommit r v) s = .next u ∧ u.rollback = v.toNat
           ∧ s.boot.svnFuses &&& u.boot.svnFuses = s.boot.svnFuses ∧ u.boot.revoke = s.boot.revoke
           ∧ (u.source secSource).held.map (fun h => (h.code, h.data)) = [(0x1809, f4 v.toNat ++ f4 v.toNat)])
       ∧ ((s.boot.stage ≠ .firmware ∨ v.toNat ≤ s.rollback ∨ manSvn s.boot.manifest < v.toNat) →
         ∃ u, Machine.exec (.secSvnCommit r v) s = .next u ∧ u.boot = s.boot
           ∧ (u.source secSource).held.map (fun h => (h.code, h.data)) = [(0x180A, f4 v.toNat ++ f4 s.rollback)])))
    ∧ (∀ (s : State) (r : Requester), s.live = true →
         (∀ (off : BitVec 32) (len : BitVec 13) n, s.mayWriteReg r ⟨.secFlashCtrl, 0, 0⟩ = true →
           n = min (max len.toNat 1) 4096 →
           (s.boot.flashReq = none →
             (∃ u, Machine.exec (.flashRead r off len) s = .next u ∧ u.parts = s.parts ∧ u.cores = s.cores
               ∧ u.boot = { s.boot with flashReq := some ⟨1, off.toNat, n, false⟩ }
               ∧ u.regN .secFlashCtrl = off.toNat * 2 ^ 32 + n * 2 ^ 16 + 8)
             ∧ (∃ u, Machine.exec (.flashProgram r off len) s = .next u ∧ u.parts = s.parts ∧ u.cores = s.cores
               ∧ u.boot = { s.boot with flashReq := some ⟨2, off.toNat, n, s.flashProtected off.toNat n⟩ })
             ∧ (∃ u, Machine.exec (.flashErase r off) s = .next u ∧ u.parts = s.parts ∧ u.cores = s.cores
               ∧ u.boot = { s.boot with flashReq := some ⟨3, off.toNat / 0x10000 * 0x10000, 0x10000,
                   s.flashProtected (off.toNat / 0x10000 * 0x10000) 0x10000⟩ }))
           ∧ (s.boot.flashReq ≠ none →
             Machine.exec (.flashRead r off len) s = .next s ∧ Machine.exec (.flashProgram r off len) s = .next s
               ∧ Machine.exec (.flashErase r off) s = .next s))
         ∧ (∀ q, s.boot.stage = .firmware → s.boot.flashReq = some q → q.op = 1 ∨ q.op = 2 ∨ q.op = 3 →
           (q.refused = true ∨ flashEnd < q.offset + q.length →
             ∃ u, Machine.exec (.flashRequestComplete false) s = .next u ∧ u.parts = s.parts ∧ u.cores = s.cores
               ∧ u.boot = { s.boot with flashReq := none }
               ∧ bitsOf (u.regN .secFlashCtrl) 7 0 = (if q.refused then 16 else 32)
               ∧ (∀ j, j < 512 → u.regN .secFlashBuf 0 j = s.regN .secFlashBuf 0 j))
           ∧ (q.refused = false → q.offset + q.length ≤ flashEnd →
             ∃ u, Machine.exec (.flashRequestComplete false) s = .next u ∧ u.parts = s.parts ∧ u.cores = s.cores
               ∧ u.boot.flashReq = none
               ∧ bitsOf (u.regN .secFlashCtrl) 7 0 = 0
               ∧ (q.op = 1 → q.length ≤ 4096 → u.bufferBytes q.length = s.flashBytes q.offset q.length
                 ∧ u.boot.flash = s.boot.flash)
               ∧ (q.op = 2 → q.length ≤ 4096 → u.flashBytes q.offset q.length = s.bufferBytes q.length)
               ∧ (q.op = 3 → u.flashBytes q.offset q.length = List.replicate q.length 0xFF)
               ∧ (q.op = 2 ∨ q.op = 3 → ∀ a, a < q.offset ∨ q.offset + q.length ≤ a → q.length ≤ 4096 ∨ q.op = 3 →
                 Memory.read u.boot.flash a = Memory.read s.boot.flash a)))
         ∧ (∀ st addr, s.mayWriteReg r ⟨.secAttestCtrl, r.val, 0⟩ = true → st = s.regN .secAttestStatus r.val →
           addr = s.regN .secAttestAddr r.val → bitOf st 0 = false →
           (s.reportOk r addr = true →
             ∃ u, Machine.exec (.secAttestGo r) s = .next u ∧ u.parts = s.parts ∧ u.cores = s.cores
               ∧ u.boot = { s.boot with
                 attest := s.boot.attest ++ [(r.val, s.nonce r.val, addr)] }
               ∧ u.regN .secAttestStatus r.val = st / 2 ^ 32 * 2 ^ 32 + 1)
           ∧ (s.reportOk r addr = false →
             ∃ u, Machine.exec (.secAttestGo r) s = .next u ∧ u.parts = s.parts ∧ u.cores = s.cores ∧ u.boot = s.boot
               ∧ u.regN .secAttestStatus r.val = st / 2 ^ 32 * 2 ^ 32 + 2))
         ∧ (∀ n nonce addr, s.boot.keys = true → s.boot.nextAttest = some (n, nonce, addr) →
           (∀ p : Part, n = p.val → addr % 4096 = 0 → s.FreeHbm p addr 4096 →
             ∃ u, Machine.exec .attestReportWritten s = .next u ∧ u.readVa p addr 4096 = s.report n nonce
               ∧ (∀ x ∈ u.boot.attest, x.1 ≠ n) ∧ u.boot.attestTurn = n
               ∧ u.regN .secAttestStatus n = (s.regN .secAttestStatus n / 2 ^ 32 + 1) % 2 ^ 32 * 2 ^ 32)
           ∧ (n = 4 →
             ∃ u, Machine.exec .attestReportWritten s = .next u ∧ u.boot.attestReport = s.report n nonce
               ∧ (∀ x ∈ u.boot.attest, x.1 ≠ n))))

/-! ## Events, errors, and the management and JTAG ports -/

/-- An event takes its source's next number and its die's time; it is held while the ring is disabled and there is
room for it, written to the ring when the ring takes it, and lost and counted otherwise. A corrected line is counted
and logged at most once in a millisecond with the count since; an uncorrectable one is poisoned, logged and alerted,
whoever reports it; an error of a store of Table 17.5 that nothing repairs is fatal: it stops every partition
(R472-R474, R476, R481, R482, R484, R487). -/
def Obligations.EventsAndMemoryErrors : Prop :=
  (∀ (s : State) (src : BitVec 16) (num : BitVec 8) (fields : List Byte) (h : HeldEvent), s.live = true →
     sourceExists src.toNat = true → fields.length ≤ 32 →
     h = ⟨BitVec.ofNat 32 (s.regN .evtSeq src.toNat), s.time (sourceDie src.toNat), sourceDie src.toNat,
       BitVec.ofNat 16 (sourceKind src.toNat * 256 + num.toNat), fields⟩ →
     (s.regN .evtCtrl src.toNat = 0 →
       ((s.source src).held.foldl (fun a x => a + entriesOf x.data) 0 + entriesOf fields ≤ 16 →
         ∃ u, Machine.exec (.eventRecord src num fields) s = .next u ∧ (u.source src).held = (s.source src).held ++ [h]
           ∧ u.regN .evtSeq src.toNat = (s.regN .evtSeq src.toNat + 1) % 2 ^ 32
           ∧ u.regN .evtLost src.toNat = s.regN .evtLost src.toNat ∧ (num ≠ 0xF1 → u.hbm = s.hbm))
       ∧ (16 < (s.source src).held.foldl (fun a x => a + entriesOf x.data) 0 + entriesOf fields →
         ∃ u, Machine.exec (.eventRecord src num fields) s = .next u ∧ (u.source src).held = (s.source src).held
           ∧ u.regN .evtSeq src.toNat = (s.regN .evtSeq src.toNat + 1) % 2 ^ 32
           ∧ u.regN .evtLost src.toNat = min (s.regN .evtLost src.toNat + 1) (2 ^ 32 - 1) ∧ (num ≠ 0xF1 →
             u.hbm = s.hbm)))
     ∧ (∀ p base size tail at', s.regN .evtCtrl src.toNat = 1 → p = s.sourceOwner src.toNat →
       base = s.regN .evtBase src.toNat →
       size = s.regN .evtSize src.toNat → tail = s.regN .evtTail src.toNat → at' = base + tail % size * 32 → 0 < size →
       at' % 32 = 0 → tail < 2 ^ 32 → fields.length ≤ 16 →
       (ahead32 (s.regN .evtHead src.toNat) tail + 1 ≤ size → s.FreeHbm p at' 32 →
         ∃ u, Machine.exec (.eventRecord src num fields) s = .next u
           ∧ u.readVa p at' 32 = entryBytes h (decide (tail / size % 2 = 0)) false false
           ∧ u.regN .evtTail src.toNat = (tail + 1) % 2 ^ 32 ∧ u.regN .evtLost src.toNat = s.regN .evtLost src.toNat)
       ∧ (size < ahead32 (s.regN .evtHead src.toNat) tail + 1 →
         ∃ u, Machine.exec (.eventRecord src num fields) s = .next u ∧ u.regN .evtTail src.toNat = tail
           ∧ (num ≠ 0xF1 → u.hbm = s.hbm)
           ∧ u.regN .evtLost src.toNat = min (s.regN .evtLost src.toNat + 1) (2 ^ 32 - 1))))
    ∧ (∀ (s : State), s.live = true →
         (∀ (ctl : Fin 9) (line : Nat) src e, s.patrolled ctl line = true → src = patrolSource ctl → e = s.source src →
           s.regN .evtCtrl src.toNat = 0 → e.held = [] →
           Machine.exec (.patrolScrub ctl line .clean) s = .next s
           ∧ (∃ u, Machine.exec (.patrolScrub ctl line .corrected) s = .next u
             ∧ u.mgt.correctedEcc = s.mgt.correctedEcc + 1 ∧ u.hbm = s.hbm ∧ u.reserve = s.reserve
             ∧ (e.eccAt = none → (u.source src).eccCount = 0
               ∧ (u.source src).held.map HeldEvent.data = [f1 (patrolStore ctl) ++ f4 (e.eccCount + 1)
                   ++ f8 (if e.eccCount = 0 then patrolAddr ctl line else e.eccFirst)])
             ∧ (∀ t, e.eccAt = some t → (s.time (sourceDie src.toNat)).toNat < t + 100000 →
               (u.source src).eccCount = e.eccCount + 1 ∧ (u.source src).held = []))
           ∧ (∃ u, Machine.exec (.patrolScrub ctl line .uncorrected) s = .next u
             ∧ Sparse.get false (if ctl.val < 8 then u.hbmPoison else u.reservePoison) (patrolAddr ctl line / 64) = true
             ∧ (u.source src).held.map HeldEvent.data = [f1 (patrolStore ctl) ++ f8 (patrolAddr ctl line)]
             ∧ bitOf (u.regN .mgtAlertStatus) 6 = true ∧ u.mgt.uncorrectedEcc = s.mgt.uncorrectedEcc + 1))
         ∧ (∀ (src : BitVec 16) (store : BitVec 8) (addr : DWord), sourceExists src.toNat = true →
           s.regN .evtCtrl src.toNat = 0 →
           ∃ u, Machine.exec (.eventRecord src 0xF1 (f1 store.toNat ++ f8 addr.toNat)) s = .next u
             ∧ bitOf (u.regN .mgtAlertStatus) 6 = true ∧ u.mgt.uncorrectedEcc = s.mgt.uncorrectedEcc + 1
             ∧ (store.toNat < 2 → addr.toNat < 8 * 0x1200000000 → Sparse.get false u.hbmPoison (addr.toNat / 64) = true)
             ∧ (store = 2 → addr.toNat < 0x018000000000 → Sparse.get false u.reservePoison (addr.toNat / 64) = true)
             ∧ (∀ c o, store = 3 → src = coreSource c 0 → addr.toNat = o → o < 0x1FB300 →
               (u.core c).scratchPoisoned o 1 = true))
         ∧ (∀ (src : BitVec 16) (store : BitVec 8) (n : Word) (addr : DWord), sourceExists src.toNat = true →
           ∃ u, Machine.exec (.eventRecord src 0xF0 (f1 store.toNat ++ f4 n.toNat ++ f8 addr.toNat)) s = .next u
             ∧ u.mgt.correctedEcc = s.mgt.correctedEcc + n.toNat)
         ∧ (∀ (iod : Iod) (store : BitVec 8) (addr : DWord), 8 ≤ store.toNat → store.toNat ≤ 13 →
           ∃ u, Machine.exec (.fatalError iod store addr) s = .next u ∧ u.mgt.fatal = true
             ∧ bitOf (u.regN .mgtAlertStatus) 0 = true ∧ (∀ p, (u.part p).state ≠ 1)))

/-- The management port answers each request with a status and bytes; a command that needs PWR_GOOD is refused without
it, a malformed one is told so, and a port without VAUX hears nothing (R445, R467, R485-R488, Table 17.6). -/
def Obligations.TheManagementPortAnswers : Prop :=
  ∀ (s : State),
    (∀ a v first n src i q k mask flaw, s.power.vaux = false →
      ∀ c ∈ [Instr.getStatus, .readTelemetry first n, .readReg a, .writeReg a v, .readEvents src i n, .alertClear mask,
        .attest q, .warmReset k, .getId, .alertResponseAddress, .mgtRequestMalformed flaw], Machine.exec c s = .next s)
    ∧ (s.power.vaux = true →
      (s.power.pwrGood = false → ∀ c, (∃ a, c = Instr.readReg a) ∨ (∃ a v, c = .writeReg a v)
          ∨ (∃ src i n, c = .readEvents src i n) ∨ (∃ q, c = .attest q) ∨ (∃ k, c = .warmReset k) ∨ c = .getId →
        Machine.exec c s = .next (s.answer stPartState []))
      ∧ Machine.exec .getStatus s = .next (s.answer stOk (f4 s.mgtStatus ++ f4 (s.regN .mgtAlertStatus)
          ++ f4 s.boot.statusWord ++ f1 s.mgt.failingRail))
      ∧ (∀ first n : BitVec 8, 1 ≤ n.toNat → n.toNat ≤ 31 →
        ∃ u, Machine.exec (.readTelemetry first n) s = .next u ∧ u.mgt.status = stOk
          ∧ u = { s with mgt := u.mgt, freeCount := u.freeCount } ∧ u.mgt.response.length = 8 * n.toNat
          ∧ (∀ k v, k < n.toNat → s.power.pwrGood = true → s.telemetry (first.toNat + k) = some v →
            field u.mgt.response (8 * k) 4 = v % 2 ^ 32)
          ∧ (∀ k, k < n.toNat → s.power.pwrGood = false → liveEarly (first.toNat + k) = false →
            field u.mgt.response (8 * k) 8 = 0))
      ∧ (∀ first n : BitVec 8, n.toNat = 0 ∨ 31 < n.toNat →
        Machine.exec (.readTelemetry first n) s = .next (s.answer stMalformed []))
      ∧ (∀ mask : BitVec 32,
        ∃ u, Machine.exec (.alertClear mask) s = .next u ∧ u.mgt.status = stOk
          ∧ ∀ b, b < 32 → bitOf (u.regN .mgtAlertStatus) b = (bitOf (s.regN .mgtAlertStatus) b && !mask.getLsbD b))
      ∧ (∀ flaw, Machine.exec (.mgtRequestMalformed flaw) s = .next (s.answer stMalformed []))
      ∧ (∃ u, Machine.exec .alertResponseAddress s = .next u ∧ u.mgt.i3c = false
        ∧ ((s.reg .mgtAlertStatus &&& s.reg .mgtAlertMask) ≠ 0 → u.mgt.status = stOk
          ∧ ∃ b, u.mgt.response = [b] ∧ b.toNat / 2 = 0x58 + Config.mgtAddr.toNat)
        ∧ ((s.reg .mgtAlertStatus &&& s.reg .mgtAlertMask) = 0 → u.mgt.response = s.mgt.response)))
    ∧ (s.power.vaux = true → s.power.pwrGood = true →
      (∀ (a : VA) off, mmioOffset a.toNat = some off →
        (∀ at' upper, regHalf off = some (at', upper) →
          Machine.exec (.readReg a) s = .next (s.answer stOk (f8 (s.readMmio mgmtPort off (at'.reg.row.wide && !upper)))))
        ∧ (∀ v, s.power.resetLow = false →
          ∃ w, Machine.exec (.registerWrite mgmtPort (BitVec.ofNat 26 off) true v) s = .next w
          ∧ Machine.exec (.writeReg a v) s = .next (w.answer stOk [])))
      ∧ (∀ a : VA, mmioOffset a.toNat = none → Machine.exec (.readReg a) s = .next (s.answer stHandle [])
        ∧ ∀ v, Machine.exec (.writeReg a v) s = .next (s.answer stHandle []))
      ∧ (∀ (src : BitVec 16) (i : BitVec 32) (n : BitVec 8) p r, 1 ≤ n.toNat → n.toNat ≤ 7 →
        sourceExists src.toNat = true →
        p = s.sourceOwner src.toNat → r = s.ringRanges src.toNat i.toNat n.toNat →
        (s.regN .evtCtrl src.toNat = 0 → Machine.exec (.readEvents src i n) s
          = .next (s.answer stOk (((heldEntries (s.source src).held).drop i.toNat).take n.toNat).flatten))
        ∧ (s.regN .evtCtrl src.toNat = 1 → s.ready p r = true →
          ∃ u, Machine.exec (.readEvents src i n) s = .next u ∧ u.mgt.status = stOk
            ∧ u.mgt.response = (r.flatMap (fun x => s.readVa p x.1 x.2)).take 255))
      ∧ (∀ (q : Fin 4) (data : List Byte), data.length = 16 →
        ∃ u, Machine.exec (.attest (.nonce q data)) s = .next u ∧ u.mgt.status = stOk
          ∧ u.regN .secAttestNonce 4 (2 * q.val) = field data 0 8
            ∧ u.regN .secAttestNonce 4 (2 * q.val + 1) = field data 8 8)
      ∧ (bitOf (s.regN .secAttestStatus 4) 0 = false →
        ∃ u, Machine.exec (.attest .go) s = .next u ∧ u.mgt.status = stOk
          ∧ u.boot.attest = s.boot.attest ++ [(4, s.nonce 4, s.regN .secAttestAddr 4)])
      ∧ (∀ off, Machine.exec (.attest (.read off)) s = .next (s.answer stOk (s.boot.attestReport.drop off.toNat)))
      ∧ (s.power.resetLow = false →
        ∃ u, Machine.exec (.warmReset 0xA5) s = .next u ∧ u.boot.stage = .romReady ∧ u.mgt.status = stOk ∧ u.regs = []
          ∧ u.parts = [] ∧ u.hbm = [] ∧ u.power.pwrGood = true ∧ u.PortsDetect)
      ∧ (∀ k, k ≠ 0xA5 → Machine.exec (.warmReset k) s = .next (s.answer stMalformed []))
      ∧ Machine.exec .getId s = .next (s.answer stOk (f8 deviceId.toNat ++ Config.partNumber ++ f4 Config.romVersion.toNat)))

/-! ## Reset and the invariants -/

/-- After a device reset every register reads its reset value, no command waits, nothing is powered, booted or locked,
no partition is valid, every memory reads 0, and the memories and maps are in canonical form; every die's rails cover
its PLL (R4, R7, R394, R442, R445, R462; what memory and cores hold is the model's choice, log 3). -/
def Obligations.ResetLeavesTheResetValues : Prop :=
  State.reset.pending = [] ∧ State.reset.live = false ∧ State.reset.power.railsUp = 0 ∧ State.reset.boot.locked = false
    ∧ State.reset.boot.ready = false ∧ (∀ r i j, State.reset.reg r i j = BitVec.ofNat 64 r.row.reset)
    ∧ (∀ p, State.reset.partValid p = false ∧ (State.reset.part p).state = 3)
    ∧ (∀ i : SyncObj, State.reset.syncValue i = 0) ∧ (∀ a, Memory.read State.reset.hbm a = 0)
    ∧ (∀ t, (State.reset.context t).run = .free) ∧ (∀ n, (State.reset.fab n).state = .detect)
    ∧ State.reset.memoryOk = true ∧ ∀ d, (State.reset.die d).Covered

/-- Every step keeps the memories in canonical form: HBM, the Reserve, boot SRAM, the flash and every core's scratch
list their bytes at rising addresses, and none that is 0. -/
def Obligations.EveryStepKeepsTheMemoriesCanonical : Prop :=
  ∀ s u : State, s.memoryOk = true → Machine.step s = .next u → u.memoryOk = true

/-- Every step keeps the order of R421: if the rails of every die cover its PLL, they do so after any command. -/
def Obligations.EveryStepKeepsTheRailsCoveringThePlls : Prop :=
  ∀ s u : State, (∀ d, (s.die d).Covered) → Machine.step s = .next u → ∀ d, (u.die d).Covered
end

