-- ==== Sys2Proof/Laws/Sparse.lean ====
section
/-! SUPPORT. The laws of the finite maps: what a set, an erase and a put read as afterwards, and that each keeps
the canonical form. -/

namespace Sys2Proof.Machine

variable {α : Type}

@[simp] theorem Sparse.get_nil (d : α) (k : Nat) : Sparse.get d [] k = d := rfl
@[simp] theorem Sparse.erase_nil (k : Nat) : Sparse.erase ([] : Sparse α) k = [] := rfl

theorem Sparse.get_erase (d : α) (m : Sparse α) (k k' : Nat) :
    Sparse.get d (Sparse.erase m k) k' = if k' = k then d else Sparse.get d m k' := by
  induction m with
  | nil => simp
  | cons e r ih => grind [Sparse.erase, Sparse.get]

theorem Sparse.get_put (d : α) (m : Sparse α) (k : Nat) (v : α) (k' : Nat) :
    Sparse.get d (Sparse.put m k v) k' = if k' = k then v else Sparse.get d m k' := by
  induction m with
  | nil => grind [Sparse.put, Sparse.get]
  | cons e r ih => grind [Sparse.put, Sparse.get]

/-- Reading a key after a set: the value set at its own key, the old reading at every other. -/
theorem Sparse.get_set [DecidableEq α] (d : α) (m : Sparse α) (k : Nat) (v : α) (k' : Nat) :
    Sparse.get d (Sparse.set d m k v) k' = if k' = k then v else Sparse.get d m k' := by
  unfold Sparse.set
  split
  · subst v; exact Sparse.get_erase d m k k'
  · exact Sparse.get_put d m k v k'

@[simp] theorem Sparse.get_set_self [DecidableEq α] (d : α) (m : Sparse α) (k : Nat) (v : α) :
    Sparse.get d (Sparse.set d m k v) k = v := by simp [Sparse.get_set]

theorem Sparse.get_set_ne [DecidableEq α] (d : α) (m : Sparse α) (k : Nat) (v : α) (k' : Nat) (h : k' ≠ k) :
    Sparse.get d (Sparse.set d m k v) k' = Sparse.get d m k' := by simp [Sparse.get_set, h]

/-- A set leaves every other key as it was, whatever unlisted keys are read as. -/
theorem Sparse.get_set_other [DecidableEq α] (d d' : α) (m : Sparse α) (k : Nat) (v : α) (k' : Nat) (h : k' ≠ k) :
    Sparse.get d' (Sparse.set d m k v) k' = Sparse.get d' m k' := by
  unfold Sparse.set
  split
  · rw [Sparse.get_erase, if_neg h]
  · rw [Sparse.get_put, if_neg h]

theorem Sparse.rising_mono (m : Sparse α) (lo lo' : Nat) (h : lo' ≤ lo) (hr : Sparse.rising m lo = true) :
    Sparse.rising m lo' = true := by
  cases m with
  | nil => rfl
  | cons e r =>
    simp only [Sparse.rising, Bool.and_eq_true, decide_eq_true_eq] at *
    exact ⟨by omega, hr.2⟩

theorem Sparse.rising_erase (m : Sparse α) (k lo : Nat) (h : Sparse.rising m lo = true) :
    Sparse.rising (Sparse.erase m k) lo = true := by
  induction m generalizing lo with
  | nil => rfl
  | cons e r ih =>
    simp only [Sparse.rising, Bool.and_eq_true, decide_eq_true_eq] at h
    simp only [Sparse.erase]
    split
    · exact Sparse.rising_mono _ _ _ (by omega) (ih _ h.2)
    · simp [Sparse.rising, h.1, ih _ h.2]

theorem Sparse.rising_put (m : Sparse α) (k : Nat) (v : α) (lo : Nat) (hk : lo ≤ k)
    (h : Sparse.rising m lo = true) : Sparse.rising (Sparse.put m k v) lo = true := by
  induction m generalizing lo with
  | nil => simp [Sparse.put, Sparse.rising, hk]
  | cons e r ih =>
    simp only [Sparse.rising, Bool.and_eq_true, decide_eq_true_eq] at h
    simp only [Sparse.put]
    split
    · simp [Sparse.rising, hk, h.2] <;> omega
    · split
      · subst_vars; simp [Sparse.rising, h.1, h.2]
      · simp [Sparse.rising, h.1, ih (e.1 + 1) (by omega) h.2]

theorem Sparse.mem_erase (m : Sparse α) (k : Nat) (e : Nat × α) (h : e ∈ Sparse.erase m k) : e ∈ m := by
  induction m with
  | nil => exact h
  | cons x r ih => grind [Sparse.erase]

theorem Sparse.mem_put (m : Sparse α) (k : Nat) (v : α) (e : Nat × α) (h : e ∈ Sparse.put m k v) :
    e = (k, v) ∨ e ∈ m := by
  induction m with
  | nil => simpa [Sparse.put] using h
  | cons x r ih => grind [Sparse.put]

/-- A set keeps the keys rising. -/
theorem Sparse.rising_set [DecidableEq α] (d : α) (m : Sparse α) (k : Nat) (v : α)
    (h : Sparse.rising m 0 = true) : Sparse.rising (Sparse.set d m k v) 0 = true := by
  unfold Sparse.set
  split
  · exact Sparse.rising_erase m k 0 h
  · exact Sparse.rising_put m k v 0 (Nat.zero_le k) h

/-- A set of the key's own default keeps the canonical form. -/
theorem Sparse.canonical_set [DecidableEq α] (d : Nat → α) (m : Sparse α) (k : Nat) (v : α)
    (h : Sparse.canonical d m = true) : Sparse.canonical d (Sparse.set (d k) m k v) = true := by
  simp only [Sparse.canonical, Bool.and_eq_true, List.all_eq_true, decide_eq_true_eq] at *
  refine ⟨Sparse.rising_set _ _ _ _ h.1, ?_⟩
  unfold Sparse.set
  split
  · exact fun e he => h.2 e (Sparse.mem_erase m k e he)
  · intro e he
    rcases Sparse.mem_put m k v e he with rfl | hm
    · assumption
    · exact h.2 e hm

/-! ## Bytes -/

@[simp] theorem Memory.read_write_self (m : Memory) (a : Nat) (b : Byte) :
    Memory.read (Memory.write m a b) a = b := by simp [Memory.read, Memory.write]

/-- A byte written reads back, and every other byte reads as before. -/
theorem Memory.read_write (m : Memory) (a : Nat) (b : Byte) (x : Nat) :
    Memory.read (Memory.write m a b) x = if x = a then b else Memory.read m x :=
  Sparse.get_set 0 m a b x

theorem Memory.wf_write (m : Memory) (a : Nat) (b : Byte) (h : Memory.wf m = true) :
    Memory.wf (Memory.write m a b) = true :=
  Sparse.canonical_set (fun _ => 0#8) m a b h

theorem Memory.wf_writeBytes (bs : List Byte) : ∀ (m : Memory) (a : Nat), Memory.wf m = true →
    Memory.wf (Memory.writeBytes m a bs) = true := by
  induction bs with
  | nil => exact fun _ _ h => h
  | cons b r ih => exact fun m a h => ih _ _ (Memory.wf_write m a b h)

/-- Bytes written one after another read back at their places, and the rest of memory reads as before. -/
theorem Memory.read_writeBytes (bs : List Byte) : ∀ (m : Memory) (a x : Nat),
    Memory.read (Memory.writeBytes m a bs) x =
      if h : a ≤ x ∧ x < a + bs.length then bs[x - a]'(by omega) else Memory.read m x := by
  induction bs with
  | nil => intro m a x; simp [Memory.writeBytes] <;> omega
  | cons b r ih =>
    intro m a x
    rw [Memory.writeBytes, ih, Memory.read_write]
    by_cases h1 : x = a
    · subst h1; simp <;> omega
    · by_cases h2 : a + 1 ≤ x ∧ x < a + 1 + r.length
      · have h3 : a ≤ x ∧ x < a + (b :: r).length := by simp <;> omega
        rw [dif_pos h2, dif_pos h3, List.getElem_cons]
        have : x - a ≠ 0 := by omega
        simp [this]; congr 1
      · have h3 : ¬(a ≤ x ∧ x < a + (b :: r).length) := by simp <;> omega
        rw [dif_neg h2, dif_neg h3, if_neg h1]

@[simp] theorem Memory.readBytes_length (m : Memory) (a n : Nat) : (Memory.readBytes m a n).length = n := by
  induction n generalizing a with
  | zero => rfl
  | succ n ih => simp [Memory.readBytes, ih]

@[simp] theorem leBytes_length (n v : Nat) : (leBytes n v).length = n := by
  induction n generalizing v with
  | zero => rfl
  | succ n ih => simp [leBytes, ih]

/-- Little-endian bytes of a value that fits spell it (R3). -/
theorem leNat_leBytes (n v : Nat) : leNat (leBytes n v) = v % 256 ^ n := by
  induction n generalizing v with
  | zero => simp [leBytes, leNat, Nat.mod_one]
  | succ n ih =>
    have h : (BitVec.ofNat 8 v).toNat = v % 256 := BitVec.toNat_ofNat v 8
    rw [leBytes, leNat, ih, h, Nat.pow_succ', Nat.mod_mul]

end Sys2Proof.Machine
end

