-- ==== Sys2Proof/Laws/State.lean ====
section
/-! SUPPORT. The laws of the state's accessors: each update by name leaves every other field as it was, and a
part that was set reads back while the others read as before. -/

namespace Sys2Proof.Machine

/-! ## What each update leaves alone -/

@[simp] theorem State.same_pending (s : State) :
    (∀ t h, (s.setContext t h).pending = s.pending) ∧ (∀ c x, (s.setCore c x).pending = s.pending)
    ∧ (∀ r i j v, (s.setReg r i j v).pending = s.pending) ∧ (∀ p y, (s.setPart p y).pending = s.pending)
    ∧ (∀ d z, (s.setDie d z).pending = s.pending) ∧ (∀ r i j n, (s.setRegN r i j n).pending = s.pending)
    ∧ (∀ k a, (s.setRcl k a).pending = s.pending) ∧ (∀ o, (s.sendSync o).pending = s.pending)
    ∧ (∀ m b, (s.setFab m b).pending = s.pending) ∧ (∀ t st w, (s.setStream t st w).pending = s.pending)
    ∧ (∀ e f, (s.setSource e f).pending = s.pending) ∧ s.bumpFree.pending = s.pending
    ∧ (∀ g v, (s.setSync g v).pending = s.pending) := by
  and_intros <;> intros <;> rfl

@[simp] theorem State.same_power (s : State) :
    (∀ t h, (s.setContext t h).power = s.power) ∧ (∀ c x, (s.setCore c x).power = s.power)
    ∧ (∀ r i j v, (s.setReg r i j v).power = s.power) ∧ (∀ p y, (s.setPart p y).power = s.power)
    ∧ (∀ d z, (s.setDie d z).power = s.power) ∧ (∀ r i j n, (s.setRegN r i j n).power = s.power)
    ∧ (∀ k a, (s.setRcl k a).power = s.power) ∧ (∀ o, (s.sendSync o).power = s.power)
    ∧ (∀ m b, (s.setFab m b).power = s.power) ∧ (∀ t st w, (s.setStream t st w).power = s.power)
    ∧ (∀ e f, (s.setSource e f).power = s.power) ∧ s.bumpFree.power = s.power
    ∧ (∀ g v, (s.setSync g v).power = s.power) := by
  and_intros <;> intros <;> rfl

@[simp] theorem State.same_boot (s : State) :
    (∀ t h, (s.setContext t h).boot = s.boot) ∧ (∀ c x, (s.setCore c x).boot = s.boot)
    ∧ (∀ r i j v, (s.setReg r i j v).boot = s.boot) ∧ (∀ p y, (s.setPart p y).boot = s.boot)
    ∧ (∀ d z, (s.setDie d z).boot = s.boot) ∧ (∀ r i j n, (s.setRegN r i j n).boot = s.boot)
    ∧ (∀ k a, (s.setRcl k a).boot = s.boot) ∧ (∀ o, (s.sendSync o).boot = s.boot)
    ∧ (∀ m b, (s.setFab m b).boot = s.boot) ∧ (∀ t st w, (s.setStream t st w).boot = s.boot)
    ∧ (∀ e f, (s.setSource e f).boot = s.boot) ∧ s.bumpFree.boot = s.boot ∧ (∀ g v, (s.setSync g v).boot = s.boot) := by
  and_intros <;> intros <;> rfl

@[simp] theorem State.same_regs (s : State) :
    (∀ t h, (s.setContext t h).regs = s.regs) ∧ (∀ c x, (s.setCore c x).regs = s.regs)
    ∧ (∀ o, (s.sendSync o).regs = s.regs) ∧ (∀ p y, (s.setPart p y).regs = s.regs)
    ∧ (∀ d z, (s.setDie d z).regs = s.regs) ∧ (∀ t st w, (s.setStream t st w).regs = s.regs)
    ∧ (∀ k a, (s.setRcl k a).regs = s.regs) ∧ (∀ m b, (s.setFab m b).regs = s.regs) ∧ s.bumpFree.regs = s.regs
    ∧ (∀ e f, (s.setSource e f).regs = s.regs) ∧ (∀ g v, (s.setSync g v).regs = s.regs) := by
  and_intros <;> intros <;> rfl

@[simp] theorem State.same_parts (s : State) :
    (∀ t h, (s.setContext t h).parts = s.parts) ∧ (∀ c x, (s.setCore c x).parts = s.parts)
    ∧ (∀ r i j v, (s.setReg r i j v).parts = s.parts) ∧ (∀ d z, (s.setDie d z).parts = s.parts)
    ∧ (∀ r i j n, (s.setRegN r i j n).parts = s.parts) ∧ (∀ k a, (s.setRcl k a).parts = s.parts)
    ∧ (∀ o, (s.sendSync o).parts = s.parts) ∧ (∀ m b, (s.setFab m b).parts = s.parts)
    ∧ (∀ t st w, (s.setStream t st w).parts = s.parts) ∧ (∀ e f, (s.setSource e f).parts = s.parts)
    ∧ s.bumpFree.parts = s.parts ∧ (∀ g v, (s.setSync g v).parts = s.parts) := by
  and_intros <;> intros <;> rfl

@[simp] theorem State.same_dies (s : State) :
    (∀ t h, (s.setContext t h).dies = s.dies) ∧ (∀ c x, (s.setCore c x).dies = s.dies)
    ∧ (∀ r i j v, (s.setReg r i j v).dies = s.dies) ∧ (∀ p y, (s.setPart p y).dies = s.dies)
    ∧ (∀ r i j n, (s.setRegN r i j n).dies = s.dies) ∧ (∀ k a, (s.setRcl k a).dies = s.dies)
    ∧ (∀ o, (s.sendSync o).dies = s.dies) ∧ (∀ m b, (s.setFab m b).dies = s.dies)
    ∧ (∀ t st w, (s.setStream t st w).dies = s.dies) ∧ (∀ e f, (s.setSource e f).dies = s.dies)
    ∧ s.bumpFree.dies = s.dies ∧ (∀ g v, (s.setSync g v).dies = s.dies) := by
  and_intros <;> intros <;> rfl

@[simp] theorem State.same_cores (s : State) :
    (∀ p y, (s.setPart p y).cores = s.cores) ∧ (∀ d z, (s.setDie d z).cores = s.cores)
    ∧ (∀ r i j v, (s.setReg r i j v).cores = s.cores) ∧ (∀ k a, (s.setRcl k a).cores = s.cores)
    ∧ (∀ r i j n, (s.setRegN r i j n).cores = s.cores) ∧ (∀ m b, (s.setFab m b).cores = s.cores)
    ∧ (∀ o, (s.sendSync o).cores = s.cores) ∧ (∀ e f, (s.setSource e f).cores = s.cores) ∧ s.bumpFree.cores = s.cores
    ∧ (∀ g v, (s.setSync g v).cores = s.cores) := by
  and_intros <;> intros <;> rfl

@[simp] theorem State.same_sync (s : State) :
    (∀ t h, (s.setContext t h).sync = s.sync) ∧ (∀ c x, (s.setCore c x).sync = s.sync)
    ∧ (∀ r i j v, (s.setReg r i j v).sync = s.sync) ∧ (∀ p y, (s.setPart p y).sync = s.sync)
    ∧ (∀ r i j n, (s.setRegN r i j n).sync = s.sync) ∧ (∀ d z, (s.setDie d z).sync = s.sync)
    ∧ (∀ o, (s.sendSync o).sync = s.sync) ∧ (∀ k a, (s.setRcl k a).sync = s.sync)
    ∧ (∀ t st w, (s.setStream t st w).sync = s.sync) ∧ (∀ m b, (s.setFab m b).sync = s.sync)
    ∧ s.bumpFree.sync = s.sync ∧ (∀ e f, (s.setSource e f).sync = s.sync) := by
  and_intros <;> intros <;> rfl

@[simp] theorem State.same_syncQueue (s : State) :
    (∀ t h, (s.setContext t h).syncQueue = s.syncQueue) ∧ (∀ c x, (s.setCore c x).syncQueue = s.syncQueue)
    ∧ (∀ r i j v, (s.setReg r i j v).syncQueue = s.syncQueue) ∧ (∀ p y, (s.setPart p y).syncQueue = s.syncQueue)
    ∧ (∀ d z, (s.setDie d z).syncQueue = s.syncQueue) ∧ (∀ r i j n, (s.setRegN r i j n).syncQueue = s.syncQueue)
    ∧ (∀ k a, (s.setRcl k a).syncQueue = s.syncQueue) ∧ (∀ m b, (s.setFab m b).syncQueue = s.syncQueue)
    ∧ (∀ t st w, (s.setStream t st w).syncQueue = s.syncQueue) ∧ (∀ e f, (s.setSource e f).syncQueue = s.syncQueue)
    ∧ s.bumpFree.syncQueue = s.syncQueue ∧ (∀ g v, (s.setSync g v).syncQueue = s.syncQueue) := by
  and_intros <;> intros <;> rfl

@[simp] theorem State.same_waits (s : State) :
    (∀ t h, (s.setContext t h).waits = s.waits) ∧ (∀ c x, (s.setCore c x).waits = s.waits)
    ∧ (∀ r i j v, (s.setReg r i j v).waits = s.waits) ∧ (∀ p y, (s.setPart p y).waits = s.waits)
    ∧ (∀ d z, (s.setDie d z).waits = s.waits) ∧ (∀ r i j n, (s.setRegN r i j n).waits = s.waits)
    ∧ (∀ k a, (s.setRcl k a).waits = s.waits) ∧ (∀ o, (s.sendSync o).waits = s.waits)
    ∧ (∀ m b, (s.setFab m b).waits = s.waits) ∧ (∀ t st w, (s.setStream t st w).waits = s.waits)
    ∧ (∀ e f, (s.setSource e f).waits = s.waits) ∧ s.bumpFree.waits = s.waits
    ∧ (∀ g v, (s.setSync g v).waits = s.waits) := by
  and_intros <;> intros <;> rfl

@[simp] theorem State.same_hbm (s : State) :
    (∀ t h, (s.setContext t h).hbm = s.hbm) ∧ (∀ c x, (s.setCore c x).hbm = s.hbm)
    ∧ (∀ r i j v, (s.setReg r i j v).hbm = s.hbm) ∧ (∀ p y, (s.setPart p y).hbm = s.hbm)
    ∧ (∀ d z, (s.setDie d z).hbm = s.hbm) ∧ (∀ r i j n, (s.setRegN r i j n).hbm = s.hbm)
    ∧ (∀ k a, (s.setRcl k a).hbm = s.hbm) ∧ (∀ o, (s.sendSync o).hbm = s.hbm) ∧ (∀ m b, (s.setFab m b).hbm = s.hbm)
    ∧ (∀ t st w, (s.setStream t st w).hbm = s.hbm) ∧ (∀ e f, (s.setSource e f).hbm = s.hbm) ∧ s.bumpFree.hbm = s.hbm
    ∧ (∀ g v, (s.setSync g v).hbm = s.hbm) := by
  and_intros <;> intros <;> rfl

@[simp] theorem State.same_hbmPoison (s : State) :
    (∀ t h, (s.setContext t h).hbmPoison = s.hbmPoison) ∧ (∀ c x, (s.setCore c x).hbmPoison = s.hbmPoison)
    ∧ (∀ r i j v, (s.setReg r i j v).hbmPoison = s.hbmPoison) ∧ (∀ p y, (s.setPart p y).hbmPoison = s.hbmPoison)
    ∧ (∀ d z, (s.setDie d z).hbmPoison = s.hbmPoison) ∧ (∀ r i j n, (s.setRegN r i j n).hbmPoison = s.hbmPoison)
    ∧ (∀ k a, (s.setRcl k a).hbmPoison = s.hbmPoison) ∧ (∀ o, (s.sendSync o).hbmPoison = s.hbmPoison)
    ∧ (∀ m b, (s.setFab m b).hbmPoison = s.hbmPoison) ∧ (∀ t st w, (s.setStream t st w).hbmPoison = s.hbmPoison)
    ∧ (∀ e f, (s.setSource e f).hbmPoison = s.hbmPoison) ∧ s.bumpFree.hbmPoison = s.hbmPoison
    ∧ (∀ g v, (s.setSync g v).hbmPoison = s.hbmPoison) := by
  and_intros <;> intros <;> rfl

@[simp] theorem State.same_reserve (s : State) :
    (∀ t h, (s.setContext t h).reserve = s.reserve) ∧ (∀ c x, (s.setCore c x).reserve = s.reserve)
    ∧ (∀ r i j v, (s.setReg r i j v).reserve = s.reserve) ∧ (∀ p y, (s.setPart p y).reserve = s.reserve)
    ∧ (∀ d z, (s.setDie d z).reserve = s.reserve) ∧ (∀ r i j n, (s.setRegN r i j n).reserve = s.reserve)
    ∧ (∀ k a, (s.setRcl k a).reserve = s.reserve) ∧ (∀ o, (s.sendSync o).reserve = s.reserve)
    ∧ (∀ m b, (s.setFab m b).reserve = s.reserve) ∧ (∀ t st w, (s.setStream t st w).reserve = s.reserve)
    ∧ (∀ e f, (s.setSource e f).reserve = s.reserve) ∧ s.bumpFree.reserve = s.reserve
    ∧ (∀ g v, (s.setSync g v).reserve = s.reserve) := by
  and_intros <;> intros <;> rfl

@[simp] theorem State.same_reservePoison (s : State) :
    (∀ t h, (s.setContext t h).reservePoison = s.reservePoison)
    ∧ (∀ c x, (s.setCore c x).reservePoison = s.reservePoison)
    ∧ (∀ r i j v, (s.setReg r i j v).reservePoison = s.reservePoison)
    ∧ (∀ p y, (s.setPart p y).reservePoison = s.reservePoison)
    ∧ (∀ d z, (s.setDie d z).reservePoison = s.reservePoison)
    ∧ (∀ r i j n, (s.setRegN r i j n).reservePoison = s.reservePoison)
    ∧ (∀ k a, (s.setRcl k a).reservePoison = s.reservePoison) ∧ (∀ o, (s.sendSync o).reservePoison = s.reservePoison)
    ∧ (∀ m b, (s.setFab m b).reservePoison = s.reservePoison)
    ∧ (∀ t st w, (s.setStream t st w).reservePoison = s.reservePoison)
    ∧ (∀ e f, (s.setSource e f).reservePoison = s.reservePoison) ∧ s.bumpFree.reservePoison = s.reservePoison
    ∧ (∀ g v, (s.setSync g v).reservePoison = s.reservePoison) := by
  and_intros <;> intros <;> rfl

@[simp] theorem State.same_usedHbm (s : State) :
    (∀ t h, (s.setContext t h).usedHbm = s.usedHbm) ∧ (∀ c x, (s.setCore c x).usedHbm = s.usedHbm)
    ∧ (∀ r i j v, (s.setReg r i j v).usedHbm = s.usedHbm) ∧ (∀ p y, (s.setPart p y).usedHbm = s.usedHbm)
    ∧ (∀ d z, (s.setDie d z).usedHbm = s.usedHbm) ∧ (∀ r i j n, (s.setRegN r i j n).usedHbm = s.usedHbm)
    ∧ (∀ k a, (s.setRcl k a).usedHbm = s.usedHbm) ∧ (∀ o, (s.sendSync o).usedHbm = s.usedHbm)
    ∧ (∀ m b, (s.setFab m b).usedHbm = s.usedHbm) ∧ (∀ t st w, (s.setStream t st w).usedHbm = s.usedHbm)
    ∧ (∀ e f, (s.setSource e f).usedHbm = s.usedHbm) ∧ s.bumpFree.usedHbm = s.usedHbm
    ∧ (∀ g v, (s.setSync g v).usedHbm = s.usedHbm) := by
  and_intros <;> intros <;> rfl

@[simp] theorem State.same_usedReserve (s : State) :
    (∀ t h, (s.setContext t h).usedReserve = s.usedReserve) ∧ (∀ c x, (s.setCore c x).usedReserve = s.usedReserve)
    ∧ (∀ r i j v, (s.setReg r i j v).usedReserve = s.usedReserve)
    ∧ (∀ p y, (s.setPart p y).usedReserve = s.usedReserve) ∧ (∀ d z, (s.setDie d z).usedReserve = s.usedReserve)
    ∧ (∀ r i j n, (s.setRegN r i j n).usedReserve = s.usedReserve)
    ∧ (∀ k a, (s.setRcl k a).usedReserve = s.usedReserve) ∧ (∀ o, (s.sendSync o).usedReserve = s.usedReserve)
    ∧ (∀ m b, (s.setFab m b).usedReserve = s.usedReserve)
    ∧ (∀ t st w, (s.setStream t st w).usedReserve = s.usedReserve)
    ∧ (∀ e f, (s.setSource e f).usedReserve = s.usedReserve) ∧ s.bumpFree.usedReserve = s.usedReserve
    ∧ (∀ g v, (s.setSync g v).usedReserve = s.usedReserve) := by
  and_intros <;> intros <;> rfl

@[simp] theorem State.same_usedHost (s : State) :
    (∀ t h, (s.setContext t h).usedHost = s.usedHost) ∧ (∀ c x, (s.setCore c x).usedHost = s.usedHost)
    ∧ (∀ r i j v, (s.setReg r i j v).usedHost = s.usedHost) ∧ (∀ p y, (s.setPart p y).usedHost = s.usedHost)
    ∧ (∀ d z, (s.setDie d z).usedHost = s.usedHost) ∧ (∀ r i j n, (s.setRegN r i j n).usedHost = s.usedHost)
    ∧ (∀ k a, (s.setRcl k a).usedHost = s.usedHost) ∧ (∀ o, (s.sendSync o).usedHost = s.usedHost)
    ∧ (∀ m b, (s.setFab m b).usedHost = s.usedHost) ∧ (∀ t st w, (s.setStream t st w).usedHost = s.usedHost)
    ∧ (∀ e f, (s.setSource e f).usedHost = s.usedHost) ∧ s.bumpFree.usedHost = s.usedHost
    ∧ (∀ g v, (s.setSync g v).usedHost = s.usedHost) := by
  and_intros <;> intros <;> rfl

@[simp] theorem State.same_filters (s : State) :
    (∀ t h, (s.setContext t h).filters = s.filters) ∧ (∀ c x, (s.setCore c x).filters = s.filters)
    ∧ (∀ r i j v, (s.setReg r i j v).filters = s.filters) ∧ (∀ p y, (s.setPart p y).filters = s.filters)
    ∧ (∀ d z, (s.setDie d z).filters = s.filters) ∧ (∀ r i j n, (s.setRegN r i j n).filters = s.filters)
    ∧ (∀ k a, (s.setRcl k a).filters = s.filters) ∧ (∀ o, (s.sendSync o).filters = s.filters)
    ∧ (∀ m b, (s.setFab m b).filters = s.filters) ∧ (∀ t st w, (s.setStream t st w).filters = s.filters)
    ∧ (∀ e f, (s.setSource e f).filters = s.filters) ∧ s.bumpFree.filters = s.filters
    ∧ (∀ g v, (s.setSync g v).filters = s.filters) := by
  and_intros <;> intros <;> rfl

@[simp] theorem State.same_filterClock (s : State) :
    (∀ t h, (s.setContext t h).filterClock = s.filterClock) ∧ (∀ c x, (s.setCore c x).filterClock = s.filterClock)
    ∧ (∀ r i j v, (s.setReg r i j v).filterClock = s.filterClock)
    ∧ (∀ p y, (s.setPart p y).filterClock = s.filterClock) ∧ (∀ d z, (s.setDie d z).filterClock = s.filterClock)
    ∧ (∀ r i j n, (s.setRegN r i j n).filterClock = s.filterClock)
    ∧ (∀ k a, (s.setRcl k a).filterClock = s.filterClock) ∧ (∀ o, (s.sendSync o).filterClock = s.filterClock)
    ∧ (∀ m b, (s.setFab m b).filterClock = s.filterClock)
    ∧ (∀ t st w, (s.setStream t st w).filterClock = s.filterClock)
    ∧ (∀ e f, (s.setSource e f).filterClock = s.filterClock) ∧ s.bumpFree.filterClock = s.filterClock
    ∧ (∀ g v, (s.setSync g v).filterClock = s.filterClock) := by
  and_intros <;> intros <;> rfl

@[simp] theorem State.same_snoops (s : State) :
    (∀ t h, (s.setContext t h).snoops = s.snoops) ∧ (∀ c x, (s.setCore c x).snoops = s.snoops)
    ∧ (∀ r i j v, (s.setReg r i j v).snoops = s.snoops) ∧ (∀ p y, (s.setPart p y).snoops = s.snoops)
    ∧ (∀ d z, (s.setDie d z).snoops = s.snoops) ∧ (∀ r i j n, (s.setRegN r i j n).snoops = s.snoops)
    ∧ (∀ k a, (s.setRcl k a).snoops = s.snoops) ∧ (∀ o, (s.sendSync o).snoops = s.snoops)
    ∧ (∀ m b, (s.setFab m b).snoops = s.snoops) ∧ (∀ t st w, (s.setStream t st w).snoops = s.snoops)
    ∧ (∀ e f, (s.setSource e f).snoops = s.snoops) ∧ s.bumpFree.snoops = s.snoops
    ∧ (∀ g v, (s.setSync g v).snoops = s.snoops) := by
  and_intros <;> intros <;> rfl

@[simp] theorem State.same_heldWrites (s : State) :
    (∀ t h, (s.setContext t h).heldWrites = s.heldWrites) ∧ (∀ c x, (s.setCore c x).heldWrites = s.heldWrites)
    ∧ (∀ r i j v, (s.setReg r i j v).heldWrites = s.heldWrites) ∧ (∀ p y, (s.setPart p y).heldWrites = s.heldWrites)
    ∧ (∀ d z, (s.setDie d z).heldWrites = s.heldWrites) ∧ (∀ r i j n, (s.setRegN r i j n).heldWrites = s.heldWrites)
    ∧ (∀ k a, (s.setRcl k a).heldWrites = s.heldWrites) ∧ (∀ o, (s.sendSync o).heldWrites = s.heldWrites)
    ∧ (∀ m b, (s.setFab m b).heldWrites = s.heldWrites) ∧ (∀ t st w, (s.setStream t st w).heldWrites = s.heldWrites)
    ∧ (∀ e f, (s.setSource e f).heldWrites = s.heldWrites) ∧ s.bumpFree.heldWrites = s.heldWrites
    ∧ (∀ g v, (s.setSync g v).heldWrites = s.heldWrites) := by
  and_intros <;> intros <;> rfl

@[simp] theorem State.same_rcl (s : State) :
    (∀ t h, (s.setContext t h).rcl = s.rcl) ∧ (∀ c x, (s.setCore c x).rcl = s.rcl)
    ∧ (∀ r i j v, (s.setReg r i j v).rcl = s.rcl) ∧ (∀ p y, (s.setPart p y).rcl = s.rcl)
    ∧ (∀ r i j n, (s.setRegN r i j n).rcl = s.rcl) ∧ (∀ d z, (s.setDie d z).rcl = s.rcl)
    ∧ (∀ o, (s.sendSync o).rcl = s.rcl) ∧ (∀ m b, (s.setFab m b).rcl = s.rcl)
    ∧ (∀ t st w, (s.setStream t st w).rcl = s.rcl) ∧ (∀ e f, (s.setSource e f).rcl = s.rcl) ∧ s.bumpFree.rcl = s.rcl
    ∧ (∀ g v, (s.setSync g v).rcl = s.rcl) := by
  and_intros <;> intros <;> rfl

@[simp] theorem State.same_fabric (s : State) :
    (∀ t h, (s.setContext t h).fabric = s.fabric) ∧ (∀ c x, (s.setCore c x).fabric = s.fabric)
    ∧ (∀ r i j v, (s.setReg r i j v).fabric = s.fabric) ∧ (∀ p y, (s.setPart p y).fabric = s.fabric)
    ∧ (∀ r i j n, (s.setRegN r i j n).fabric = s.fabric) ∧ (∀ d z, (s.setDie d z).fabric = s.fabric)
    ∧ (∀ o, (s.sendSync o).fabric = s.fabric) ∧ (∀ k a, (s.setRcl k a).fabric = s.fabric)
    ∧ (∀ t st w, (s.setStream t st w).fabric = s.fabric) ∧ (∀ e f, (s.setSource e f).fabric = s.fabric)
    ∧ s.bumpFree.fabric = s.fabric ∧ (∀ g v, (s.setSync g v).fabric = s.fabric) := by
  and_intros <;> intros <;> rfl

@[simp] theorem State.same_windows (s : State) :
    (∀ t h, (s.setContext t h).windows = s.windows) ∧ (∀ c x, (s.setCore c x).windows = s.windows)
    ∧ (∀ r i j v, (s.setReg r i j v).windows = s.windows) ∧ (∀ p y, (s.setPart p y).windows = s.windows)
    ∧ (∀ d z, (s.setDie d z).windows = s.windows) ∧ (∀ r i j n, (s.setRegN r i j n).windows = s.windows)
    ∧ (∀ k a, (s.setRcl k a).windows = s.windows) ∧ (∀ o, (s.sendSync o).windows = s.windows)
    ∧ (∀ m b, (s.setFab m b).windows = s.windows) ∧ (∀ t st w, (s.setStream t st w).windows = s.windows)
    ∧ (∀ e f, (s.setSource e f).windows = s.windows) ∧ s.bumpFree.windows = s.windows
    ∧ (∀ g v, (s.setSync g v).windows = s.windows) := by
  and_intros <;> intros <;> rfl

@[simp] theorem State.same_events (s : State) :
    (∀ t h, (s.setContext t h).events = s.events) ∧ (∀ c x, (s.setCore c x).events = s.events)
    ∧ (∀ r i j v, (s.setReg r i j v).events = s.events) ∧ (∀ p y, (s.setPart p y).events = s.events)
    ∧ (∀ r i j n, (s.setRegN r i j n).events = s.events) ∧ (∀ d z, (s.setDie d z).events = s.events)
    ∧ (∀ o, (s.sendSync o).events = s.events) ∧ (∀ k a, (s.setRcl k a).events = s.events)
    ∧ (∀ t st w, (s.setStream t st w).events = s.events) ∧ (∀ m b, (s.setFab m b).events = s.events)
    ∧ s.bumpFree.events = s.events ∧ (∀ g v, (s.setSync g v).events = s.events) := by
  and_intros <;> intros <;> rfl

@[simp] theorem State.same_dieTime (s : State) :
    (∀ t h, (s.setContext t h).dieTime = s.dieTime) ∧ (∀ c x, (s.setCore c x).dieTime = s.dieTime)
    ∧ (∀ r i j v, (s.setReg r i j v).dieTime = s.dieTime) ∧ (∀ p y, (s.setPart p y).dieTime = s.dieTime)
    ∧ (∀ d z, (s.setDie d z).dieTime = s.dieTime) ∧ (∀ r i j n, (s.setRegN r i j n).dieTime = s.dieTime)
    ∧ (∀ k a, (s.setRcl k a).dieTime = s.dieTime) ∧ (∀ o, (s.sendSync o).dieTime = s.dieTime)
    ∧ (∀ m b, (s.setFab m b).dieTime = s.dieTime) ∧ (∀ t st w, (s.setStream t st w).dieTime = s.dieTime)
    ∧ (∀ e f, (s.setSource e f).dieTime = s.dieTime) ∧ s.bumpFree.dieTime = s.dieTime
    ∧ (∀ g v, (s.setSync g v).dieTime = s.dieTime) := by
  and_intros <;> intros <;> rfl

@[simp] theorem State.same_mgt (s : State) :
    (∀ t h, (s.setContext t h).mgt = s.mgt) ∧ (∀ c x, (s.setCore c x).mgt = s.mgt)
    ∧ (∀ r i j v, (s.setReg r i j v).mgt = s.mgt) ∧ (∀ p y, (s.setPart p y).mgt = s.mgt)
    ∧ (∀ d z, (s.setDie d z).mgt = s.mgt) ∧ (∀ r i j n, (s.setRegN r i j n).mgt = s.mgt)
    ∧ (∀ k a, (s.setRcl k a).mgt = s.mgt) ∧ (∀ o, (s.sendSync o).mgt = s.mgt) ∧ (∀ m b, (s.setFab m b).mgt = s.mgt)
    ∧ (∀ t st w, (s.setStream t st w).mgt = s.mgt) ∧ (∀ e f, (s.setSource e f).mgt = s.mgt) ∧ s.bumpFree.mgt = s.mgt
    ∧ (∀ g v, (s.setSync g v).mgt = s.mgt) := by
  and_intros <;> intros <;> rfl

@[simp] theorem State.same_jtag (s : State) :
    (∀ t h, (s.setContext t h).jtag = s.jtag) ∧ (∀ c x, (s.setCore c x).jtag = s.jtag)
    ∧ (∀ r i j v, (s.setReg r i j v).jtag = s.jtag) ∧ (∀ p y, (s.setPart p y).jtag = s.jtag)
    ∧ (∀ d z, (s.setDie d z).jtag = s.jtag) ∧ (∀ r i j n, (s.setRegN r i j n).jtag = s.jtag)
    ∧ (∀ k a, (s.setRcl k a).jtag = s.jtag) ∧ (∀ o, (s.sendSync o).jtag = s.jtag)
    ∧ (∀ m b, (s.setFab m b).jtag = s.jtag) ∧ (∀ t st w, (s.setStream t st w).jtag = s.jtag)
    ∧ (∀ e f, (s.setSource e f).jtag = s.jtag) ∧ s.bumpFree.jtag = s.jtag ∧ (∀ g v, (s.setSync g v).jtag = s.jtag) := by
  and_intros <;> intros <;> rfl

@[simp] theorem State.same_windowReply (s : State) :
    (∀ t h, (s.setContext t h).windowReply = s.windowReply) ∧ (∀ c x, (s.setCore c x).windowReply = s.windowReply)
    ∧ (∀ r i j v, (s.setReg r i j v).windowReply = s.windowReply)
    ∧ (∀ p y, (s.setPart p y).windowReply = s.windowReply) ∧ (∀ d z, (s.setDie d z).windowReply = s.windowReply)
    ∧ (∀ r i j n, (s.setRegN r i j n).windowReply = s.windowReply)
    ∧ (∀ k a, (s.setRcl k a).windowReply = s.windowReply) ∧ (∀ o, (s.sendSync o).windowReply = s.windowReply)
    ∧ (∀ m b, (s.setFab m b).windowReply = s.windowReply)
    ∧ (∀ t st w, (s.setStream t st w).windowReply = s.windowReply)
    ∧ (∀ e f, (s.setSource e f).windowReply = s.windowReply) ∧ s.bumpFree.windowReply = s.windowReply
    ∧ (∀ g v, (s.setSync g v).windowReply = s.windowReply) := by
  and_intros <;> intros <;> rfl

@[simp] theorem State.same_earlyCredits (s : State) :
    (∀ t h, (s.setContext t h).earlyCredits = s.earlyCredits) ∧ (∀ c x, (s.setCore c x).earlyCredits = s.earlyCredits)
    ∧ (∀ r i j v, (s.setReg r i j v).earlyCredits = s.earlyCredits)
    ∧ (∀ p y, (s.setPart p y).earlyCredits = s.earlyCredits) ∧ (∀ d z, (s.setDie d z).earlyCredits = s.earlyCredits)
    ∧ (∀ r i j n, (s.setRegN r i j n).earlyCredits = s.earlyCredits)
    ∧ (∀ k a, (s.setRcl k a).earlyCredits = s.earlyCredits) ∧ (∀ o, (s.sendSync o).earlyCredits = s.earlyCredits)
    ∧ (∀ m b, (s.setFab m b).earlyCredits = s.earlyCredits)
    ∧ (∀ t st w, (s.setStream t st w).earlyCredits = s.earlyCredits)
    ∧ (∀ e f, (s.setSource e f).earlyCredits = s.earlyCredits) ∧ s.bumpFree.earlyCredits = s.earlyCredits
    ∧ (∀ g v, (s.setSync g v).earlyCredits = s.earlyCredits) := by
  and_intros <;> intros <;> rfl

@[simp] theorem State.same_poolTurn (s : State) :
    (∀ t h, (s.setContext t h).poolTurn = s.poolTurn) ∧ (∀ c x, (s.setCore c x).poolTurn = s.poolTurn)
    ∧ (∀ r i j v, (s.setReg r i j v).poolTurn = s.poolTurn) ∧ (∀ p y, (s.setPart p y).poolTurn = s.poolTurn)
    ∧ (∀ d z, (s.setDie d z).poolTurn = s.poolTurn) ∧ (∀ r i j n, (s.setRegN r i j n).poolTurn = s.poolTurn)
    ∧ (∀ k a, (s.setRcl k a).poolTurn = s.poolTurn) ∧ (∀ o, (s.sendSync o).poolTurn = s.poolTurn)
    ∧ (∀ m b, (s.setFab m b).poolTurn = s.poolTurn) ∧ (∀ t st w, (s.setStream t st w).poolTurn = s.poolTurn)
    ∧ (∀ e f, (s.setSource e f).poolTurn = s.poolTurn) ∧ s.bumpFree.poolTurn = s.poolTurn
    ∧ (∀ g v, (s.setSync g v).poolTurn = s.poolTurn) := by
  and_intros <;> intros <;> rfl

@[simp] theorem State.same_updTurn (s : State) :
    (∀ t h, (s.setContext t h).updTurn = s.updTurn) ∧ (∀ c x, (s.setCore c x).updTurn = s.updTurn)
    ∧ (∀ r i j v, (s.setReg r i j v).updTurn = s.updTurn) ∧ (∀ p y, (s.setPart p y).updTurn = s.updTurn)
    ∧ (∀ d z, (s.setDie d z).updTurn = s.updTurn) ∧ (∀ r i j n, (s.setRegN r i j n).updTurn = s.updTurn)
    ∧ (∀ k a, (s.setRcl k a).updTurn = s.updTurn) ∧ (∀ o, (s.sendSync o).updTurn = s.updTurn)
    ∧ (∀ m b, (s.setFab m b).updTurn = s.updTurn) ∧ (∀ t st w, (s.setStream t st w).updTurn = s.updTurn)
    ∧ (∀ e f, (s.setSource e f).updTurn = s.updTurn) ∧ s.bumpFree.updTurn = s.updTurn
    ∧ (∀ g v, (s.setSync g v).updTurn = s.updTurn) := by
  and_intros <;> intros <;> rfl

@[simp] theorem State.same_updLeft (s : State) :
    (∀ t h, (s.setContext t h).updLeft = s.updLeft) ∧ (∀ c x, (s.setCore c x).updLeft = s.updLeft)
    ∧ (∀ r i j v, (s.setReg r i j v).updLeft = s.updLeft) ∧ (∀ p y, (s.setPart p y).updLeft = s.updLeft)
    ∧ (∀ d z, (s.setDie d z).updLeft = s.updLeft) ∧ (∀ r i j n, (s.setRegN r i j n).updLeft = s.updLeft)
    ∧ (∀ k a, (s.setRcl k a).updLeft = s.updLeft) ∧ (∀ o, (s.sendSync o).updLeft = s.updLeft)
    ∧ (∀ m b, (s.setFab m b).updLeft = s.updLeft) ∧ (∀ t st w, (s.setStream t st w).updLeft = s.updLeft)
    ∧ (∀ e f, (s.setSource e f).updLeft = s.updLeft) ∧ s.bumpFree.updLeft = s.updLeft
    ∧ (∀ g v, (s.setSync g v).updLeft = s.updLeft) := by
  and_intros <;> intros <;> rfl

@[simp] theorem State.same_stamps (s : State) :
    (∀ t h, (s.setContext t h).stamps = s.stamps) ∧ (∀ c x, (s.setCore c x).stamps = s.stamps)
    ∧ (∀ r i j v, (s.setReg r i j v).stamps = s.stamps) ∧ (∀ p y, (s.setPart p y).stamps = s.stamps)
    ∧ (∀ d z, (s.setDie d z).stamps = s.stamps) ∧ (∀ r i j n, (s.setRegN r i j n).stamps = s.stamps)
    ∧ (∀ k a, (s.setRcl k a).stamps = s.stamps) ∧ (∀ o, (s.sendSync o).stamps = s.stamps)
    ∧ (∀ m b, (s.setFab m b).stamps = s.stamps) ∧ (∀ t st w, (s.setStream t st w).stamps = s.stamps)
    ∧ (∀ e f, (s.setSource e f).stamps = s.stamps) ∧ s.bumpFree.stamps = s.stamps
    ∧ (∀ g v, (s.setSync g v).stamps = s.stamps) := by
  and_intros <;> intros <;> rfl

@[simp] theorem State.same_uart (s : State) :
    (∀ t h, (s.setContext t h).uart = s.uart) ∧ (∀ c x, (s.setCore c x).uart = s.uart)
    ∧ (∀ r i j v, (s.setReg r i j v).uart = s.uart) ∧ (∀ p y, (s.setPart p y).uart = s.uart)
    ∧ (∀ d z, (s.setDie d z).uart = s.uart) ∧ (∀ r i j n, (s.setRegN r i j n).uart = s.uart)
    ∧ (∀ k a, (s.setRcl k a).uart = s.uart) ∧ (∀ o, (s.sendSync o).uart = s.uart)
    ∧ (∀ m b, (s.setFab m b).uart = s.uart) ∧ (∀ t st w, (s.setStream t st w).uart = s.uart)
    ∧ (∀ e f, (s.setSource e f).uart = s.uart) ∧ s.bumpFree.uart = s.uart ∧ (∀ g v, (s.setSync g v).uart = s.uart) := by
  and_intros <;> intros <;> rfl

@[simp] theorem State.same_freeCount (s : State) :
    (∀ t h, (s.setContext t h).freeCount = s.freeCount) ∧ (∀ c x, (s.setCore c x).freeCount = s.freeCount)
    ∧ (∀ r i j v, (s.setReg r i j v).freeCount = s.freeCount) ∧ (∀ p y, (s.setPart p y).freeCount = s.freeCount)
    ∧ (∀ d z, (s.setDie d z).freeCount = s.freeCount) ∧ (∀ r i j n, (s.setRegN r i j n).freeCount = s.freeCount)
    ∧ (∀ k a, (s.setRcl k a).freeCount = s.freeCount) ∧ (∀ m b, (s.setFab m b).freeCount = s.freeCount)
    ∧ (∀ o, (s.sendSync o).freeCount = s.freeCount) ∧ (∀ e f, (s.setSource e f).freeCount = s.freeCount)
    ∧ (∀ t st w, (s.setStream t st w).freeCount = s.freeCount) ∧ (∀ g v, (s.setSync g v).freeCount = s.freeCount) := by
  and_intros <;> intros <;> rfl

/-! ## What was set reads back -/

theorem State.core_setCore (s : State) (c c' : CoreId) (x : Core) :
    (s.setCore c x).core c' = if c' = c then x else s.core c' := by
  simp only [State.core, State.setCore, Sparse.get_set, ← BitVec.toNat_inj]

@[simp] theorem State.core_setCore_self (s : State) (c : CoreId) (x : Core) : (s.setCore c x).core c = x := by
  simp [State.core_setCore]

theorem Core.context_setContext (c : Core) (i i' : Nat) (x : Context) :
    (c.setContext i x).context i' = if i' = i then x else c.context i' := by
  simp only [Core.context, Core.setContext, Sparse.get_set]

/-- Setting a context of a core changes the contexts alone. -/
theorem Core.setContext_eq (c : Core) (i : Nat) (x : Context) :
    c.setContext i x = { c with contexts := (c.setContext i x).contexts } := rfl

@[simp] theorem Core.same_setContext (c : Core) (i : Nat) (x : Context) :
    (c.setContext i x).array = c.array ∧ ((c.setContext i x).scratch = c.scratch ∧ (c.setContext i x).fetched = c.fetched) :=
  ⟨rfl, rfl, rfl⟩

/-- A thread is its core and its context (R23). -/
theorem thread_ext (t t' : Thread) : t' = t ↔ threadCore t' = threadCore t ∧ threadCtx t' = threadCtx t := by
  constructor
  · rintro rfl; exact ⟨rfl, rfl⟩
  · rintro ⟨h, h'⟩
    have hc := congrArg BitVec.toNat h
    simp only [threadCore, BitVec.toNat_ofNat] at hc
    simp only [threadCtx] at h'
    have := t.isLt; have := t'.isLt
    apply BitVec.eq_of_toNat_eq
    omega

theorem State.context_setContext (s : State) (t t' : Thread) (x : Context) :
    (s.setContext t x).context t' = if t' = t then x else s.context t' := by
  simp only [State.context, State.setContext, State.core_setCore, thread_ext]
  by_cases h : threadCore t' = threadCore t
  · by_cases h' : threadCtx t' = threadCtx t <;> simp [h, h', Core.context_setContext]
  · simp [h]

@[simp] theorem State.context_setContext_self (s : State) (t : Thread) (x : Context) :
    (s.setContext t x).context t = x := by simp [State.context_setContext]

/-- A core set with the contexts it had leaves every thread's context as it was. -/
theorem State.context_setCore_same (s : State) (k : CoreId) (c : Core) (hc : c.contexts = (s.core k).contexts)
    (t : Thread) : (s.setCore k c).context t = s.context t := by
  simp only [State.context, State.core_setCore]
  by_cases h : threadCore t = k
  · simp only [h, if_true, Core.context, hc]
  · simp [h]

theorem Context.stream_setStream (c : Context) (st st' : Stream) (x : StreamState) :
    (c.setStream st x).stream st' = if st' = st then x else c.stream st' := by
  cases st <;> cases st' <;> rfl

/-- Setting a stream of a context changes the four streams alone. -/
theorem Context.setStream_eq (c : Context) (st : Stream) (x : StreamState) :
    c.setStream st x = { c with
      scalar := (c.setStream st x).scalar, vector := (c.setStream st x).vector
      matrix := (c.setStream st x).matrix, move := (c.setStream st x).move } := by
  cases st <;> rfl

@[simp] theorem Context.same_run (c : Context) :
    (∀ st x, (c.setStream st x).run = c.run) ∧ (∀ i b, (c.setPred i b).run = c.run) :=
  ⟨fun st x => by rw [Context.setStream_eq], fun _ _ => rfl⟩

@[simp] theorem Context.same_halt (c : Context) :
    (∀ st x, (c.setStream st x).halt = c.halt) ∧ (∀ i b, (c.setPred i b).halt = c.halt) :=
  ⟨fun st x => by rw [Context.setStream_eq], fun _ _ => rfl⟩

@[simp] theorem Context.same_preempt (c : Context) :
    (∀ st x, (c.setStream st x).preempt = c.preempt) ∧ (∀ i b, (c.setPred i b).preempt = c.preempt) :=
  ⟨fun st x => by rw [Context.setStream_eq], fun _ _ => rfl⟩

@[simp] theorem Context.same_ncw (c : Context) :
    (∀ st x, (c.setStream st x).ncw = c.ncw) ∧ (∀ i b, (c.setPred i b).ncw = c.ncw) :=
  ⟨fun st x => by rw [Context.setStream_eq], fun _ _ => rfl⟩

@[simp] theorem Context.same_sregs (c : Context) :
    (∀ st x, (c.setStream st x).sregs = c.sregs) ∧ (∀ i b, (c.setPred i b).sregs = c.sregs) :=
  ⟨fun st x => by rw [Context.setStream_eq], fun _ _ => rfl⟩

@[simp] theorem Context.same_params (c : Context) :
    (∀ st x, (c.setStream st x).params = c.params) ∧ (∀ i b, (c.setPred i b).params = c.params) :=
  ⟨fun st x => by rw [Context.setStream_eq], fun _ _ => rfl⟩

@[simp] theorem Context.same_bank (c : Context) :
    (∀ st x, (c.setStream st x).bank = c.bank) ∧ (∀ i b, (c.setPred i b).bank = c.bank) :=
  ⟨fun st x => by rw [Context.setStream_eq], fun _ _ => rfl⟩

@[simp] theorem Context.same_grid (c : Context) :
    (∀ st x, (c.setStream st x).grid = c.grid) ∧ (∀ i b, (c.setPred i b).grid = c.grid) :=
  ⟨fun st x => by rw [Context.setStream_eq], fun _ _ => rfl⟩

@[simp] theorem Context.preds_setStream (c : Context) (st : Stream) (x : StreamState) :
    (c.setStream st x).preds = c.preds := by rw [Context.setStream_eq]

@[simp] theorem Context.stream_setPred (c : Context) (i : Nat) (b : Bool) (st : Stream) :
    (c.setPred i b).stream st = c.stream st := by cases st <;> rfl

theorem State.stream_setStream (s : State) (t t' : Thread) (st st' : Stream) (x : StreamState) :
    (s.setStream t st x).stream t' st' = if t' = t ∧ st' = st then x else s.stream t' st' := by
  simp only [State.stream, State.setStream, State.context_setContext]
  by_cases h : t' = t
  · subst h; by_cases h' : st' = st <;> simp [h', Context.stream_setStream]
  · simp [h]

@[simp] theorem State.stream_setStream_self (s : State) (t : Thread) (st : Stream) (x : StreamState) :
    (s.setStream t st x).stream t st = x := by simp [State.stream_setStream]

theorem State.context_setStream (s : State) (t t' : Thread) (st : Stream) (x : StreamState) :
    (s.setStream t st x).context t' = if t' = t then (s.context t).setStream st x else s.context t' := by
  simp only [State.setStream, State.context_setContext]

theorem State.part_setPart (s : State) (p p' : Part) (x : Partition) :
    (s.setPart p x).part p' = if p' = p then x else s.part p' := by
  simp only [State.part, State.setPart, Sparse.get_set, Fin.ext_iff]

theorem State.die_setDie (s : State) (d d' : Die) (x : DieState) :
    (s.setDie d x).die d' = if d' = d then x else s.die d' := by
  simp only [State.die, State.setDie, Sparse.get_set, Fin.ext_iff]

theorem State.rclPort_setRcl (s : State) (k k' : RPort) (x : RclPort) :
    (s.setRcl k x).rclPort k' = if k' = k then x else s.rclPort k' := by
  simp only [State.rclPort, State.setRcl, Sparse.get_set, Fin.ext_iff]

theorem State.fab_setFab (s : State) (n n' : FPort) (x : FabPort) :
    (s.setFab n x).fab n' = if n' = n then x else s.fab n' := by
  simp only [State.fab, State.setFab, Sparse.get_set, Fin.ext_iff]

theorem State.source_setSource (s : State) (n n' : BitVec 16) (x : EvtSource) :
    (s.setSource n x).source n' = if n' = n then x else s.source n' := by
  simp only [State.source, State.setSource, Sparse.get_set, ← BitVec.toNat_inj]

theorem State.syncValue_setSync (s : State) (i i' : SyncObj) (v : DWord) :
    (s.setSync i v).syncValue i' = if i' = i then v else s.syncValue i' := by
  simp only [State.syncValue, State.setSync, Sparse.get_set, ← BitVec.toNat_inj]

/-- A register reads back, and a register at another offset reads as before. -/
@[simp] theorem State.reg_setReg_self (s : State) (r : RegName) (i j : Nat) (v : DWord) :
    (s.setReg r i j v).reg r i j = v := by simp [State.reg, State.setReg]

theorem State.reg_setReg_ne (s : State) (r r' : RegName) (i j i' j' : Nat) (v : DWord)
    (h : r'.offset i' j' ≠ r.offset i j) : (s.setReg r i j v).reg r' i' j' = s.reg r' i' j' := by
  exact Sparse.get_set_other _ _ _ _ _ _ h

/-! ## Registers and predicates of a context -/

theorem Context.sreg_setSreg (c : Context) (i i' : Nat) (v : DWord) :
    (c.setSreg i v).sreg i' = if i' = i then v else c.sreg i' := by
  simp only [Context.sreg, Context.setSreg, Sparse.get_set]

theorem Context.param_setParam (c : Context) (i i' : Nat) (v : DWord) :
    (c.setParam i v).param i' = if i' = i then v else c.param i' := by
  simp only [Context.param, Context.setParam, Sparse.get_set]

/-- p0 reads true whatever is written (R196). -/
@[simp] theorem Context.pred_zero (c : Context) : c.pred 0 = true := rfl

theorem Context.pred_setPred (c : Context) (i i' : Nat) (b : Bool) (hi : i < 16) (hi' : i' < 16) (h0 : i' ≠ 0) :
    (c.setPred i b).pred i' = if i' = i then b else c.pred i' := by
  have hpow : (BitVec.ofNat 16 (2 ^ i)).getLsbD i' = decide (i' = i) := by
    rw [BitVec.getLsbD_ofNat, Nat.testBit_two_pow]; simp [hi', eq_comm]
  unfold Context.pred Context.setPred
  cases b <;> by_cases h : i' = i <;> simp_all

end Sys2Proof.Machine
end

