-- ==== Sys2Proof/Laws/Links.lean ====
section
/-! SUPPORT. What a port does that enters DETECT, and that every port has done it after a reset (R313, R363, R445). -/

namespace Sys2Proof.Machine

/-- A fabric port in DETECT that has just sent its bootstrap pattern. -/
def FabPort.Detecting (q : FabPort) : Prop := q.state = .detect ∧ q.backoff = false ∧ q.patterns.getLast? = some 0xF

/-- An RCL port in DETECT that has just sent its training pattern. -/
def RclPort.Detecting (q : RclPort) : Prop := q.state = .detect ∧ q.backoff = false ∧ q.control.getLast? = some sentPattern

theorem State.fab_enterDetect (s : State) (n m : FPort) :
    (s.enterDetect n).fab m = if m = n then { (s.fab n).sendPattern 0xF with
      state := .detect, backoff := false, detectAt := s.fabTime n, mode := none, lanesUsed := 0, bootLane := 0 } else s.fab m := by
  rw [State.enterDetect, State.onFab, State.fab_setFab]

theorem State.rclPort_enterRclDetect (s : State) (n m : RPort) :
    (s.enterRclDetect n).rclPort m = if m = n then { (s.rclPort n).transmit sentPattern with
      state := .detect, backoff := false, detectAt := s.rclTime n, mode := none, lanesUsed := 0 } else s.rclPort m := by
  rw [State.enterRclDetect, State.onRcl, State.rclPort_setRcl]

theorem State.fab_enterRclDetect (s : State) (k : RPort) (n : FPort) : (s.enterRclDetect k).fab n = s.fab n := rfl

theorem State.detecting_fold (l : List FPort) (s : State) (n : FPort) (h : n ∈ l ∨ (s.fab n).Detecting) :
    ((l.foldl State.enterDetect s).fab n).Detecting := by
  induction l generalizing s with
  | nil => simpa using h
  | cons m l ih =>
    refine ih _ ?_
    rw [State.fab_enterDetect]
    split
    · exact .inr ⟨rfl, rfl, by simp [FabPort.sendPattern]⟩
    · rename_i hm
      rcases h with h | h
      · rcases List.mem_cons.1 h with rfl | h
        · exact absurd rfl hm
        · exact .inl h
      · exact .inr h

theorem State.rclDetecting_fold (l : List RPort) (s : State) (k : RPort) (h : k ∈ l ∨ (s.rclPort k).Detecting) :
    ((l.foldl State.enterRclDetect s).rclPort k).Detecting := by
  induction l generalizing s with
  | nil => simpa using h
  | cons m l ih =>
    refine ih _ ?_
    rw [State.rclPort_enterRclDetect]
    split
    · exact .inr ⟨rfl, rfl, by simp [RclPort.transmit]⟩
    · rename_i hm
      rcases h with h | h
      · rcases List.mem_cons.1 h with rfl | h
        · exact absurd rfl hm
        · exact .inl h
      · exact .inr h

theorem State.fab_rclFold (l : List RPort) (s : State) (n : FPort) : (l.foldl State.enterRclDetect s).fab n = s.fab n := by
  induction l generalizing s with
  | nil => rfl
  | cons m l ih => rw [List.foldl_cons, ih, State.fab_enterRclDetect]

/-- After `portsDetect` every port is in DETECT with its pattern sent. -/
theorem State.portsDetect_spec (s : State) : s.portsDetect.PortsDetect where
  fabric n := by
    rw [State.portsDetect, State.fab_rclFold]
    exact State.detecting_fold _ _ n (.inl (List.mem_finRange n))
  rcl k := State.rclDetecting_fold _ _ k (.inl (by revert k; decide))

end Sys2Proof.Machine
end

