-- ==== Sys2Proof/Laws/Memory.lean ====
section
/-! SUPPORT. The laws of the memories (HBM, Reserve, scratch, boot SRAM, flash): what each store reads as
afterwards, and that every memory operation keeps the canonical form. -/

namespace Sys2Proof.Machine

/-! ## Cells -/

theorem wf_storeCells (cells : List (Nat × Byte)) : ∀ (m : Memory) (base : Nat), Memory.wf m = true →
    Memory.wf (storeCells m base cells) = true := by
  induction cells with
  | nil => exact fun _ _ h => h
  | cons c r ih => exact fun m base h => ih _ _ (Memory.wf_write m (base + c.1) c.2 h)

/-- An address that no cell names reads as before. -/
theorem read_storeCells_other (cells : List (Nat × Byte)) : ∀ (m : Memory) (base x : Nat),
    (∀ c ∈ cells, base + c.1 ≠ x) → Memory.read (storeCells m base cells) x = Memory.read m x := by
  induction cells with
  | nil => exact fun _ _ _ _ => rfl
  | cons c r ih =>
    intro m base x h
    have h1 := ih (Memory.write m (base + c.1) c.2) base x (fun c' hc => h c' (List.mem_cons_of_mem _ hc))
    have h2 := h c List.mem_cons_self
    simp only [storeCells, List.foldl_cons] at h1 ⊢
    rw [h1, Memory.read_write, if_neg (Ne.symm h2)]

theorem wf_clear (m : Memory) (a n : Nat) (h : Memory.wf m = true) : Memory.wf (Memory.clear m a n) = true := by
  simp only [Memory.wf, Sparse.canonical, Bool.and_eq_true, List.all_eq_true] at *
  refine ⟨?_, fun e he => h.2 e (List.mem_filter.mp he).1⟩
  have key : ∀ (m : Memory) (lo : Nat), Sparse.rising m lo = true → Sparse.rising (Memory.clear m a n) lo = true := by
    intro m
    induction m with
    | nil => exact fun _ h => h
    | cons e r ih =>
      intro lo hr
      simp only [Sparse.rising, Bool.and_eq_true, decide_eq_true_eq] at hr
      simp only [Memory.clear, List.filter_cons]
      split
      · simp only [Sparse.rising, Bool.and_eq_true, decide_eq_true_eq]
        exact ⟨hr.1, ih _ hr.2⟩
      · exact Sparse.rising_mono _ _ _ (by omega) (ih _ hr.2)
  exact key m 0 h.1

/-- Erased bytes read 0 and the others read as before. -/
theorem read_clear (m : Memory) (a n x : Nat) :
    Memory.read (Memory.clear m a n) x = if a ≤ x ∧ x < a + n then 0 else Memory.read m x := by
  induction m with
  | nil => simp [Memory.clear, Memory.read]
  | cons e r ih =>
    simp only [Memory.clear, List.filter_cons, Memory.read] at ih ⊢
    split <;> grind [Sparse.get]

/-! ## The stores of the device -/

theorem storeHbm_wf (s : State) (a : Nat) (cells : List (Nat × Byte)) (poison : Bool) (h : Memory.wf s.hbm = true) :
    Memory.wf (s.storeHbm a cells poison).hbm = true := wf_storeCells cells s.hbm a h

theorem storeReserve_wf (s : State) (a : Nat) (cells : List (Nat × Byte)) (poison : Bool)
    (h : Memory.wf s.reserve = true) : Memory.wf (s.storeReserve a cells poison).reserve = true :=
  wf_storeCells cells s.reserve a h

theorem storeScratch_wf (c : Core) (o : Nat) (cells : List (Nat × Byte)) (poison : Bool)
    (h : Memory.wf c.scratch = true) : Memory.wf (c.storeScratch o cells poison).scratch = true :=
  wf_storeCells _ c.scratch o h

theorem writeScratch_wf (c : Core) (o : Nat) (bs : List Byte) (poison : Bool) (h : Memory.wf c.scratch = true) :
    Memory.wf (c.writeScratch o bs poison).scratch = true := storeScratch_wf c _ _ poison h

theorem flashWrite_wf (s : State) (o : Nat) (bs : List Byte) (h : Memory.wf s.boot.flash = true) :
    Memory.wf (s.flashWrite o bs).boot.flash = true := Memory.wf_writeBytes _ s.boot.flash o h

theorem sramWrite_wf (s : State) (va : Nat) (cells : List (Nat × Byte)) (h : Memory.wf s.boot.bootSram = true) :
    Memory.wf (s.sramWrite va cells).boot.bootSram = true := wf_storeCells cells s.boot.bootSram va h

/-- A scratch store changes scratch and its poison alone. -/
theorem storeScratch_eq (c : Core) (o : Nat) (cells : List (Nat × Byte)) (poison : Bool) :
    c.storeScratch o cells poison = { c with
      scratch := (c.storeScratch o cells poison).scratch
      scratchPoison := (c.storeScratch o cells poison).scratchPoison } := rfl

@[simp] theorem storeScratch_array (c : Core) (o : Nat) (cells : List (Nat × Byte)) (poison : Bool) :
    (c.storeScratch o cells poison).array = c.array := rfl

@[simp] theorem writeScratch_context (c : Core) (o : Nat) (bs : List Byte) (poison : Bool) (i : Nat) :
    (c.writeScratch o bs poison).context i = c.context i := rfl

end Sys2Proof.Machine
end

