-- ==== Sys2Proof/Laws/Streams.lean ====
section
/-! SUPPORT. The laws of the shared operations of the engines: issuing a command, writing its status word, sending to
a sync object, retiring. -/

namespace Sys2Proof.Machine

/-! ## Issue -/

/-- A command that may issue stands at the head of its stream, legal and selected, with its opcode. -/
theorem issuable_inv {s : State} {t : Thread} {st : Stream} {op : Nat} {q : QEntry} {cmd : Cmd}
    (h : s.issuable t st op = some (q, cmd)) :
    s.mayIssue t st = true ∧ (s.stream t st).reissue = none ∧ s.head t st = some q
      ∧ cmd = substitute (s.context t) st q.cmd ∧ s.illegal t st q = none ∧ selects (s.context t) cmd = true
      ∧ cmd.opcode = op := by
  unfold State.issuable at h
  split at h <;> try contradiction
  rename_i h1
  split at h <;> try contradiction
  rename_i q' hq
  simp only [Bool.and_eq_true, Option.isNone_iff_eq_none] at h1
  simp only [Bool.and_eq_true, decide_eq_true_eq, Option.isNone_iff_eq_none] at h
  split at h <;> try contradiction
  rename_i h2
  simp only [Option.some.injEq, Prod.mk.injEq] at h
  obtain ⟨rfl, rfl⟩ := h
  exact ⟨h1.1.1, h1.1.2, hq, rfl, h2.1.1, h2.1.2, h2.2⟩

/-- A stream that may issue belongs to a running context of an existing core, and has nothing in flight. -/
theorem mayIssue_inv {s : State} {t : Thread} {st : Stream} (h : s.mayIssue t st = true) :
    s.live = true ∧ coreExists (threadCore t) = true ∧ (s.context t).run = .running ∧ (s.context t).halt = none
      ∧ (s.context t).preempt = none ∧ (s.stream t st).cur = none := by
  simp only [State.mayIssue, Context.issues, Bool.and_eq_true, decide_eq_true_eq, Option.isNone_iff_eq_none] at h
  exact ⟨h.1.1.1, h.1.1.2, h.1.2.1.1, h.1.2.1.2, h.1.2.2, h.2⟩

theorem State.Issues.exists_core {s : State} {t : Thread} {st : Stream} {op : Nat} {q : QEntry} {cmd : Cmd}
    (h : s.Issues t st op q cmd) : coreExists (threadCore t) = true :=
  (mayIssue_inv (issuable_inv h.issuable).1).2.1

/-- A common command with a completion object of its partition does what its own function does. -/
theorem State.Issues.common {s : State} {t : Thread} {st : Stream} {op : Nat} {q : QEntry} {cmd : Cmd}
    (h : s.Issues t st op q cmd) (f : Cmd → QEntry → State → State) : s.issueCommon t st op f = f cmd q s := by
  simp [State.issueCommon, h.issuable, h.signal]

@[simp] theorem onCore_exists {c : CoreId} (h : coreExists c = true) (s : State) (f : State → State) :
    onCore c s f = .next (f s) := by simp [onCore, h]

theorem State.Issues.onThread {s : State} {t : Thread} {st : Stream} {op : Nat} {q : QEntry} {cmd : Cmd}
    (h : s.Issues t st op q cmd) (f : State → State) : Machine.onThread t s f = .next (f s) := by
  simp [Machine.onThread, State.Issues.exists_core h]

/-- Marking which context an engine issued last changes the marks alone. -/
theorem markIssued_eq (c : Core) (st : Stream) (i : Nat) :
    c.markIssued st i = { c with
      issuedScalar := (c.markIssued st i).issuedScalar, issuedVector := (c.markIssued st i).issuedVector
      issuedMatrix := (c.markIssued st i).issuedMatrix, issuedMove := (c.markIssued st i).issuedMove } := by
  cases st <;> rfl

/-- Taking a command into flight changes the cores alone. -/
theorem startRun_state (s : State) (t : Thread) (st : Stream) (r : Running) :
    s.startRun t st r = { s with cores := (s.startRun t st r).cores } := rfl

/-- The contexts after a command was taken into flight: its stream runs it, everything else is as it was. -/
theorem startRun_context (s : State) (t t' : Thread) (st : Stream) (r : Running) :
    (s.startRun t st r).context t' =
      if t' = t then (s.context t).setStream st ((s.stream t st).took r) else s.context t' :=
  (State.context_setCore_same _ _ _ (by rw [markIssued_eq]) t').trans (State.context_setStream _ _ _ _ _)

/-- Of every core, taking a command into flight changes the contexts and the marks alone. -/
theorem startRun_core (s : State) (t : Thread) (st : Stream) (r : Running) (c : CoreId) :
    (s.startRun t st r).core c = { s.core c with
      contexts := ((s.startRun t st r).core c).contexts
      issuedScalar := ((s.startRun t st r).core c).issuedScalar
      issuedVector := ((s.startRun t st r).core c).issuedVector
      issuedMatrix := ((s.startRun t st r).core c).issuedMatrix
      issuedMove := ((s.startRun t st r).core c).issuedMove } := by
  by_cases h : c = threadCore t
  · subst h
    simp only [State.startRun, State.setStream, State.setContext, State.core_setCore_self]
    rw [markIssued_eq]; rfl
  · simp [State.startRun, State.setStream, State.setContext, State.core_setCore, h]

@[simp] theorem startRun_hbm (s : State) (t : Thread) (st : Stream) (r : Running) :
    (s.startRun t st r).hbm = s.hbm := by rw [startRun_state]

@[simp] theorem startRun_same (s : State) (t : Thread) (st : Stream) (r : Running) :
    ((s.startRun t st r).regs, (s.startRun t st r).parts) = (s.regs, s.parts) := by rw [startRun_state]

/-- The stream after a command was taken into flight. -/
@[simp] theorem startRun_stream (s : State) (t : Thread) (st : Stream) (r : Running) :
    (s.startRun t st r).stream t st = (s.stream t st).took r := by
  simp [State.stream, startRun_context, Context.stream_setStream]

@[simp] theorem standing_setStream (c : Context) (st : Stream) (x : StreamState) :
    (c.setStream st x).standing = c.standing := by simp [Context.standing]

theorem setStream_sameRegs (c : Context) (st : Stream) (x : StreamState) : c.SameRegs (c.setStream st x) := by
  cases st <;> exact ⟨fun _ => rfl, fun _ => rfl, rfl, rfl⟩

/-! ## What commands of a context leave alone -/

/-- Taking a command into flight changes the stream alone. -/
theorem contextOnly_startRun (s : State) (t : Thread) (st : Stream) (r : Running) :
    s.ContextOnly (s.startRun t st r) t st := by
  refine ⟨startRun_state .., startRun_core s t st r, ?_, ?_, ?_⟩
  · intro t' h; rw [startRun_context, if_neg h]
  · intro st' h; simp [State.stream, startRun_context, Context.stream_setStream, h]
  · rw [startRun_context, if_pos rfl, standing_setStream]

/-- A change of the context that keeps its run state and its other streams stays within the frame. -/
theorem contextOnly_setContext {s u : State} {t : Thread} {st : Stream} (c : s.ContextOnly u t st) (x : Context)
    (hx : x.standing = (u.context t).standing) (hs : ∀ st', st' ≠ st → x.stream st' = u.stream t st') :
    s.ContextOnly (u.setContext t x) t st := by
  refine ⟨?_, ?_, ?_, ?_, ?_⟩
  · have h := c.state; rw [h]; rfl
  · intro k
    have h := c.core k
    by_cases hk : k = threadCore t
    · subst hk; rw [State.setContext, State.core_setCore_self, Core.setContext_eq]; rw [h]
    · rw [State.setContext, State.core_setCore, if_neg hk]; exact h
  · intro t' ht; rw [State.context_setContext, if_neg ht]; exact c.others t' ht
  · intro st' h; rw [State.stream, State.context_setContext_self, hs st' h, c.streams st' h]
  · rw [State.context_setContext_self, hx, c.run]

/-- A change of the command's own stream stays within the frame. -/
theorem contextOnly_setStream {s u : State} {t : Thread} {st : Stream} (c : s.ContextOnly u t st) (x : StreamState) :
    s.ContextOnly (u.setStream t st x) t st :=
  contextOnly_setContext c _ (by simp) (fun st' h => by simp [Context.stream_setStream, h, State.stream])

/-- A change of a context's own registers followed by an issue that ends at once, as one lemma: the frame, the
stream, and what the context holds. -/
theorem issue_frame (s : State) (t : Thread) (st : Stream) (c : Context) (r : Running)
    (hrun : c.standing = (s.context t).standing) (hst : ∀ st', c.stream st' = (s.context t).stream st') :
    s.ContextOnly ((s.setContext t c).startRun t st r) t st
      ∧ ((s.setContext t c).startRun t st r).context t = c.setStream st ((s.stream t st).took r) := by
  have hs : (s.setContext t c).stream t st = s.stream t st := by simp [State.stream, hst]
  have hc : ((s.setContext t c).startRun t st r).context t = c.setStream st ((s.stream t st).took r) := by
    rw [startRun_context, if_pos rfl, State.context_setContext_self, hs]
  refine ⟨⟨?_, ?_, ?_, ?_, ?_⟩, hc⟩
  · rw [startRun_state]; rfl
  · intro k
    rw [startRun_core (s.setContext t c) t st r k]
    by_cases h : k = threadCore t
    · subst h; rw [State.setContext, State.core_setCore_self, Core.setContext_eq]
    · rw [State.setContext, State.core_setCore, if_neg h]
  · intro t' ht; rw [startRun_context, if_neg ht, State.context_setContext, if_neg ht]
  · intro st' h'
    simp only [State.stream, hc, Context.stream_setStream, if_neg h', hst]
  · rw [hc, standing_setStream, hrun]

end Sys2Proof.Machine
end

