-- ==== Sys2Proof/Tests/Slice0.lean ====
section
/-! SUPPORT. Tests: the well-formedness checks refuse what they should, and for the statements' hypotheses concrete
states and operands that meet them. -/

namespace Sys2Proof.Tests
open Sys2Proof Sys2Proof.Machine
set_option Elab.async false

/-! ## Well-formedness -/

theorem test_core_number_80_is_refused : Instr.wf (.commandFetch 80 false) = false := by decide
theorem test_thread_of_core_80_is_refused : Instr.wf (.nop 5120 .scalar) = false ∧ Instr.wf (.vadd 5120) = false := by decide
theorem test_window_access_across_a_line_is_refused : Instr.wf (.scratchWindowAccess 0 60 (.read 8)) = false := by decide
theorem test_three_lane_ratios_are_refused :
    Instr.wf (.laneTestComplete 0 [0, 0, 0]) = false ∧ Instr.wf (.serWindowEnd 0 []) = false := by decide
theorem test_four_link_lane_ratios_are_refused : Instr.wf (.rclLaneTestComplete 0 [0, 0, 0, 0]) = false := by
  decide
theorem test_six_credit_counts_are_refused : Instr.wf (.linkCtrl 0 [0, 0, 0, 0, 0, 0] 0 false) = false := by decide
theorem test_cell_payload_of_one_byte_is_refused :
    Instr.wf (.sequencedCellReceived 0 ⟨0, 0x10, false, true, true, 0, 0, 0, 0, [0]⟩ 0 false) = false := by decide
theorem test_flit_of_255_bytes_is_refused :
    Instr.wf (.rclFlitReceived 0 (List.replicate 16 0) (List.replicate 239 0) []) = false
      ∧ Instr.wf (.rclFlitReceived 0 (List.replicate 16 0) (List.replicate 240 0) (List.replicate 15 false)) = false := by decide +kernel
theorem test_seven_sensor_readings_are_refused : Instr.wf (.thermalSensorRead 0 [none, none, none, none, none, none, none]) = false := by decide
theorem test_four_rail_currents_are_refused : Instr.wf (.railWindowEnd 0 [0, 0, 0, 0] [0, 0, 0, 0, 0] 0 0 []) = false := by decide
theorem test_bad_column_144_is_refused : Instr.wf (.drainOutRowRead 0 [144]) = false := by decide
theorem test_event_of_33_bytes_is_refused : Instr.wf (.eventRecord 0 0 (List.replicate 33 0)) = false := by decide
theorem test_nonce_quarter_of_15_bytes_is_refused : Instr.wf (.attest (.nonce 0 (List.replicate 15 0))) = false := by decide

/-! ## Small states -/

/-- A writable HBM page at a frame. -/
def hbmPage (f : Nat) : PageEntry := ⟨true, true, .hbm, 0, false, false, f⟩

/-- The one partition: it runs, with pages 8 to 15 in HBM. -/
def base : Partition :=
  { Partition.init with state := 1, pageTable := (List.range 8).map (fun i => (8 + i, hbmPage (8 + i))) }

/-- Its entry of the partition table, by byte offset: every die, stack, port, ring, sync object and share. -/
def tableWords : Sparse DWord :=
  [(0x100100, 0xFFFFFFFF000FFFF1), (0x100108, 0x0400000080000000), (0x100110, 0x0000040000000000),
   (0x100118, 0x4010001010100400), (0x100120, 0x7FFF0010)]

/-- A live module whose one partition has every resource, with a given partition state, core 0 and registers beside the
partition table. -/
def boardOf (q : Partition := base) (c : Core := Core.init) (lo hi : Sparse DWord := []) : State :=
  { State.reset with
    power := { Power.off with pwrEn := true, railsUp := 10, vaux := true, pwrGood := true }
    boot := { Boot.off with stage := .firmware, locked := true, ready := true }
    parts := [(0, q)], cores := [(0, c)], regs := lo ++ tableWords ++ hi }

/-- With nothing on it. -/
def board : State := boardOf

/-- A core with one context. -/
def oneContext (x : Context) : Core := { Core.init with contexts := [(0, x)] }

/-- The board with a context as thread 0. -/
def withContext (x : Context) : State := boardOf base (oneContext x)

/-- A command of an opcode and its words. -/
def op (n : Nat) (w1 w2 w3 w4 w5 w6 w7 : Word := 0) : Cmd := ⟨BitVec.ofNat 32 (n * 2 ^ 24), w1, w2, w3, w4, w5, w6, w7⟩

/-- Its place in a queue. -/
def entry (c : Cmd) : QEntry := ⟨c, 0, .sound⟩

/-- A running context with a command in one stream's queue. -/
def ready (st : Stream) (c : Cmd) : Context :=
  { Context.init with run := .running }.setStream st { StreamState.init with queue := [entry c] }

/-- The board with that context as thread 0. -/
def issuing (st : Stream) (c : Cmd) : State := withContext (ready st c)

/-- The streams. -/
def streams : List Stream := [.scalar, .vector, .matrix, .move]

theorem issues {s : State} {t : Thread} {st : Stream} {n : Nat} {q : QEntry} {c : Cmd}
    (h : s.issuable t st n = some (q, c) ∧ s.signalBad t c = false) : s.Issues t st n q c := ⟨h.1, h.2⟩

/-! ## Streams -/

theorem witness_nop_and_bank_switch_issue : ∀ st ∈ streams, ∀ n ∈ [0x00, 0x06],
    (issuing st (op n)).issuable 0 st n = some (entry (op n), op n) ∧ (issuing st (op n)).signalBad 0 (op n) = false := by
  decide +kernel

theorem witness_nop : (issuing .move (op 0x00)).Issues 0 .move 0x00 (entry (op 0x00)) (op 0x00) :=
  issues (witness_nop_and_bank_switch_issue .move (by decide) 0x00 (by decide))

theorem witness_loop_of_zero :
    (issuing .vector (op 0x02 1)).Issues 0 .vector 0x02 (entry (op 0x02 1)) (op 0x02 1)
      ∧ loopCount ((issuing .vector (op 0x02 1)).context 0) (op 0x02 1) = 0 :=
  ⟨issues (by decide +kernel), by decide +kernel⟩

/-- A context whose streams have ended but the move stream, which has switched. -/
def switching : State :=
  let e := { StreamState.init with ended := true }
  withContext { Context.init with
    run := .running, scalar := e, vector := e, matrix := e, move := { StreamState.init with switchTo := some 5 } }

theorem witness_bank_switch_takes_effect :
    coreExists (threadCore 0) = true ∧ switching.live = true ∧ (switching.context 0).run = .running
      ∧ (∀ st, (switching.stream 0 st).ended = true ∨ (switching.stream 0 st).switchTo.isSome = true)
      ∧ (∃ st, (switching.stream 0 st).switchTo.isSome = true) ∧ (switching.context 0).busy = false
      ∧ (switching.core (threadCore 0)).bankBeingWritten (!(switching.context 0).bank) = false :=
  ⟨by decide, by decide +kernel, by decide +kernel, fun st => by cases st <;> decide +kernel, ⟨.move, by decide +kernel⟩,
    by decide +kernel, by decide +kernel⟩

theorem witness_loop :
    (issuing .scalar (op 0x02 64 3)).Issues 0 .scalar 0x02 (entry (op 0x02 64 3)) (op 0x02 64 3)
      ∧ loopCount ((issuing .scalar (op 0x02 64 3)).context 0) (op 0x02 64 3) ≠ 0 :=
  ⟨issues (by decide +kernel), by decide +kernel⟩

/-- A stream at the end of a loop's body. -/
def atEnd (l : LoopLevel) : State :=
  withContext ({ Context.init with run := .running, preds := 0x8001 }.setStream .move
    { StreamState.init with pc := 3, loops := [l] })

theorem witness_loop_iteration_end : ∀ l ∈ [(⟨1, 2, 5, 0, true⟩ : LoopLevel), ⟨1, 2, 5, 0, false⟩, ⟨1, 2, 5, 4, false⟩],
    coreExists (threadCore 0) = true ∧ (atEnd l).live = true ∧ ((atEnd l).context 0).issues = true
      ∧ ((atEnd l).stream 0 .move).loops = [l] ∧ ((atEnd l).stream 0 .move).queue = []
      ∧ ((atEnd l).stream 0 .move).cur = none ∧ ((atEnd l).stream 0 .move).reissue = none
      ∧ ((atEnd l).stream 0 .move).pc = l.first + l.len := by decide +kernel

/-- NOP under predicate 1, which is clear. -/
def underP1 : Cmd := { op 0x00 with w0 := 0x40000 }

theorem witness_command_skipped :
    (issuing .matrix underP1).mayIssue 0 .matrix = true ∧ ((issuing .matrix underP1).stream 0 .matrix).reissue = none
      ∧ (issuing .matrix underP1).head 0 .matrix = some (entry underP1)
      ∧ (issuing .matrix underP1).illegal 0 .matrix (entry underP1) = none
      ∧ selects ((issuing .matrix underP1).context 0) (substitute ((issuing .matrix underP1).context 0) .matrix underP1) = false
      ∧ (issuing .matrix underP1).stopUnit 0 .matrix (((issuing .matrix underP1).stream 0 .matrix).count + 1).toNat = none := by
  decide +kernel

theorem witness_illegal_command :
    (issuing .move (op 0x07)).mayIssue 0 .move = true ∧ ((issuing .move (op 0x07)).stream 0 .move).reissue = none
      ∧ (issuing .move (op 0x07)).head 0 .move = some (entry (op 0x07))
      ∧ (issuing .move (op 0x07)).illegal 0 .move (entry (op 0x07)) = some 0 := by decide +kernel

theorem witness_next_fetch : nextFetch ((withContext (ready .scalar Cmd.zero)).core 0) = some 1
      ∧ nextFetch (board.core 0) = none := by decide +kernel

/-- A context of which the scalar stream alone is to be fetched for. -/
def fetching : State :=
  let e := { StreamState.init with ended := true }
  boardOf base { Core.init with
    program := [(7, op 0x01)]
    contexts := [(0, { Context.init with run := .running, scalar := { StreamState.init with pc := 7 }, vector := e, matrix := e, move := e })] }

theorem witness_command_fetch :
    coreExists 0 = true ∧ fetching.live = true ∧ nextFetch (fetching.core 0) = some 0
      ∧ (((fetching.core 0).context 0).stream (streamOf 0)).pc < 8192 ∧ nextFetch ((fetching.fetchOne 0 false).core 0) = none := by
  decide +kernel

/-- A command in flight that has ended with a status. -/
def ran (c : Cmd) (status : BitVec 8) : Running := ⟨c, 4, 2, true, status, 0, 0, 0, 0⟩

/-- A stream with a command in flight. -/
def flying (st : Stream) (r : Running) : State :=
  withContext ({ Context.init with run := .running }.setStream st { StreamState.init with cur := some r })

theorem witness_command_complete :
    ∀ st ∈ streams, ∀ r ∈ [ran (op 0x73) stOk, ran { op 0x40 with w0 := 0x40010000, w7 := 0x10005 } stSkew],
    coreExists (threadCore 0) = true ∧ (flying st r).live = true ∧ ((flying st r).stream 0 st).cur = some r
      ∧ r.ended = true ∧ r.parts = 0 ∧ (flying st r).writesPending (0, st) = false ∧ r.status ≠ stPreempted
      ∧ r.cmd.opcode ≠ 0x06 ∧ (flying st r).stopUnit 0 st (((flying st r).stream 0 st).count + 1).toNat = none := by
  decide +kernel

theorem witness_preempted_command_complete :
    coreExists (threadCore 0) = true ∧ (flying .matrix (ran (op 0x30) stPreempted)).live = true
      ∧ ((flying .matrix (ran (op 0x30) stPreempted)).stream 0 .matrix).cur = some (ran (op 0x30) stPreempted)
      ∧ (ran (op 0x30) stPreempted).ended = true ∧ (ran (op 0x30) stPreempted).parts = 0
      ∧ (flying .matrix (ran (op 0x30) stPreempted)).writesPending (0, .matrix) = false
      ∧ (ran (op 0x30) stPreempted).status = stPreempted := by decide +kernel

theorem witness_end_stream : ∀ st ∈ streams,
    (issuing st (op 0x01)).issuable 0 st 0x01 = some (entry (op 0x01), op 0x01)
      ∧ (issuing st (op 0x01)).signalBad 0 (op 0x01) = false
      ∧ ((issuing st (op 0x01)).part ((issuing st (op 0x01)).threadPart 0)).packets = []
      ∧ ((issuing st (op 0x01)).context 0).grid = none
      ∧ (issuing st (op 0x01)).stopUnit 0 st (((issuing st (op 0x01)).stream 0 st).count + 1).toNat = none
      ∧ (∃ st' ∈ streams, st' ≠ st ∧ ((issuing st (op 0x01)).stream 0 st').ended = false) := by decide +kernel

/-! ## The scalar engine -/

theorem witness_scalar_arithmetic : ∀ n ∈ [0x10, 0x11, 0x12, 0x13, 0x14, 0x15, 0x16, 0x17, 0x18, 0x19, 0x1A, 0x1B, 0x20, 0x21, 0x22, 0x24],
    (issuing .scalar (op n 31)).issuable 0 .scalar n = some (entry (op n 31), op n 31)
      ∧ (issuing .scalar (op n 31)).signalBad 0 (op n 31) = false := by decide +kernel

theorem witness_add : (issuing .scalar (op 0x11 31)).Issues 0 .scalar 0x11 (entry (op 0x11 31)) (op 0x11 31) :=
  issues (witness_scalar_arithmetic 0x11 (by decide))

theorem witness_cmpp : (issuing .scalar (op 0x1C 0x00B50000)).Issues 0 .scalar 0x1C (entry (op 0x1C 0x00B50000)) (op 0x1C 0x00B50000) :=
  issues (by decide +kernel)

theorem witness_setncw_mask_is_illegal :
    ((withContext (ready .scalar (op 0x24 0 0x10))).illegal 0 .scalar (entry (op 0x24 0 0x10))).isSome = true
      ∧ (op 0x24 0 0x10).opcode = 0x24 ∧ (op 0x24 0 0x10).bits 2 15 4 ≠ 0 := by decide +kernel

/-- SETP's four forms, on predicates 1 to 4. -/
def setpForms : List Cmd := [op 0x1D 0 0 2, op 0x1D 0x10400000, op 0x1D 0x20400000, op 0x1D 0x30600000]

theorem witness_setp : ∀ c ∈ setpForms,
    (issuing .scalar c).issuable 0 .scalar 0x1D = some (entry c, c) ∧ (issuing .scalar c).signalBad 0 c = false
      ∧ (issuing .scalar c).regN .aszGroupCount ((issuing .scalar c).threadPart 0).val ≤ 0 := by decide +kernel

/-- Four groups of which group 0's word is provisional or not. -/
def words (w : BitVec 16) : State :=
  boardOf { base with assize := { Assize.init with words := [(0, w)] } } (oneContext (ready .scalar (op 0x1D 0x10400000))) []
    [(0x400018, 4)]

theorem witness_setp_width : ∀ n ∈ [0x200, 0x1],
    (words (BitVec.ofNat 16 n)).issuable 0 .scalar 0x1D = some (entry (op 0x1D 0x10400000), op 0x1D 0x10400000)
      ∧ 0 < (words (BitVec.ofNat 16 n)).regN .aszGroupCount ((words (BitVec.ofNat 16 n)).threadPart 0).val
      ∧ (words (BitVec.ofNat 16 n)).widthWord ((words (BitVec.ofNat 16 n)).threadPart 0) 0 = BitVec.ofNat 16 n := by decide +kernel

/-- A load or store at an address. -/
def loading (n : Nat) (va : DWord) (st : Stream := .scalar) : State :=
  withContext { ready st (op n 1) with sregs := [(0, va)] }

theorem witness_ld_and_st_of_hbm : ∀ n ∈ [0x1E, 0x1F],
    (loading n 0x1000008).issuable 0 .scalar n = some (entry (op n 1), op n 1) ∧ (loading n 0x1000008).signalBad 0 (op n 1) = false
      ∧ 0x1000008 % 8 = 0 ∧ (loading n 0x1000008).place 0 0x1000008 = .hbm 0x1000008
      ∧ (loading n 0x1000008).lineReady 0 0x1000000 = true ∧ ((loading n 0x1000008).readLine 0 0x1000000).2 = false
      ∧ (loading n 0x1000008).writable 0 0x1000008 = true
      ∧ (pageIndex 0x1000008 = some 8 ∧ (((loading n 0x1000008).part 0).page 8).migrating = false)
      ∧ (loading n 0x1000008).lineBusy (0x1000008 / 64) = false ∧ (loading n 0x1000008).holders (0x1000008 / 64) = []
      ∧ (loading n 0x1000008).ldstKind 0 0x1000008 = .memory ∧ (loading n 0x1000008).ready 0 [(0x1000008, 8)] = true := by
  decide +kernel

theorem witness_ld_and_st_of_a_bad_address : ∀ n ∈ [0x1E, 0x1F],
    (loading n 0x1000004).issuable 0 .scalar n = some (entry (op n 1), op n 1) ∧ 0x1000004 % 8 ≠ 0
      ∧ (loading n 0).issuable 0 .scalar n = some (entry (op n 1), op n 1) ∧ (loading n 0).place 0 0 = .unmapped ∧ inMmio 0 = false
      ∧ (loading n 0x2000001FC000).place 0 0x2000001FC000 = .scratch (threadCore 0) 0x1FC000 := by decide +kernel

theorem witness_ld_of_a_slot_and_of_a_window :
    (loading 0x1E 0x210000000040).ldstKind 0 0x210000000040 = .word
      ∧ (loading 0x1E 0x210000000040).issuable 0 .scalar 0x1E = some (entry (op 0x1E 1), op 0x1E 1)
      ∧ (loading 0x1F 0x200000200000).ldstKind 0 0x200000200000 = .upper 0x200000
      ∧ (loading 0x1F 0x200000200000).issuable 0 .scalar 0x1F = some (entry (op 0x1F 1), op 0x1F 1) := by decide +kernel

theorem witness_st_to_a_slot : ∀ va ∈ [0x210000000048, 0x210000000050],
    (loading 0x1F (BitVec.ofNat 64 va)).issuable 0 .scalar 0x1F = some (entry (op 0x1F 1), op 0x1F 1)
      ∧ (loading 0x1F (BitVec.ofNat 64 va)).ldstKind 0 va = .word ∧ inSync va = true
      ∧ (loading 0x1F (BitVec.ofNat 64 va)).ownsSync 0 (syncOf va) = true ∧ (va % 64 = 0x08 ∨ va % 64 = 0x10) := by
  decide +kernel

theorem witness_st_to_scratch :
    (loading 0x1F 0x2000001FB2F8).issuable 0 .scalar 0x1F = some (entry (op 0x1F 1), op 0x1F 1)
      ∧ (loading 0x1F 0x2000001FB2F8).place 0 0x2000001FB2F8 = .scratch 0 0x1FB2F8 ∧ 0x1FB2F8 < 0x1FB300 := by decide +kernel

/-! ## Sync objects and scratch windows -/

theorem witness_sync_commands : ∀ n ∈ [0x03, 0x05, 0x23, 0x04], ∀ st ∈ streams, (n = 0x23 → st = .scalar) →
    (issuing st (op n 3 7)).issuable 0 st n = some (entry (op n 3 7), op n 3 7)
      ∧ (issuing st (op n 3 7)).signalBad 0 (op n 3 7) = false
      ∧ (issuing st (op n 3 7)).ownsSync ((issuing st (op n 3 7)).threadPart 0) 3 = true
      ∧ (∀ w ∈ (issuing st (op n 3 7)).waits, ¬ (w.obj = 3 ∧ w.threshold ≤ (issuing st (op n 3 7)).syncValue 3)) := by
  decide +kernel

/-- The board with a smaller subset of sync objects. -/
def fewObjects : State :=
  { issuing .scalar (op 0x03 3 7) with regs := tableWords.map (fun e => if e.1 = 0x100108 then (e.1, 0x0400000000020000) else e) }

theorem witness_sync_object_of_another :
    fewObjects.issuable 0 .scalar 0x03 = some (entry (op 0x03 3 7), op 0x03 3 7) ∧ fewObjects.signalBad 0 (op 0x03 3 7) = false
      ∧ fewObjects.ownsSync (fewObjects.threadPart 0) 3 = false := by decide +kernel

/-- An operation queued, and a wait that it satisfies, under a wait limit. -/
def applying (k : SyncKind) (limit : DWord := 0) : State :=
  { flying .vector { ran (op 0x04) stOk with ended := false } with
    syncQueue := [⟨3, k, none, 0⟩], waits := [⟨3, 0, .vector, 5, false⟩], regs := tableWords ++ [(0xE80000, limit)] }

theorem witness_sync_operation : ∀ k ∈ [SyncKind.signal 5, .fetchAdd 5, .reset 5],
    (applying k).live = true ∧ (applying k).syncQueue = [⟨3, k, none, 0⟩]
      ∧ (∀ p, (applying k).running p = true → (applying k).regN .survKvGrowObj p.val ≠ (3 : SyncObj).toNat)
      ∧ ((applying k).syncValue 3).toNat + 5 < 2 ^ 64 := by decide +kernel

theorem witness_sync_saturates :
    2 ^ 64 ≤ (({ board with sync := [(3, BitVec.ofNat 64 (2 ^ 64 - 1))] }.syncValue 3)).toNat + (1 : DWord).toNat := by decide +kernel

theorem witness_sync_slot_writes : board.live = true ∧ board.ownsSync 0 3 = true ∧ fewObjects.ownsSync 0 3 = false := by
  decide +kernel

theorem witness_sync_wait_long : ∀ n ∈ [0, 1000],
    coreExists (threadCore 0) = true
      ∧ (applying (.signal 1) (BitVec.ofNat 64 n)).waits = [] ++ ⟨3, 0, .vector, 5, false⟩ :: []
      ∧ (applying (.signal 1) (BitVec.ofNat 64 n)).regN .dbgWaitLimit
          ((applying (.signal 1) (BitVec.ofNat 64 n)).threadPart 0).val = n := by decide +kernel

theorem witness_scratch_window :
    board.live = true ∧ board.place 0 (0x200000000000 + (0x1FB2C0 : BitVec 31).toNat) = .scratch 0 0x1FB2C0
      ∧ 0x1FB2C0 % 64 + [(1 : Byte), 2].length ≤ 64 ∧ 0x1FB2C0 + [(1 : Byte), 2].length ≤ 0x1FB300
      ∧ board.place 0 (0x200000000000 + (0x200000 : BitVec 31).toNat) = .scratch 0 0x200000 := by decide +kernel

/-! ## Tensors in memory -/

/-- Two rows of eight INT8 elements at page 9, with scale tensor 2. -/
def tensor1 : Desc :=
  ⟨1, 0x1200000, 0x2000000000082, [8, 2, 0, 0, 0, 0], [8, 2, 0, 0, 0, 0], [0, 32, 64, 0, 0, 0], 0, 0, 0xE0B7D519, true⟩
/-- Its scale tensor, of eight entries at page 10. -/
def tensor2 : Desc := ⟨2, 0x1400000, 0x4F, [8, 0, 0, 0, 0, 0], [8, 0, 0, 0, 0, 0], [0, 128, 0, 0, 0, 0], 0, 0, 0xFD0E5477, true⟩
/-- Another like tensor 1, at page 11. -/
def tensor3 : Desc := { tensor1 with handle := 3, base := 0x1600000, check := 0xFC5078F9 }
/-- One row of 64 elements, at page 12. -/
def tensor4 : Desc :=
  ⟨4, 0x1800000, 0x2000000000082, [64, 1, 0, 0, 0, 0], [64, 1, 0, 0, 0, 0], [0, 64, 64, 0, 0, 0], 0, 0, 0xC9A620C3, true⟩

/-- The bytes of their descriptors that are not 0, from the table's start at page 8. -/
def descriptors : Memory :=
  ([(130, 32), (131, 1), (136, 130), (142, 2), (144, 8), (148, 8), (160, 2), (164, 2), (168, 32), (184, 64), (252,
   25), (253, 213), (254, 183), (255, 224), (258, 64), (259, 1), (264, 79), (272, 8), (276, 8), (296, 128), (380,
   119), (381, 84), (382, 14), (383, 253), (386, 96), (387, 1), (392, 130), (398, 2), (400, 8), (404, 8), (416, 2),
   (420, 2), (424, 32), (440, 64), (508, 249), (509, 120), (510, 80), (511, 252), (514, 128), (515, 1), (520, 130),
   (526, 2), (528, 64), (532, 64), (544, 1), (548, 1), (552, 64), (568, 64), (636, 195), (637, 32), (638, 166),
   (639, 201)] : List (Nat × Byte)).map (fun e => (0x1000000 + e.1, e.2))

/-- A vector command of one row of four elements of a format, sources at 0x100 and 0x200, destination at 0x300. -/
def vecCmd (n f : Nat) (w5 : Word := 0) : Cmd :=
  op n (BitVec.ofNat 32 (24 + f * 65536)) (BitVec.ofNat 32 (8 + f * 65536)) (BitVec.ofNat 32 (16 + f * 65536)) 0x10004 w5

/-- A move command of a block of tensor 1: columns and rows from the origin, scratch at 0x100. -/
def moveCmd (n : Nat) (rows cols : Nat := 1) (w1 : Word := 1) (w6 : Word := 0) (w4 : Word := 8) : Cmd :=
  op n w1 0 0 w4 (BitVec.ofNat 32 (rows * 65536 + cols)) w6

/-- The commands of ten threads: four scale operations on tensor 1 from channel 0, then the moves. -/
def clearCmd : Cmd := op 0x63 0 0 0 0x10004 1
def formCmd : Cmd := op 0x65 0x20000 0 0 0x10004 1
def scanCmd : Cmd := op 0x64 0 0xC0008 0 0x10004 0x10001
def gradCmd : Cmd := op 0x62 0xC0018 0xC0008 0xC0010 0x10004 0x10001 0x28
def mloadCmd : Cmd := moveCmd 0x73 2 8
def mloadACmd : Cmd := moveCmd 0x70 2 8
def mloadBCmd : Cmd := moveCmd 0x71 2 8 1 0x10000
def mloadTCmd : Cmd := moveCmd 0x71 8 2 0x10001 0x10000
def mmaskCmd : Cmd := moveCmd 0x77 1 8
def mloadSCmd : Cmd := moveCmd 0x72 0 4 1 0 0x170000
def mstoreCmd : Cmd := moveCmd 0x74 1 8
def mcopyCmd : Cmd := moveCmd 0x75 1 8 1 0 3
def pmLoadCmd : Cmd := moveCmd 0x78 1 64 4 0 8192

/-- A board with those tensors and a core for each of those commands. -/
def tensors : State :=
  { boardOf base Core.init [] [(0x200000, 0x1000000)] with
    hbm := descriptors
    cores := [(0, oneContext (ready .vector clearCmd)), (1, oneContext (ready .vector formCmd)), (2, oneContext (ready .vector scanCmd)),
      (3, oneContext (ready .vector gradCmd)), (4, oneContext (ready .move mloadCmd)), (5, oneContext (ready .move mloadACmd)),
      (6, oneContext (ready .move mloadBCmd)), (7, oneContext (ready .move mloadTCmd)), (8, oneContext (ready .move mmaskCmd)),
      (9, oneContext (ready .move mloadSCmd)), (10, oneContext (ready .move mstoreCmd)), (11, oneContext (ready .move mcopyCmd)),
      (12, oneContext (ready .move pmLoadCmd))] }

theorem tensor1_checks : tensors.checkHandle 0 1 = .ok tensor1 := by decide +kernel
theorem tensor1_has_scales : tensors.checkHandle 0 1 true = .ok tensor1 := by decide +kernel
theorem tensor3_checks : tensors.checkHandle 0 3 = .ok tensor3 := by decide +kernel
theorem tensor4_checks : tensors.checkHandle 0 4 = .ok tensor4 := by decide +kernel
theorem handles_are_at_hand : ∀ h ∈ [1, 3, 4], tensors.ready 0 (tensors.handleRanges 0 h) = true := by decide +kernel

/-! ## The vector engine -/

theorem vector_ready {s : State} {o : VOp} {c : Cmd} (hi : s.issuable 0 .vector o.opcode = some (entry c, c) ∧ s.signalBad 0 c = false)
    (hh : (vblkOf (s.context 0) c).handle = 0 ∧ o.scaled = false) (hs : ∀ n ∈ o.slots (vblkOf (s.context 0) c), n ≤ 23)
    (hf : o.fmtOk (s.context 0) (vblkOf (s.context 0) c) = true)
    (hr : ∀ r ∈ o.regions (vblkOf (s.context 0) c), 0 < r.2 → r.1 + r.2 ≤ generalEnd)
    (he : o.empty (vblkOf (s.context 0) c) = false)
    (hm : s.ready (s.threadPart 0) (o.reads s 0 (vblkOf (s.context 0) c) (parseDesc 0 [])) = true)
    (hd : s.upperHalf (s.threadPart 0) (o.reads s 0 (vblkOf (s.context 0) c) (parseDesc 0 [])) = none) : s.VectorReady 0 o (entry c) c none where
  issues := issues hi
  ranges := by rw [hh.1]; rfl
  handle := .inl ⟨hh.1, hh.2, rfl⟩
  slots := hs
  formats := hf
  dims := by intro x h; cases h
  regions := hr
  full := he
  reads := hm
  lower := hd
  room := by intro _ h; cases h

/-- What `vector_ready` asks of an operation and a command. -/
def vecOk (o : VOp) (c : Cmd) (s : State := issuing .vector c) : Bool :=
  decide (s.issuable 0 .vector o.opcode = some (entry c, c)) && !s.signalBad 0 c && decide ((vblkOf (s.context 0) c).handle = 0) && !o.scaled
    && (o.slots (vblkOf (s.context 0) c)).all (fun n => decide (n ≤ 23)) && o.fmtOk (s.context 0) (vblkOf (s.context 0) c)
    && (o.regions (vblkOf (s.context 0) c)).all (fun r => decide (r.1 + r.2 ≤ generalEnd)) && !o.empty (vblkOf (s.context 0) c)
    && s.ready (s.threadPart 0) (o.reads s 0 (vblkOf (s.context 0) c) (parseDesc 0 []))
    && decide (s.upperHalf (s.threadPart 0) (o.reads s 0 (vblkOf (s.context 0) c) (parseDesc 0 [])) = none)

theorem vector_ready_of_ok {s : State} {o : VOp} {c : Cmd} (h : vecOk o c s = true) : s.VectorReady 0 o (entry c) c none := by
  simp only [vecOk, Bool.and_eq_true, decide_eq_true_eq, Bool.not_eq_true', List.all_eq_true] at h
  obtain ⟨⟨⟨⟨⟨⟨⟨⟨⟨h0, h1⟩, h2⟩, h3⟩, h4⟩, h5⟩, h6⟩, h7⟩, h8⟩, h9⟩ := h
  exact vector_ready ⟨h0, h1⟩ ⟨h2, h3⟩ h4 h5 (fun r hr _ => h6 r hr) h7 h8 h9

theorem witness_elementwise : ∀ n ∈ (List.range 25).map (0x40 + ·), ∀ f ∈ [12, 10], vecOk (arithOp n) (vecCmd n f) = true := by
  decide +kernel

theorem witness_integer_elementwise : ∀ n ∈ [0x40, 0x41, 0x42, 0x43, 0x44, 0x48, 0x49, 0x4A, 0x4B, 0x4C, 0x4D, 0x4E, 0x4F],
    vecOk (arithOp n) (vecCmd n 2) = true := by decide +kernel

theorem witness_vadd : (issuing .vector (vecCmd 0x40 12)).VectorReady 0 (arithOp 0x40) (entry (vecCmd 0x40 12)) (vecCmd 0x40 12) none
    ∧ (vblkOf ((issuing .vector (vecCmd 0x40 12)).context 0) (vecCmd 0x40 12)).rows ≤ 288
    ∧ ((issuing .vector (vecCmd 0x40 12)).context 0).trapInvalid = false
    ∧ (∀ o, Sparse.get false ((issuing .vector (vecCmd 0x40 12)).core (threadCore 0)).scratchPoison o = false) :=
  ⟨vector_ready_of_ok (witness_elementwise 0x40 (by decide) 12 (by decide)), by decide +kernel, by decide +kernel, fun _ => rfl⟩

/-- VCVT from FP32 to BF16, DEQUANT from INT8 to FP32, and the reductions. -/
def converting : List (VOp × Cmd) :=
  [(cvtOp, op 0x60 0xA0018 0xC0008 0 0x10004), (dequantOp, op 0x61 0xC0018 0x20008 0 0x10004),
   (reduceOp 0x68, vecCmd 0x68 12), (reduceOp 0x69, vecCmd 0x69 12), (reduceOp 0x6A, vecCmd 0x6A 12)]

theorem witness_conversions_and_reductions : ∀ x ∈ converting, vecOk x.1 x.2 = true := by
  intro x h
  simp only [converting, List.mem_cons, List.mem_nil_iff, or_false] at h
  obtain rfl | rfl | rfl | rfl | rfl := h <;> decide +kernel

/-- TMATMUL of one row of BF16 by two columns under Tare. -/
def tare : Cmd := op 0x66 0xC0018 0xA0008 0xA0010 0x10002 0 4

theorem witness_tmatmul : vecOk tareOp tare (withContext { ready .vector tare with ncw := 2 }) = true := by decide +kernel

/-- What `VectorReady` asks of an operation on tensor 1 beside the handle. -/
def scaleOk (t : Thread) (o : VOp) (c : Cmd) : Bool :=
  let s := tensors
  let b := vblkOf (s.context t) c
  decide (s.issuable t .vector o.opcode = some (entry c, c)) && !s.signalBad t c && decide (s.threadPart t = 0)
    && decide (b.handle = 1) && decide (o.scaled = true) && (o.slots b).all (fun n => decide (n ≤ 23)) && o.fmtOk (s.context t) b
    && (o.dims b tensor1).all (fun e => decide (e.2.1 ≤ e.2.2)) && (o.regions b).all (fun r => decide (r.1 + r.2 ≤ generalEnd))
    && !o.empty b && s.ready 0 (o.reads s t b tensor1) && decide (s.upperHalf 0 (o.reads s t b tensor1) = none)
    && decide ((s.die (coreDie (threadCore t))).held.length < 4096)

theorem scale_ready {t : Thread} {o : VOp} {c : Cmd} (h : scaleOk t o c = true) :
    tensors.VectorReady t o (entry c) c (some tensor1) := by
  simp only [scaleOk, Bool.and_eq_true, decide_eq_true_eq, Bool.not_eq_true', List.all_eq_true] at h
  obtain ⟨⟨⟨⟨⟨⟨⟨⟨⟨⟨⟨⟨h0, h1⟩, hp⟩, h2⟩, h3⟩, h4⟩, h5⟩, h6⟩, h7⟩, h8⟩, h9⟩, hu⟩, h10⟩ := h
  exact
    { issues := ⟨h0, h1⟩
      ranges := by rw [hp, h2]; exact handles_are_at_hand 1 (by decide)
      handle := .inr ⟨by rw [h2]; decide, tensor1, rfl, by rw [hp, h2, h3]; exact tensor1_has_scales⟩
      slots := h4
      formats := h5
      dims := by rintro _ ⟨⟩ e he _; exact h6 e he
      regions := fun r hr _ => h7 r hr
      full := h8
      reads := by rw [hp]; exact h9
      lower := by rw [hp]; exact hu
      room := fun _ _ => h10 }

theorem witness_scale_clear : tensors.VectorReady 0 clearOp (entry clearCmd) clearCmd (some tensor1) := scale_ready (by decide +kernel)
theorem witness_scale_form : tensors.VectorReady 64 formOp (entry formCmd) formCmd (some tensor1) := scale_ready (by decide +kernel)
theorem witness_amax_scan : tensors.VectorReady 128 scanOp (entry scanCmd) scanCmd (some tensor1) := scale_ready (by decide +kernel)
theorem witness_scale_grad : tensors.VectorReady 192 gradOp (entry gradCmd) gradCmd (some tensor1) := scale_ready (by decide +kernel)

theorem witness_integer_elements : fmtInt (vblkOf Context.init (vecCmd 0x40 2)).dstFmt = true
    ∧ fmtFloat (vblkOf Context.init (vecCmd 0x4C 12)).dstFmt = true ∧ Context.init.tare = false
    ∧ (vblkOf Context.init (vecCmd 0x4C 12)).s0Fmt = (vblkOf Context.init (vecCmd 0x4C 12)).dstFmt
    ∧ 0xFFFFFFFF < 2 * fmtSign (vblkOf Context.init (vecCmd 0x4C 12)).dstFmt := by decide +kernel

/-! ## The matrix array -/

/-- A data tile header of INT8 in front of a tile. -/
def heads : Memory := [(0x109, 2), (0x10109, 2)]

/-- MATMUL of INT8 by INT8, M = 2, N = 2, K = 4: A at 0x100, B at 0x10100, output at 0x20000. -/
def mm (n : Nat := 0x30) (w3 : Word := 0x1000) : Cmd := op n 0x20008 0x20808 w3 0x20002 4 0

/-- A core with its tiles in scratch, and a context. -/
def tileCore (x : Context) : Core := { oneContext x with scratch := heads }

theorem matrix_ready (s : State) (n : Nat) (c : Cmd) (again : Option Running)
    (hh : s.matrixHead 0 n = some (⟨c, 0, .sound⟩, c, again)) (hg : s.signalBad 0 c = false)
    (hi : (s.core (threadCore 0)).array.cmd = none)
    (hr : s.ready (s.threadPart 0) (s.matrixReads (s.threadPart 0) (s.core (threadCore 0)) c) = true)
    (h0 : c.mHandle = 0) (hs : ∀ n ∈ c.mSlots, n ≤ 23)
    (hb : s.headBad (s.threadPart 0) (s.core (threadCore 0)) c = none)
    (hf : s.matrixFmtBad (s.threadPart 0) (s.core (threadCore 0)) c = false)
    (hw : tareOf (again.elim (s.context 0).ncw Running.ncw) = false) (hd : c.mTK ≤ 8)
    (ha : c.mAcc = true → c.mTM * c.mTN ≤ 1 ∧ (c.mK ≠ 0 ∨ c.mCombine = true))
    (hx : ∀ r ∈ c.mRegions, 0 < r.2 → r.1 + r.2 ≤ generalEnd)
    (hn : c.mM ≠ 0 ∧ c.mN ≠ 0 ∧ c.mStart < c.mTM * c.mTN)
    (hk : s.firstSkew (s.threadPart 0) (s.core (threadCore 0)) c = none)
    (hz : (s.core (threadCore 0)).fedRows c (c.mRowTile c.mStart) ≠ []) : s.MatrixReady 0 n ⟨c, 0, .sound⟩ c again where
  head := hh
  core := by decide
  idle := hi
  signal := hg
  reads := hr
  handle := .inl h0
  slots := hs
  heads := hb
  formats := hf
  native := hw
  depth := hd
  acc := ha
  regions := hx
  full := hn
  skew := hk
  fed := hz

theorem witness_matmul : (boardOf base (tileCore (ready .matrix (mm)))).MatrixReady 0 0x30 (entry mm) mm none := by
  apply matrix_ready <;> decide +kernel

/-- MCOMBINE of two preloads at 0x30000. -/
def mc : Cmd := op 0x31 0x20000 0x20000 0x00101000 0x20002 0 0x18000000

theorem witness_mcombine : (boardOf base (tileCore (ready .matrix mc))).MatrixReady 0 0x31 (entry mc) mc none := by
  apply matrix_ready <;> decide +kernel

/-- A pre-empted MATMUL that waits to be issued again. -/
def preempted : Running := ⟨mm, 0, 5, false, 0, 0, 0, 0, 0⟩

theorem witness_matmul_again :
    (boardOf base (tileCore ({ Context.init with run := .running }.setStream .matrix { StreamState.init with reissue := some preempted }))).MatrixReady
      0 0x30 (entry mm) mm (some preempted) := by
  apply matrix_ready <;> decide +kernel

/-- A tile of the command with two fed rows. -/
def tile0 : TileRun := ⟨0, 0, none, 0, 0, [], [0, 1], [], [], false, 0, 0, none, 0, 0⟩
/-- The command on the array. -/
def onArray (c : Cmd) : ArrayCmd :=
  ⟨0, c, c.mCombine, false, 5, 0, 0, [], [], 0, 0, 1, 1, some tile0, [], [], 0, none, 0, none⟩
/-- The board with that command on core 0's array. -/
def arrayOf (x : ArrayCmd) (held : Option (Nat × Nat) := none) : State :=
  boardOf base { tileCore ({ Context.init with run := .running }.setStream .matrix
    { StreamState.init with cur := some { preempted with cmd := x.cmd } }) with array := { ArrayState.init with cmd := some x, held := held } }

theorem witness_stationary_load :
    coreExists 0 = true ∧ (arrayOf (onArray mm)).live = true ∧ ((arrayOf (onArray mm)).core 0).array.cmd = some (onArray mm)
      ∧ (onArray mm).cur = some tile0 ∧ tile0.passes < mm.mTK
      ∧ ((arrayOf (onArray mm)).core 0).array.needsLoad mm tile0 = true
      ∧ ((arrayOf (onArray mm)).context (onArray mm).thread).preempt = none ∧ (onArray mm).fault = none ∧ tile0.fault = none
      ∧ (onArray mm).waiting = [] := by decide +kernel

/-- The tile with its chunk in the cells. -/
def loadedTile (passes : Nat) : TileRun := { tile0 with loaded := some passes, loadDone := 144, passes := passes }

theorem witness_tile_first_pass :
    (arrayOf { onArray mm with cur := some (loadedTile 0) } (some (0, 0))).live = true
      ∧ 0 < mm.mTK ∧ (loadedTile 0).preloadsLeft mm = false
      ∧ ((arrayOf { onArray mm with cur := some (loadedTile 0) } (some (0, 0))).core 0).array.needsLoad mm (loadedTile 0) = false
      ∧ (loadedTile 0).loadDone ≤ 200 ∧ (loadedTile 0).rows.Nodup ∧ mm.mNValid 0 ≤ 144
      ∧ (∀ v ∈ (loadedTile 0).rows.zipIdx,
          Sparse.get 0 ((arrayOf { onArray mm with cur := some (loadedTile 0) } (some (0, 0))).core 0).array.rowReadAt v.1 < 200 + v.2 + 148)
      ∧ slotOpen (depthDuty ((arrayOf { onArray mm with cur := some (loadedTile 0) } (some (0, 0))).depth (coreDie 0)
          ((arrayOf { onArray mm with cur := some (loadedTile 0) } (some (0, 0))).partOfCore 0))) 200 = true
      ∧ (arrayOf { onArray mm with cur := some (loadedTile 0) } (some (0, 0))).tileHeld 0
          { onArray mm with cur := some (loadedTile 0) } = false := by decide +kernel

/-- MATMUL with K = 144 of INT8: two chunks. -/
def mm2 : Cmd := { mm with w5 := 144 }

theorem witness_pass_issue :
    (arrayOf { onArray mm2 with cur := some (loadedTile 1) } (some (0, 1))).live = true
      ∧ 0 < (loadedTile 1).passes ∧ (loadedTile 1).passes < mm2.mTK ∧ (loadedTile 1).loaded = some 1 := by decide +kernel

theorem witness_preload_read :
    ((arrayOf (onArray mc)).core 0).array.cmd = some (onArray mc) ∧ tile0.preloadsLeft mc = true
      ∧ ((arrayOf (onArray mc)).context (onArray mc).thread).preempt = none
      ∧ (onArray mc).drainPending (tile0.rows.getD (tile0.preloadAt % tile0.rows.length) 0) = false ∧ mc.mNValid 0 ≤ 144 := by
  decide +kernel

/-- A tile past its last pass. -/
def committing : ArrayCmd := { onArray mm with cur := none, waiting := [{ loadedTile 1 with commitAt := 500 }] }

theorem witness_tile_commit_point :
    ((arrayOf committing).core 0).array.cmd = some committing ∧ committing.fault = none ∧ 0 < committing.cmd.mTK
      ∧ tileSkew (fun h => Sparse.get false committing.firstPass h) ((arrayOf committing).core 0) mm [0, 1] 0 = none := by
  decide +kernel

/-- A tile that drains, with some rows read. -/
def draining (done : List Nat) : ArrayCmd :=
  { onArray mm with cur := none, drains := [⟨0, 600, 1, [0, 1], done, [], [], [], []⟩] }

theorem witness_drain_out_row :
    ((arrayOf (draining [0])).core 0).array.cmd = some (draining [0])
      ∧ (DrainRun.mk 0 600 1 [0, 1] [0] [] [] [] []).nextRow = some 1 ∧ mm.mDrain = 0
      ∧ mm.mOut + (288 * mm.mRowTile 0 + 1) * mm.mPitch 6 + mm.mColTile 0 * mm.mNeff * 6 + 6 * mm.mNValid (mm.mColTile 0) ≤ generalEnd := by
  decide +kernel

theorem witness_tile_visible :
    ((arrayOf (draining [0, 1])).core 0).array.cmd = some (draining [0, 1])
      ∧ (DrainRun.mk 0 600 1 [0, 1] [0, 1] [] [] [] []).nextRow = none ∧ (draining [0, 1]).collects = false
      ∧ (draining [0, 1]).cur = none ∧ (draining [0, 1]).waiting = [] ∧ (draining [0, 1]).stop ≤ (draining [0, 1]).next
      ∧ threadCore (draining [0, 1]).thread = 0
      ∧ (((arrayOf (draining [0, 1])).stream 0 .matrix).cur).isSome = true := by decide +kernel

/-- A command of two tiles, the first of which drains or has not been there, under pre-emption. -/
def stopping (ds : List DrainRun) : State :=
  let x := { onArray { mm with w4 := 0x20240 } with cur := none, next := 1, stop := 2, drains := ds }
  boardOf base { tileCore ({ Context.init with run := .running, preempt := some (9, false) }.setStream .matrix
    { StreamState.init with cur := some { preempted with cmd := x.cmd } }) with array := { ArrayState.init with cmd := some x } }

theorem witness_preemption_takes_effect : ∀ ds ∈ [[], [DrainRun.mk 0 600 1 [0, 1] [] [] [] [] []]],
    (stopping ds).live = true ∧ ((stopping ds).context 0).preempt.isSome = true
      ∧ (((stopping ds).core 0).array.cmd.map (fun x => (x.cur.isNone && x.waiting.isEmpty && decide (x.notStarted = some 1)
          && decide (threadCore x.thread = 0) && decide (x.drains = ds)))) = some true := by decide +kernel

/-! ## The move engine -/

/-- What `MoveReady` asks beside the handle check. -/
def moveOk (t : Thread) (n : Nat) (c : Cmd) (d : Desc) (fmtOk : Nat → Bool) (region : Nat × Nat) : Bool :=
  decide (tensors.issuable t .move n = some (entry c, c)) && !tensors.signalBad t c && decide (tensors.threadPart t = 0)
    && decide ((mblkOf (tensors.context t) c).handle = d.handle) && decide (d.handle ∈ [1, 3, 4]) && fmtOk d.fmt
    && decide (d.overDim = none) && decide (region.1 + region.2 ≤ generalEnd)

theorem move_ready {t : Thread} {n : Nat} {c : Cmd} {d : Desc} {needScale : Bool} {fmtOk : Nat → Bool} {region : Nat × Nat}
    (hc : tensors.checkHandle 0 d.handle needScale = .ok d) (h : moveOk t n c d fmtOk region = true) :
    tensors.MoveReady t n (entry c) c needScale fmtOk region d := by
  simp only [moveOk, Bool.and_eq_true, decide_eq_true_eq, Bool.not_eq_true'] at h
  obtain ⟨⟨⟨⟨⟨⟨⟨h0, h1⟩, hp⟩, h2⟩, h3⟩, h4⟩, h5⟩, h6⟩ := h
  exact ⟨⟨h0, h1⟩, by rw [hp, h2]; exact handles_are_at_hand _ h3, by rw [hp, h2]; exact hc, h4, h5, fun _ => h6⟩

/-- A block of a tensor in bounds, the memory under it at hand and writable. -/
def blockOk (t : Thread) (c : Cmd) (d : Desc) (rows cols : Nat) : Bool :=
  let b := mblkOf (tensors.context t) c
  decide (d.part b b.rows b.cols = (rows, cols)) && decide (tensors.upperHalf 0 (d.blockRanges b rows cols) = none)
    && tensors.ready 0 (d.blockRanges b rows cols) && tensors.allWritable 0 (d.blockRanges b rows cols)

theorem witness_mload : tensors.MoveReady 256 0x73 (entry mloadCmd) mloadCmd false anyFmt (0x100, blockBytes 2 2 8) tensor1
    ∧ blockOk 256 mloadCmd tensor1 2 8 = true := ⟨move_ready tensor1_checks (by decide +kernel), by decide +kernel⟩

theorem witness_mload_a : tensors.MoveReady 320 0x70 (entry mloadACmd) mloadACmd false tileFmt (0x100, 20768) tensor1
    ∧ blockOk 320 mloadACmd tensor1 2 8 = true := ⟨move_ready tensor1_checks (by decide +kernel), by decide +kernel⟩

theorem witness_mload_b : tensors.MoveReady 384 0x71 (entry mloadBCmd) mloadBCmd false tileFmt (0x100, 32 + 72 * 72) tensor1
    ∧ blockOk 384 mloadBCmd tensor1 2 8 = true ∧ mloadBCmd.bit 1 16 = false :=
  ⟨move_ready tensor1_checks (by decide +kernel), by decide +kernel, by decide +kernel⟩

theorem witness_mload_b_transposed :
    tensors.MoveReady 448 0x71 (entry mloadTCmd) mloadTCmd false tileFmt (0x100, 32 + 72 * 72) tensor1
      ∧ mloadTCmd.bit 1 16 = true ∧ tensor1.outerIn (mblkOf (tensors.context 448) mloadTCmd).o = true
      ∧ inBounds ((mblkOf (tensors.context 448) mloadTCmd).o.getD 0 0) 8 (tensor1.extent 0) = 8
      ∧ inBounds ((mblkOf (tensors.context 448) mloadTCmd).o.getD 1 0) 2 (tensor1.extent 1) = 2
      ∧ tensors.Readable 0 (tensor1.blockRanges (mblkOf (tensors.context 448) mloadTCmd) 2 8) :=
  ⟨move_ready tensor1_checks (by decide +kernel), by decide +kernel, by decide +kernel, by decide +kernel, by decide +kernel,
    by decide +kernel, by decide +kernel⟩

theorem witness_mmask : tensors.MoveReady 512 0x77 (entry mmaskCmd) mmaskCmd false anyFmt (0x100, 36) tensor1
    ∧ blockOk 512 mmaskCmd tensor1 1 8 = true := ⟨move_ready tensor1_checks (by decide +kernel), by decide +kernel⟩

theorem witness_mload_s : tensors.MoveReady 576 0x72 (entry mloadSCmd) mloadSCmd true (fun _ => true) (0, 0) tensor1
    ∧ bitsOf (mblkOf (tensors.context 576) mloadSCmd).w4 20 16 = 23 ∧ 0 * 4 < tensor1.channels ∧ min 4 (tensor1.channels - 0 * 4) = 4
    ∧ (tensors.desc 0 tensor1.scaleHandle).base = 0x1400000 ∧ tensors.Readable 0 [(0x1400000, 64)] :=
  ⟨move_ready tensor1_has_scales (by decide +kernel), by decide +kernel, by decide +kernel, by decide +kernel, by decide +kernel,
    by decide +kernel, by decide +kernel⟩

theorem witness_loaded_element :
    rowBytes tensor1.fmt 8 ≤ 32 ∧ tensor1.fmt < 15 ∧ (tensor1.part (mblkOf (tensors.context 256) mloadCmd) 2 8).2 ≤ 8
      ∧ (∀ x ∈ tensors.rowElems 0 tensor1.fmt (tensor1.blockRow (mblkOf (tensors.context 256) mloadCmd) 1) 0 8, x.1 < 2 ^ fmtBits tensor1.fmt) := by
  decide +kernel

theorem witness_mstore : tensors.MoveReady 640 0x74 (entry mstoreCmd) mstoreCmd false anyFmt (0x100, blockBytes 2 1 8) tensor1
    ∧ blockOk 640 mstoreCmd tensor1 1 8 = true := ⟨move_ready tensor1_checks (by decide +kernel), by decide +kernel⟩

/-- Lines of HBM that no host holds and nothing waits for. -/
theorem free_lines {s : State} {p : Part} {va n : Nat}
    (h : (linesOf va n).all (fun l => s.writable p l && (match pageIndex l with
        | some i => !((s.part p).page i).migrating
        | none => true) && (match s.place p l with
        | .hbm a => decide (a = l) && !s.lineBusy (a / 64) && (s.holders (a / 64)).isEmpty
        | _ => false)) = true) : s.FreeHbm p va n where
  line := by
    intro l hl
    have hx := List.all_eq_true.1 h l hl
    simp only [Bool.and_eq_true] at hx
    obtain ⟨⟨h1, h2⟩, h3⟩ := hx
    refine ⟨h1, ?_, ?_⟩
    · intro i hi; rw [hi] at h2; simpa using h2
    · split at h3
      · rename_i a ha
        simp only [Bool.and_eq_true, decide_eq_true_eq, Bool.not_eq_true', List.isEmpty_iff] at h3
        exact ⟨a, ha, h3.1.2, h3.2⟩
      · cases h3
  apart := by
    have key : ∀ l ∈ linesOf va n, s.place p l = .hbm l := by
      intro l hl
      have hx := List.all_eq_true.1 h l hl
      simp only [Bool.and_eq_true] at hx
      have h3 := hx.2
      split at h3
      · rename_i a ha
        simp only [Bool.and_eq_true, decide_eq_true_eq] at h3
        rw [ha, h3.1.1]
      · cases h3
    intro l hl l' hl' e
    rw [key l hl, key l' hl'] at e
    cases e; rfl

theorem witness_a_stored_row_is_free_hbm : tensors.FreeHbm 0 0x1200000 8 ∧ tensors.FreeHbm 0 0x1600000 8 :=
  ⟨free_lines (by decide +kernel), free_lines (by decide +kernel)⟩

theorem witness_mcopy : tensors.MoveReady 704 0x75 (entry mcopyCmd) mcopyCmd false anyFmt (0, 0) tensor1
    ∧ tensors.ready 0 (tensors.handleRanges 0 3) = true ∧ tensors.checkHandle 0 3 = .ok tensor3
    ∧ (mblkOf (tensors.context 704) mcopyCmd).w4 % 2 ^ 16 = 3 ∧ tensor3.fmt = tensor1.fmt ∧ tensor3.overDim = none
    ∧ blockOk 704 mcopyCmd tensor1 1 8 = true ∧ blockOk 704 mcopyCmd tensor3 1 8 = true :=
  ⟨move_ready tensor1_checks (by decide +kernel), handles_are_at_hand 3 (by decide), tensor3_checks, by decide +kernel,
    by decide +kernel, by decide +kernel, by decide +kernel, by decide +kernel⟩

theorem witness_mhalo :
    let c := op 0x76 0x1000000 0 0 8 0x20008 16
    (issuing .move c).issuable 0 .move 0x76 = some (entry c, c) ∧ (issuing .move c).signalBad 0 c = false
      ∧ neighbour (threadCore 0) (c.bits 1 25 24) = some 1 ∧ c.bits 5 31 16 = 2 ∧ c.bits 5 15 0 = 8
      ∧ c.bits 4 15 0 * 32 + 2 * (ceilDiv 8 32 * 32) ≤ generalEnd ∧ c.bits 6 15 0 * 32 + 2 * (ceilDiv 8 32 * 32) ≤ generalEnd := by
  decide +kernel

theorem witness_pm_load : tensors.MoveReady 768 0x78 (entry pmLoadCmd) pmLoadCmd false anyFmt (0, 0) tensor4
    ∧ blockOk 768 pmLoadCmd tensor4 1 64 = true ∧ (mblkOf (tensors.context 768) pmLoadCmd).w4 % 2 ^ 14 / 2 * 2 = 8192
    ∧ (tensors.loadBlock 0 tensor4 (mblkOf (tensors.context 768) pmLoadCmd) 1 64 (rowBytes tensor4.fmt 64)).length = 64
    ∧ (tensors.core 12).bankInUse (decide (8192 ≤ 8192)) = false :=
  ⟨move_ready tensor4_checks (by decide +kernel), by decide +kernel, by decide +kernel, by decide +kernel, by decide +kernel⟩


/-! ## Packets -/

/-- The board with a packet of ring 0 at the head of page 13, its replies in page 14, and other memory. -/
def packetOn (q : Partition) (regs : Sparse DWord) (mem pkt : Memory) : State :=
  { boardOf q Core.init [(0x00, 0x1A00000), (0x10, 0x1C00000), (0x20, 1)] regs with
    hbm := mem ++ pkt.map (fun e => (0x1A00000 + e.1, e.2)) }

/-- The bytes of a packet of one entry. -/
def packetBytes (pkt : Memory) : List Byte := (List.range 64).map (Memory.read pkt)

/-- What `PacketAt` asks, for ring 0. -/
def packetOk (s : State) (bs : List Byte) (needs : List (Nat × Nat)) : Bool :=
  decide (s.partOfRing 0 = some 0) && s.interprets 0 && decide (s.nextRing 0 = some 0) && s.ready 0 (s.headRanges 0 0)
    && decide (s.headPacket 0 0 = bs) && s.ready 0 (resultRange bs ++ needs)
    && (s.headRanges 0 0).all (fun r => !s.poisoned 0 r.1 r.2)

theorem packet_at {s : State} {bs : List Byte} {needs : List (Nat × Nat)} (h : packetOk s bs needs = true) :
    s.PacketAt 0 0 bs needs := by
  simp only [packetOk, Bool.and_eq_true, decide_eq_true_eq] at h
  obtain ⟨⟨⟨⟨⟨⟨h0, h1⟩, h2⟩, h3⟩, h4⟩, h5⟩, h6⟩ := h
  refine ⟨h0, h1, h2, h3, h4, h5, fun r hr => ?_⟩
  simpa using List.all_eq_true.1 h6 r hr

/-- NOP, an unknown opcode, and QUERY_STATS of handle 1 with a result buffer of no and of one record at page 15. -/
def nopPkt : Memory := [(0, 0x01), (4, 7)]
def badPkt : Memory := [(0, 0xFF)]
def queryPkt (cap : List (Nat × Byte)) : Memory := [(0, 0x09), (10, 0xE0), (11, 1)] ++ cap ++ [(24, 1), (26, 1)]

theorem witness_nop_packet : (packetOn base [] [] nopPkt).PacketAt 0 0 (packetBytes nopPkt) []
    ∧ isPacket 0x01 (packetBytes nopPkt) = true := ⟨packet_at (by decide +kernel), by decide +kernel⟩

theorem witness_malformed_packet : (packetOn base [] [] badPkt).PacketAt 0 0 (packetBytes badPkt) []
    ∧ malformed (packetBytes badPkt) = true := ⟨packet_at (by decide +kernel), by decide +kernel⟩

theorem witness_query_stats_too_small : (packetOn base [] [] (queryPkt [])).PacketAt 0 0 (packetBytes (queryPkt [])) []
    ∧ isPacket 0x09 (packetBytes (queryPkt [])) = true
    ∧ pktCap (packetBytes (queryPkt [])) < pktParam (packetBytes (queryPkt [])) 2 2 * 64 :=
  ⟨packet_at (by decide +kernel), by decide +kernel, by decide +kernel⟩

/-- The board with that query, a descriptor with a record at page 12, and the table's base. -/
def asked : State := packetOn base [(0x200000, 0x1000000)] [(0x1000088, 0x82), (0x10000F2, 0x80), (0x10000F3, 1)] (queryPkt [(14, 1)])

theorem witness_query_stats :
    asked.PacketAt 0 0 (packetBytes (queryPkt [(14, 1)])) [(0x1000080, 128), (0x1800000, 64)]
    ∧ asked.queryRecords 0 (packetBytes (queryPkt [(14, 1)])) = [0x1800000] ∧ asked.descAddr 0 1 = 0x1000080
    ∧ (asked.taken 0 0).poisoned 0 0x1000080 128 = false
    ∧ isPacket 0x09 (packetBytes (queryPkt [(14, 1)])) = true ∧ pktResult (packetBytes (queryPkt [(14, 1)])) ≠ 0
    ∧ pktParam (packetBytes (queryPkt [(14, 1)])) 2 2 * 64 ≤ pktCap (packetBytes (queryPkt [(14, 1)])) :=
  ⟨packet_at (by decide +kernel), by decide +kernel, by decide +kernel, by decide +kernel, by decide +kernel, by decide +kernel,
    by decide +kernel⟩

/-- A packet that has ended, with its reply to come. -/
def done (bs : List Byte) (body : Option (List Byte) := none) : Packet :=
  { Packet.init 5 0 bs with ended := true, status := some stOk, body := body }

/-- The board with it, and its result buffer at page 15. -/
def replying (k : Packet) : State := packetOn { base with packets := [k], finished := [5] } [] [] []

theorem witness_packet_complete :
    (replying (done (packetBytes nopPkt))).live = true
      ∧ (replying (done (packetBytes nopPkt))).nextReply 0 = some (done (packetBytes nopPkt))
      ∧ (replying (done (packetBytes nopPkt))).heldWrites = []
      ∧ (replying (done (packetBytes nopPkt))).rqAddr 0 ((replying (done (packetBytes nopPkt))).regN .hifRqTail 0) = 0x1C00000
      ∧ (replying (done (packetBytes nopPkt))).FreeHbm 0 0x1C00000 32 ∧ pktResult (done (packetBytes nopPkt)).bytes = 0 :=
  ⟨by decide +kernel, by decide +kernel, by decide +kernel, by decide +kernel, free_lines (by decide +kernel), by decide +kernel⟩

/-- Ranges whose lines lie apart. -/
theorem apart {s : State} {p : Part} {a n b m : Nat}
    (h : (linesOf a n).all (fun l => (linesOf b m).all (fun l' => decide (s.place p l ≠ s.place p l'))) = true) :
    s.Apart p a n b m := by
  intro l hl l' hl'
  simpa using List.all_eq_true.1 (List.all_eq_true.1 h l hl) l' hl'

/-- The query's packet with a record for a body. -/
def answered : Packet := done (packetBytes (queryPkt [(14, 1)])) (some (List.replicate 64 3))

theorem witness_result_body :
    (replying answered).live = true ∧ (replying answered).nextReply 0 = some answered ∧ (replying answered).heldWrites = [] ∧ pktResult answered.bytes = 0x1E00000
      ∧ answered.body = some (List.replicate 64 3) ∧ answered.bodyOut = false ∧ (leNat ((replying answered).readVa 0 0x1E00000 4) + 1) % 2 ^ 32 = 1
      ∧ pktCap answered.bytes = 64 ∧ (replying answered).FreeHbm 0 0x1C00000 32
      ∧ (replying answered).FreeHbm 0 0x1E00000 16 ∧ (replying answered).FreeHbm 0 0x1E00080 64
      ∧ (replying answered).Apart 0 0x1E00000 16 0x1E00080 64 ∧ (replying answered).Apart 0 0x1E00000 16 0x1C00000 32
      ∧ (replying answered).Apart 0 0x1E00080 64 0x1C00000 32 :=
  ⟨by decide +kernel, by decide +kernel, by decide +kernel, by decide +kernel, rfl, rfl, by decide +kernel, by decide +kernel,
    free_lines (by decide +kernel),
    free_lines (by decide +kernel), free_lines (by decide +kernel), apart (by decide +kernel), apart (by decide +kernel),
    apart (by decide +kernel)⟩

/-! ## Registers -/

theorem witness_ring_pointers :
    board.live = true ∧ board.partOfRing (3 : Ring).val = some 0 ∧ board.mayWriteReg 0 ⟨.hifSqTail, (3 : Ring).val, 0⟩ = true
      ∧ board.mayWriteReg 0 ⟨.hifRqHead, (3 : Ring).val, 0⟩ = true ∧ board.mayWriteReg (partReq 0) ⟨.survLogTail, (0 : Part).val, 0⟩ = true
      ∧ ahead32 (board.regN .survLogTail 0) 0 ≤ ahead32 (board.regN .survLogTail 0) (board.regN .survLogHead 0)
      ∧ sourceExists 0x1030 = true ∧ board.mayWriteReg 0 ⟨.evtHead, 0x1030, 0⟩ = true := by decide +kernel

/-- The ring of a fabric port's events at page 13. -/
def placedRing : State := boardOf base Core.init [] [(0xB40C08, 0x1A00000)]

theorem witness_event_ring_enable :
    placedRing.live = true ∧ placedRing.mayWriteReg 0 ⟨.evtCtrl, 0x1030, 0⟩ = true ∧ placedRing.regN .evtCtrl 0x1030 = 0
      ∧ placedRing.ringPlaced (placedRing.sourceOwner 0x1030) (placedRing.regN .evtBase 0x1030) (placedRing.regN .evtSize 0x1030 * 32) = true
      ∧ (placedRing.source 0x1030).held = [] := by decide +kernel

theorem witness_register_write :
    (regHalf 0x700010 = some (⟨.fabUncorrLimit, 0, 0⟩, false) ∧ board.mayWriteReg 0 ⟨.fabUncorrLimit, 0, 0⟩ = true
        ∧ RegName.fabUncorrLimit.row.access = .rw)
      ∧ (regHalf 0x28 = some (⟨.hifSqHead, 0, 0⟩, false) ∧ board.mayWriteReg 0 ⟨.hifSqHead, 0, 0⟩ = true
        ∧ RegName.hifSqHead.row.access = .ro)
      ∧ (regHalf 0xC02000 = some (⟨.secFwrBase, 0, 0⟩, false) ∧ board.mayWriteReg 0 ⟨.secFwrBase, 0, 0⟩ = true
        ∧ RegName.secFwrBase.row.access = .rwl ∧ board.boot.locked = true) := by decide +kernel

theorem witness_register_write_dropped :
    regHalf 0x3FFFFF8 = none
      ∧ (regHalf 0x240000 = some (⟨.survDescBase, 1, 0⟩, false) ∧ board.mayWriteReg 0 ⟨.survDescBase, 1, 0⟩ = false
        ∧ RegName.survDescBase.row.access ≠ .rwl)
      ∧ (regHalf 0x200004 = some (⟨.survDescBase, 0, 0⟩, true) ∧ board.mayWriteReg 0 ⟨.survDescBase, 0, 0⟩ = true
        ∧ RegName.survDescBase.row.wide = true) := by decide +kernel

/-! ## Statistics and steering -/

/-- A partial of one sampled element for a record at page 12. -/
def aPartial : Partial := ⟨0, 0x1800000, 1, 10, 1, 0, 0, 0, 0x3F800000, [], [(0, 0)], [], 0, false, none⟩

/-- The board with a partition's Assize, registers and die 0's Gauger. -/
def steering (a : Assize) (regs : Sparse DWord := []) (arrivals : List Partial := []) : State :=
  { boardOf { base with assize := a } Core.init [] regs with dies := [(0, { DieState.init with arrivals := arrivals })] }

theorem witness_partial_merges :
    (steering Assize.init [] [aPartial]).live = true ∧ ((steering Assize.init [] [aPartial]).die 0).held = []
      ∧ ((steering Assize.init [] [aPartial]).die 0).arrivals = [aPartial]
      ∧ (steering Assize.init [] [aPartial]).regN .evtCtrl (0x1000 + (0 : Die).val) = 0 ∧ aPartial.record ≠ 0 ∧ aPartial.chans = []
      ∧ (steering Assize.init [] [aPartial]).recordHeld aPartial = false
      ∧ (steering Assize.init [] [aPartial]).FreeHbm aPartial.part aPartial.record 64
      ∧ (v32 (recAmax ((steering Assize.init [] [aPartial]).readVa aPartial.part aPartial.record 64))).isNan = false :=
  ⟨by decide +kernel, by decide +kernel, by decide +kernel, by decide +kernel, by decide, rfl, by decide +kernel,
    free_lines (by decide +kernel), by decide +kernel⟩

theorem witness_partial_is_held :
    (steering { Assize.init with held := [(0x1800000, true)] } [] [aPartial]).recordHeld aPartial = true := by decide +kernel

def stepEndPkt : Memory := [(0, 0x08)]

theorem witness_step_end : (packetOn base [] [] stepEndPkt).PacketAt 0 0 (packetBytes stepEndPkt) []
    ∧ isPacket 0x08 (packetBytes stepEndPkt) = true := ⟨packet_at (by decide +kernel), by decide +kernel⟩

/-- A board with one packet held, at work or not. -/
def holding (k : Packet) (q : Partition := base) (c : Core := Core.init) : State := boardOf { q with packets := [k] } c

theorem witness_packets_wait_for_a_step_end :
    ((holding (Packet.init 5 0 (packetBytes stepEndPkt))).part 0).stepEndWaits = true
      ∧ (holding (Packet.init 5 0 (packetBytes stepEndPkt))).partOfRing (0 : Ring).val = some 0 := by decide +kernel

theorem witness_step_end_snapshot :
    let k := Packet.init 5 0 (packetBytes stepEndPkt)
    (holding k).live = true ∧ (holding k).running 0 = true ∧ ((holding k).part 0).waitingPacket 0x08 = some k
      ∧ (holding k).earlierDone 0 k.id = true ∧ (holding k).partialsDone 0 = true
      ∧ ((holding k).part 0).assize.openStep = none ∧ ((holding k).part 0).assize.arrived = []
      ∧ ((holding k).part 0).assize.deciding = none ∧ (holding k).ready 0 ((holding k).snapshotRanges 0) = true := by decide +kernel

/-- A summary of no entry: its header's words, from byte 8 on. -/
def summary (suspect : Bool) (invalid : Byte) : Summary :=
  ⟨List.replicate 32 0 ++ [invalid] ++ List.replicate 31 0, suspect, false, 6⟩

/-- Assize with one group, waiting for that summary. -/
def judging (x : Summary) (fresh : Bool) : Assize :=
  { Assize.init with openStep := some 6, arrived := [x], groupCount := 1, awaiting := fresh, cold := fresh }

theorem witness_statistics_summary_arrival : ∀ x ∈ [(summary true 0, false), (summary false 1, true), (summary false 0, false)],
    (steering (judging x.1 x.2)).live = true ∧ (steering (judging x.1 x.2)).running 0 = true
      ∧ ((steering (judging x.1 x.2)).part 0).assize.arrived = [x.1] ∧ x.1.step = 6 ∧ x.1.agreement = false
      ∧ ((steering (judging x.1 x.2)).part 0).assize.openStep = some 6
      ∧ ((steering (judging x.1 x.2)).part 0).assize.deciding = none
      ∧ (steering (judging x.1 x.2)).ready 0 ((steering (judging x.1 x.2)).flagRanges 0) = true := by decide +kernel

theorem witness_statistics_summary_decides :
    field (summary false 1).bytes 32 4 ≠ 0 ∧ (judging (summary false 1) true).awaiting = true
      ∧ (judging (summary false 0) false).awaiting = false ∧ (judging (summary false 0) false).cold = false
      ∧ field (summary false 0).bytes 24 4 = field (summary false 0).bytes 28 4
      ∧ field (summary false 0).bytes 8 8 = field (summary false 0).bytes 16 8
      ∧ (judging (summary false 0) false).unread.contains 0 = false := by decide +kernel

/-- Assize that decides, its copy at page 13. -/
def decided : State := steering { judging (summary false 0) false with arrived := [], deciding := some 1 } [(0x400030, 0x1A00000)]

theorem witness_assize_decision_complete :
    decided.live = true ∧ decided.running 0 = true ∧ (decided.part 0).assize.deciding = some 1
      ∧ decided.ready 0 (decided.flagRanges 0) = true ∧ decided.copyOk 0 = true
      ∧ decided.regN .aszWordBase (0 : Part).val + 8192 * 1 = 0x1A02000 ∧ (decided.part 0).assize.groupCount = 1
      ∧ decided.FreeHbm 0 0x1A02000 2 :=
  ⟨by decide +kernel, by decide +kernel, by decide +kernel, by decide +kernel, by decide +kernel, by decide +kernel, by decide +kernel,
    free_lines (by decide +kernel)⟩

/-- A statistics bucket. -/
def statsBucket : Bucket := ⟨1, false, false, 64, 0, 0, [0], 0, 0, 0, 0, 0, 0, 4, 0, 0, none, 0, 0xFFFF⟩

theorem witness_assize_control :
    let s := steering { Assize.init with awaiting := false } [(0x400028, 2), (0xA00048, 0x1A00000)]
    s.live = true ∧ s.mayWriteReg (partReq 0) ⟨.aszCtrl, (0 : Part).val, 0⟩ = true ∧ s.ready 0 (s.savedRanges 0) = true
      ∧ s.regN .updAszSave (0 : Part).val = 0x1A00000
      ∧ Nat.min (leNat (s.readVa 0 (0x1A00000 + 16) 4)) 4096 = 0 ∧ 2 * s.regN .aszWatchCount (0 : Part).val = 4
      ∧ s.mapped 0 0x1A00000 64 = true ∧ s.poisoned 0 0x1A00000 64 = false
      ∧ s.mapped 0 (0x1A00000 + s.savedRunsAt 0 0) 4 = true ∧ s.poisoned 0 (0x1A00000 + s.savedRunsAt 0 0) 4 = false ∧ s.ready 0 (s.configRanges 0) = true
      ∧ (s.part 0).assize.awaiting = false ∧ (s.part 0).statsBucket = none
      ∧ s.mayWriteReg (partReq 0) ⟨.aszPromoteClr, (0 : Part).val, 0⟩ = true := by decide +kernel

theorem witness_assize_agreement_round :
    let s := boardOf { base with assize := { Assize.init with awaiting := false }, buckets := [(3, statsBucket)] }
    s.live = true ∧ (s.part 0).statsBucket = some (3, statsBucket) ∧ (s.part 0).rounds = []
      ∧ s.mayWriteReg (partReq 0) ⟨.aszCtrl, (0 : Part).val, 0⟩ = true ∧ s.ready 0 (s.configRanges 0) = true := by decide +kernel

/-! ## Grids and contexts -/

/-- LAUNCH of one thread. -/
def launchPkt : Memory := [(0, 0x02), (32, 1), (38, 4)]

theorem witness_launch :
    (packetOn base [] [] launchPkt).PacketAt 0 0 (packetBytes launchPkt) [] ∧ isPacket 0x02 (packetBytes launchPkt) = true
      ∧ (packetOn base [] [] launchPkt).powerRefuses = false ∧ launchHandles (packetBytes launchPkt) = []
      ∧ pktParam (packetBytes launchPkt) 34 6 = 0 ∧ pktParam (packetBytes launchPkt) 26 6 = 0
      ∧ pktParam (packetBytes launchPkt) 13 1 < 2 ∧ launchThreads (packetBytes launchPkt) = 1
      ∧ (packetOn base [] [] launchPkt).diesOf 0 = 0 :: [1, 2, 3]
      ∧ ((packetOn base [] [] launchPkt).part 0).packets = [] ∧ ((packetOn base [] [] launchPkt).core (coreAt 0 0)).contexts = [] :=
  ⟨packet_at (by decide +kernel), by decide +kernel⟩

theorem witness_launch_refused :
    let s := { packetOn base [] [] launchPkt with power := { board.power with unreachable := true } }
    s.PacketAt 0 0 (packetBytes launchPkt) (s.launchRanges 0 (packetBytes launchPkt)) ∧ s.powerRefuses = true :=
  ⟨packet_at (by decide +kernel), by decide +kernel⟩

theorem witness_launch_complete :
    let g := { Packet.init 5 0 (packetBytes launchPkt) with started := true, placed := 1 }
    (holding g).live = true ∧ ((holding g).part 0).packets.find? Packet.gridDone = some g ∧ (holding g).packet? 0 g.id = some g
      ∧ launchChained g.bytes = false := by decide +kernel

/-- PREEMPT and RESUME of one thread. -/
def threadPkt (op action : Byte) (first : List (Nat × Byte) := []) : Memory :=
  [(0, op)] ++ first ++ [(26, 1)] ++ (if action = 0 then [] else [(28, action)])

/-- The board with such a packet and a context, with the halt that it has. -/
def preempting (pkt : Memory) (h : Option HaltInfo) : State :=
  { packetOn base [] [] pkt with cores := [(0, oneContext { Context.init with run := .running, halt := h })] }

theorem witness_preempt : ∀ a ∈ [0, 1],
    (preempting (threadPkt 0x0A (BitVec.ofNat 8 a)) none).PacketAt 0 0 (packetBytes (threadPkt 0x0A (BitVec.ofNat 8 a))) []
      ∧ isPacket 0x0A (packetBytes (threadPkt 0x0A (BitVec.ofNat 8 a))) = true
      ∧ bitOf (pktParam (packetBytes (threadPkt 0x0A (BitVec.ofNat 8 a))) 4 1) 0 = decide (a = 1)
      ∧ (preempting (threadPkt 0x0A (BitVec.ofNat 8 a)) none).namedThreads 0 (packetBytes (threadPkt 0x0A (BitVec.ofNat 8 a))) = some [0]
      ∧ ((preempting (threadPkt 0x0A (BitVec.ofNat 8 a)) none).context 0).preemptible = true := by
  intro a ha
  have hb : a = 0 ∨ a = 1 := by simpa using ha
  rcases hb with rfl | rfl
  · exact ⟨packet_at (by decide +kernel), by decide +kernel, by decide +kernel, by decide +kernel, by decide +kernel⟩
  · exact ⟨packet_at (by decide +kernel), by decide +kernel, by decide +kernel, by decide +kernel, by decide +kernel⟩

/-- A pre-emption's halt. -/
def halted : HaltInfo := ⟨2, none, .scalar, 0, true⟩

theorem witness_preempt_of_a_halted_thread_and_resume :
    (preempting (threadPkt 0x0A 0) (some halted)).namedThreads 0 (packetBytes (threadPkt 0x0A 0)) = some [0]
      ∧ ((preempting (threadPkt 0x0A 0) (some halted)).context 0).preemptible = false
      ∧ (preempting (threadPkt 0x0B 0) (some halted)).PacketAt 0 0 (packetBytes (threadPkt 0x0B 0)) []
      ∧ isPacket 0x0B (packetBytes (threadPkt 0x0B 0)) = true
      ∧ (preempting (threadPkt 0x0B 0) (some halted)).namedThreads 0 (packetBytes (threadPkt 0x0B 0)) = some [0] :=
  ⟨by decide +kernel, by decide +kernel, packet_at (by decide +kernel), by decide +kernel, by decide +kernel⟩

theorem witness_preempt_and_resume_of_a_core_that_is_not :
    (preempting (threadPkt 0x0A 0 [(25, 0x14)]) none).namedThreads 0 (packetBytes (threadPkt 0x0A 0 [(25, 0x14)])) = none
      ∧ isPacket 0x0A (packetBytes (threadPkt 0x0A 0 [(25, 0x14)])) = true
      ∧ (preempting (threadPkt 0x0B 0 [(25, 0x14)]) none).namedThreads 0 (packetBytes (threadPkt 0x0B 0 [(25, 0x14)])) = none
      ∧ isPacket 0x0B (packetBytes (threadPkt 0x0B 0 [(25, 0x14)])) = true := by decide +kernel

theorem witness_context_halted : ∀ ends ∈ [false, true],
    let k := { Packet.init 5 0 (packetBytes (threadPkt 0x0A 0)) with started := true, pending := [(0 : Thread).toNat] }
    let s := holding k base (oneContext { Context.init with run := .running, preempt := some (5, ends) })
    s.live = true ∧ coreExists (threadCore 0) = true ∧ s.threadPart 0 = 0 ∧ (s.context 0).halt = none
      ∧ (s.context 0).run = .running ∧ (s.context 0).busy = false ∧ (s.context 0).preempt = some (5, ends)
      ∧ (s.part 0).packets = [k] ∧ pktOpcode k.bytes = 0x0A ∧ k.pending = [(0 : Thread).toNat] ∧ k.ended = false := by decide +kernel

/-- The board with a running context, stop unit 3 armed on it or not. -/
def stopped (regs : Sparse DWord) (h : Option HaltInfo) : State :=
  boardOf base (oneContext { Context.init with run := .running, halt := h, move := { StreamState.init with count := 4 } }) [] regs

theorem witness_stop_unit_arm : ∀ n ∈ [4, 5],
    let s := stopped [(0xE00068, BitVec.ofNat 64 n)] none
    s.live = true ∧ s.mayWriteReg (partReq 0) ⟨.dbgStopCtrl, (3 : Fin 16).val, 0⟩ = true ∧ s.stopWritable 0 3 = true
      ∧ s.stopPart (0x80030000 : BitVec 32).toNat = some 0 ∧ stopThread (0x80030000 : BitVec 32).toNat = 0
      ∧ stopStream (0x80030000 : BitVec 32).toNat = .move ∧ s.regN .dbgStopCount (3 : Fin 16).val = n := by decide +kernel

theorem witness_thread_dump_and_stop_unit_resume :
    let s := stopped [(0xE00060, 0x80030000)] (some ⟨0, some 3, .move, 4, false⟩)
    s.live = true ∧ coreExists (threadCore 0) = true ∧ (s.context 0).halt = some ⟨0, some 3, .move, 4, false⟩
      ∧ (s.context 0).busy = false ∧ s.mayWriteReg (partReq 0) ⟨.dbgStopResume, (3 : Fin 16).val, 0⟩ = true
      ∧ s.stopWritable 0 3 = true ∧ s.stopHalted 3 = true ∧ s.stopPart (s.regN .dbgStopCtrl (3 : Fin 16).val) = some 0
      ∧ stopThread (s.regN .dbgStopCtrl (3 : Fin 16).val) = 0 := by decide +kernel

/-- The same with its partition's dump address in a page of the host on port 1. -/
def dumping : State :=
  boardOf { base with pageTable := base.pageTable ++ [(16, ⟨true, true, .host, 1, false, false, 5⟩)] }
    (oneContext { Context.init with run := .running, halt := some ⟨1, none, .move, 4, false⟩ }) []
    [(0xE00060, 0x80030000), (0xE80008, 0x2000000)]

theorem witness_thread_dump_to_a_host :
    (dumping.context 0).halt = some ⟨1, none, .move, 4, false⟩ ∧ (dumping.context 0).busy = false
      ∧ dumping.regN .dbgDumpAddr (dumping.threadPart 0).val / 256 * 256 = 0x2000000
      ∧ dumping.place (dumping.threadPart 0) 0x2000000 = .host 1 0xA00000
      ∧ dumping.regN .evtCtrl (coreSource (threadCore 0) 0).toNat = 0 := by decide +kernel

theorem witness_stop_unit_resume_without_effect :
    (stopped [(0xE00060, 0x80030000)] none).mayWriteReg (partReq 0) ⟨.dbgStopResume, (3 : Fin 16).val, 0⟩ = true
      ∧ (stopped [(0xE00060, 0x80030000)] none).stopWritable 0 3 = true
      ∧ (stopped [(0xE00060, 0x80030000)] none).stopHalted 3 = false := by decide +kernel

/-! ## Tensors, slots and pages -/

/-- TENSOR_ALLOC of one row of eight elements of a format, of any extent. -/
def allocPkt (fmt extent : Byte) : Memory := [(0, 0x04), (24, 0x40 ||| fmt)] ++ (if extent = 0 then [] else [(32, extent)])

/-- The registers of Surveyor's tables: descriptors at page 8, slots at page 9, the placement log at page 14. -/
def surveyor : Sparse DWord := [(0x200000, 0x1000000), (0x200008, 0x1200000), (0x200010, 0x1C00000)]

/-- The board with such a packet. -/
def allocating (fmt extent : Byte) : State := packetOn base surveyor [] (allocPkt fmt extent)

theorem witness_tensor_alloc_refused :
    (allocating 2 0).PacketAt 0 0 (packetBytes (allocPkt 2 0)) ((allocating 2 0).handleRanges 0 0)
      ∧ isPacket 0x04 (packetBytes (allocPkt 2 0)) = true ∧ pktHandle (packetBytes (allocPkt 2 0)) 0 = 0
      ∧ allocShapeBad (packetBytes (allocPkt 2 0)) = true :=
  ⟨packet_at (by decide +kernel), by decide +kernel, by decide +kernel, by decide +kernel⟩

theorem some_of_isSome {α : Type} {o : Option α} (d : α) (h : o.isSome = true) : o = some (o.getD d) := by
  cases o with
  | none => cases h
  | some x => rfl

/-- The bytes of that packet, and the place found for its tensor. -/
def allocBytes : List Byte := packetBytes (allocPkt 2 8)
def place1 : Option Placed :=
  let w := (allocating 2 8).taken 0 0
  let set := w.stripeOf 0 1 (allocDesc 1 allocBytes).hints (allocDesc 1 allocBytes).footprint none
  let auto := w.stripeOf 0 1 0 (allocDesc 1 allocBytes).footprint none
  w.placeFirst 0 (set.1, set.2.2) (auto.1, auto.2.2) (allocDesc 1 allocBytes).footprint (tierOrder (allocDesc 1 allocBytes)).1
def placed1 : Placed := place1.getD ⟨0, board, 0, 0, [], 0⟩

theorem log_apart {s : State} {p : Part} {a n b k : Nat} (hk : 0 < k)
    (h : (List.range k).all (fun i => (linesOf a n).all (fun l => (linesOf (b + i * 32) 32).all (fun l' =>
        decide (s.place p l ≠ s.place p l')))) = true) (i : Nat) : s.Apart p a n (b + i % k * 32) 32 :=
  apart (List.all_eq_true.1 h (i % k) (List.mem_range.2 (Nat.mod_lt _ hk)))

theorem witness_tensor_alloc :
    (allocating 2 8).PacketAt 0 0 allocBytes ((allocating 2 8).handleRanges 0 0) ∧ isPacket 0x04 allocBytes = true
      ∧ pktHandle allocBytes 0 = 0 ∧ allocShapeBad allocBytes = false
      ∧ ((allocating 2 8).part 0).freeHandle = some 1 ∧ place1 = some placed1 ∧ pktParam allocBytes 36 1 % 2 = 0
      ∧ placed1.state.FreeHbm 0 (placed1.state.descAddr 0 1) 128 :=
  ⟨packet_at (by decide +kernel), by decide +kernel, by decide +kernel, by decide +kernel, by decide +kernel,
    some_of_isSome _ (by decide +kernel), by decide +kernel, free_lines (by decide +kernel)⟩

theorem witness_tensor_alloc_apart_from_the_log (i : Nat) :
    placed1.state.Apart 0 (placed1.state.descAddr 0 1) 128
      (placed1.state.regN .survLogBase (0 : Part).val + i % placed1.state.regN .survLogSize (0 : Part).val * 32) 32 := by
  have hs : placed1.state.regN .survLogSize (0 : Part).val = 64 := by decide +kernel
  have hb : placed1.state.regN .survLogBase (0 : Part).val = 0x1C00000 := by decide +kernel
  rw [hs, hb]
  exact log_apart (by decide) (by decide +kernel) i

/-- TENSOR_ALLOC of 2^31 rows of 2^31 bytes. -/
def hugePkt : Memory := [(0, 0x04), (24, 0x82), (35, 0x80), (39, 0x80)]

theorem witness_tensor_alloc_with_no_room :
    let s := packetOn base surveyor [] hugePkt
    let w := s.taken 0 0
    let bs := packetBytes hugePkt
    let set := w.stripeOf 0 1 (allocDesc 1 bs).hints (allocDesc 1 bs).footprint none
    let auto := w.stripeOf 0 1 0 (allocDesc 1 bs).footprint none
    s.PacketAt 0 0 bs (s.handleRanges 0 0) ∧ isPacket 0x04 bs = true ∧ pktHandle bs 0 = 0 ∧ allocShapeBad bs = false ∧ (s.part 0).freeHandle = some 1
      ∧ (w.placeFirst 0 (set.1, set.2.2) (auto.1, auto.2.2) (allocDesc 1 bs).footprint (tierOrder (allocDesc 1 bs)).1).isNone = true :=
  ⟨packet_at (by decide +kernel), by decide +kernel, by decide +kernel, by decide +kernel, by decide +kernel,
    by decide +kernel⟩

/-- A packet of an opcode that names tensor 1. -/
def namePkt (op : Byte) (more : Memory := []) : Memory := [(0, op), (16, 1)] ++ more

/-- The board with it and the descriptors. -/
def naming (pkt : Memory) (h : Memory := descriptors) : State := packetOn base surveyor h pkt

theorem witness_tensor_free_and_hint_checks :
    (naming (namePkt 0x05)).PacketAt 0 0 (packetBytes (namePkt 0x05)) ((naming (namePkt 0x05)).handleRanges 0 1)
      ∧ isPacket 0x05 (packetBytes (namePkt 0x05)) = true ∧ pktHandle (packetBytes (namePkt 0x05)) 0 = 1
      ∧ ((naming (namePkt 0x05)).taken 0 0).checkHandle 0 1 = .ok tensor1
      ∧ ((naming (namePkt 0x05) []).taken 0 0).checkHandle 0 1 = .fail stHandle false :=
  ⟨packet_at (by decide +kernel), by decide +kernel, by decide +kernel, by decide +kernel, by decide +kernel⟩

theorem witness_place_hint :
    (naming (namePkt 0x06)).PacketAt 0 0 (packetBytes (namePkt 0x06)) ((naming (namePkt 0x06)).handleRanges 0 1)
      ∧ isPacket 0x06 (packetBytes (namePkt 0x06)) = true ∧ pktHandle (packetBytes (namePkt 0x06)) 0 = 1
      ∧ ((naming (namePkt 0x06)).taken 0 0).checkHandle 0 1 = .ok tensor1
      ∧ ((naming (namePkt 0x06)).taken 0 0).FreeHbm 0 (((naming (namePkt 0x06)).taken 0 0).descAddr 0 1 + 120) 4 :=
  ⟨packet_at (by decide +kernel), by decide +kernel, by decide +kernel, by decide +kernel, free_lines (by decide +kernel)⟩

/-- What Surveyor keeps of tensor 1, of one page: page 11. -/
def tensorAt11 : Tensor := ⟨11, 1, 0x200000, 0x1600000, 0, 1, [0], 0, .resident, true, false⟩

theorem witness_tensor_free_takes_effect :
    let f := Packet.init 5 0 (packetBytes (namePkt 0x05))
    let s := boardOf { base with packets := [f], tensors := [(1, tensorAt11)] } Core.init [] surveyor
    s.live = true ∧ s.running 0 = true ∧ (s.part 0).waitingPacket 0x05 = some f ∧ s.packet? 0 f.id = some f
      ∧ s.earlierDone 0 f.id = true ∧ pktHandle f.bytes 0 = 1 ∧ s.handleBusy 0 1 = false
      ∧ Sparse.find? (s.part 0).tensors 1 = some tensorAt11 ∧ (s.part 0).moving 1 = false ∧ pageSize ≤ tensorAt11.bytes
      ∧ s.FreeHbm 0 (s.descAddr 0 1) 128
      ∧ (linesOf (s.descAddr 0 1) 128).all (fun l => decide (pageIndex l = some 8)) = true :=
  ⟨by decide +kernel, by decide +kernel, by decide +kernel, by decide +kernel, by decide +kernel, by decide +kernel,
    ⟨by decide +kernel, by decide +kernel, by decide +kernel, by decide +kernel, free_lines (by decide +kernel), by decide +kernel⟩⟩

/-- SLOT_OPEN of a slot of pool 1, one layer, one token a page. -/
def openPkt : Memory := namePkt 0x18 [(32, 1), (34, 1)]

theorem witness_slot_open :
    let s := naming openPkt
    let w := s.taken 0 0
    s.PacketAt 0 0 (packetBytes openPkt) (s.handleRanges 0 1) ∧ isPacket 0x18 (packetBytes openPkt) = true
      ∧ pktHandle (packetBytes openPkt) 0 = 1 ∧ s.freeSlot 0 = some 0 ∧ w.checkHandle 0 1 = .ok tensor1
      ∧ s.ownsSync 0 (BitVec.ofNat 15 (pktParam (packetBytes openPkt) 17 2)) = true ∧ pktParam (packetBytes openPkt) 13 2 = 0
      ∧ (w.allocTable 0).isSome = true :=
  ⟨packet_at (by decide +kernel), by decide +kernel, by decide +kernel, by decide +kernel, by decide +kernel, by decide +kernel,
    by decide +kernel, by decide +kernel⟩

/-- SLOT_CLOSE of slot 0, and a slot. -/
def closePkt : Memory := [(0, 0x19)]
def slot0 : Slot := ⟨1, 1, 1, 0, 3, 0, 0, 0x1200000, false⟩

theorem witness_slot_close :
    (packetOn { base with slots := [(0, slot0)] } surveyor [] closePkt).PacketAt 0 0 (packetBytes closePkt) []
      ∧ isPacket 0x19 (packetBytes closePkt) = true
      ∧ (packetOn { base with slots := [(0, slot0)] } surveyor [] closePkt).slot? 0 (pktParam (packetBytes closePkt) 0 2) = some slot0
      ∧ (packetOn base surveyor [] closePkt).PacketAt 0 0 (packetBytes closePkt) []
      ∧ (packetOn base surveyor [] closePkt).slot? 0 (pktParam (packetBytes closePkt) 0 2) = none :=
  ⟨packet_at (by decide +kernel), by decide +kernel, by decide +kernel, packet_at (by decide +kernel), by decide +kernel⟩

theorem witness_slot_close_takes_effect_and_growth :
    let f := Packet.init 5 0 (packetBytes closePkt)
    let s := boardOf { base with packets := [f], slots := [(0, slot0)], growSignals := 1 } Core.init [] surveyor
    s.live = true ∧ s.running 0 = true ∧ (s.part 0).waitingPacket 0x19 = some f ∧ s.packet? 0 f.id = some f
      ∧ s.earlierDone 0 f.id = true ∧ s.slot? 0 (pktParam f.bytes 0 2) = some slot0 ∧ 0 < (s.part 0).growSignals := by
  decide +kernel

/-- Page 11's way to a host frame, to start or under way, or back. -/
def leaving (started : Bool) : Migration := ⟨1, 11, true, started, 5, 0, .host, 11, .hbm, 0, 0, 0⟩
def returning : Migration := ⟨1, 11, false, false, 0, 0, .hbm, 5, .host, 0, 0, 0⟩

/-- The board with tensor 1 on page 11 and that migration. -/
def moving (m : Migration) : State := boardOf { base with tensors := [(1, tensorAt11)], migrations := [m] } Core.init [] surveyor

theorem witness_page_migration_start :
    (moving (leaving false)).live = true ∧ ((moving (leaving false)).part 0).flying < 64
      ∧ (moving (leaving false)).nextMigration 0 = some (leaving false)
      ∧ (moving returning).nextMigration 0 = some returning ∧ (moving returning).prefetchFrame 0 returning = some 0 := by decide +kernel

theorem witness_page_copy_complete :
    ((moving (leaving true)).part 0).migrations.find? (fun x => x.started && decide (x.page = (11 : BitVec 21).toNat))
        = some (leaving true)
      ∧ (leaving true).toRead = 0 ∧ (leaving true).inFlight = 0 ∧ (moving (leaving true)).frameWaits (leaving true).oldFrame = false
      ∧ (moving (leaving true)).ownedLines (leaving true).oldFrame = []
      ∧ Sparse.find? ((moving (leaving true)).part 0).tensors 1 = some tensorAt11 ∧ tensorAt11.leaving = false := by decide +kernel

theorem witness_old_frame_free : ∀ r ∈ [((11, .hbm, 0, 11) : Nat × PageTarget × Nat × Nat), (11, .host, 3, 5)],
    let s := boardOf { base with retired := [r] }
    s.live = true ∧ (s.part 0).retired.find? (fun x => decide (x.1 = (11 : BitVec 21).toNat)) = some r
      ∧ (r.2.1 = .hbm → s.heldLines r.2.2.2 = []) ∧ (r.2.1 = .host → r.2.2.1 < 4) := by decide +kernel

/-- Tensor 1, offloadable, after a launch of layer 1 in FORWARD, with an arena on port A or none. -/
def triggered (arena : Sparse DWord) : State :=
  { boardOf { base with phase := 1, tensors := [(1, tensorAt11)], launches := [⟨9, 1, 1, 1, false⟩] } Core.init [] (surveyor ++ arena) with
    hbm := [(0x1000089, 0x20)] }

theorem witness_offload_trigger : ∀ x ∈ [(([] : Sparse DWord), false), ([(0x200080, 0x100000000000), (0x200088, 0x400000)], true)],
    (triggered x.1).running 0 = true ∧ Sparse.find? ((triggered x.1).part 0).tensors (1 : Handle).toNat = some tensorAt11
      ∧ tensorAt11.armed = true ∧ tensorAt11.leaving = false ∧ tensorAt11.off = .resident
      ∧ (triggered x.1).offloadable 0 (1 : Handle).toNat tensorAt11 = true
      ∧ ((triggered x.1).part 0).offloadTrigger (hintLayer ((triggered x.1).desc 0 (1 : Handle).toNat).hints) = true
      ∧ ((triggered x.1).arenaFrames 0 tensorAt11.pages).isSome = x.2
      ∧ ((upTo tensorAt11.pages).map (fun j => tensorAt11.firstPage + j)).filter
          (fun i => decide ((((triggered x.1).part 0).page i).target ≠ .host)) = [11] := by decide +kernel

theorem witness_offload_of_a_tensor_with_nothing_to_move :
    let t : Tensor := { tensorAt11 with firstPage := 16 }
    let s : State := { boardOf { base with
                 phase := 1
                 tensors := [(1, t)]
                 launches := [⟨9, 1, 1, 1, false⟩]
                 pageTable := base.pageTable ++ [(16, ⟨true, true, .host, 0, false, false, 5⟩)] } Core.init [] surveyor with
               hbm := [(0x1000089, 0x20)] }
    s.running 0 = true ∧ s.offloadable 0 (1 : Handle).toNat t = true
      ∧ (s.part 0).offloadTrigger (hintLayer (s.desc 0 (1 : Handle).toNat).hints) = true ∧ (s.part 0).migrations = []
      ∧ ((upTo t.pages).map (fun j => t.firstPage + j)).filter (fun i => decide (((s.part 0).page i).target ≠ .host)) = [] := by
  decide +kernel

/-- SET_PHASE to FORWARD, at once or with drain. -/
def phasePkt (drain : List (Nat × Byte)) : Memory := [(0, 0x07), (24, 1)] ++ drain

theorem witness_set_phase :
    (packetOn base [] [] (phasePkt [])).PacketAt 0 0 (packetBytes (phasePkt [])) [] ∧ isPacket 0x07 (packetBytes (phasePkt [])) = true
      ∧ pktParam (packetBytes (phasePkt [])) 1 1 = 0
      ∧ (packetOn base [] [] (phasePkt [(25, 1)])).PacketAt 0 0 (packetBytes (phasePkt [(25, 1)])) []
      ∧ isPacket 0x07 (packetBytes (phasePkt [(25, 1)])) = true ∧ pktParam (packetBytes (phasePkt [(25, 1)])) 1 1 ≠ 0 :=
  ⟨packet_at (by decide +kernel), by decide +kernel, by decide +kernel, packet_at (by decide +kernel), by decide +kernel,
    by decide +kernel⟩

theorem witness_set_phase_takes_effect :
    let f := Packet.init 5 0 (packetBytes (phasePkt [(25, 1)]))
    let s := boardOf { base with packets := [f], drainPhase := some (5, 1) }
    s.live = true ∧ s.running 0 = true ∧ (s.part 0).drainPhase = some (f.id, 1) ∧ s.packet? 0 f.id = some f
      ∧ s.earlierDone 0 f.id = true := by decide +kernel

/-! ## Copies -/

/-- One row of 64 elements at page 15, like tensor 4. -/
def tensor5 : Desc := { tensor4 with handle := 5, base := 0x1E00000, check := 0xDB325BD3 }
/-- None of 64 elements. -/
def tensor6 : Desc := { tensor4 with handle := 6, base := 0x1A10000, ext := [0, 1, 0, 0, 0, 0], check := 0x455053FC }
/-- 64 elements of another format. -/
def tensor7 : Desc := { tensor4 with handle := 7, base := 0x1A20000, control := 0x2000000000083, check := 0xD1A6B9EA }

/-- Those descriptors too. -/
def descriptors2 : Memory := descriptors ++
  ([(642, 224), (643, 1), (648, 130), (654, 2), (656, 64), (660, 64), (672, 1), (676, 1), (680, 64), (696, 64),
    (764, 211), (765, 91), (766, 50), (767, 219), (770, 161), (771, 1), (776, 130), (782, 2), (788, 64), (800, 1),
    (804, 1), (808, 64), (824, 64), (892, 252), (893, 83), (894, 80), (895, 69), (898, 162), (899, 1), (904, 131),
    (910, 2), (912, 64), (916, 64), (928, 1), (932, 1), (936, 64), (952, 64), (1020, 234), (1021, 185), (1022, 166),
    (1023, 209)] : List (Nat × Byte)).map (fun e => (0x1000000 + e.1, e.2))

/-- COPY from a handle to a handle, and the board with it. -/
def copyPkt (h0 h1 : Byte) : Memory := [(0, 0x03), (16, h0), (18, h1)]
def copying (h0 h1 : Byte) : State := packetOn base surveyor descriptors2 (copyPkt h0 h1)

theorem witness_copy :
    (copying 4 5).PacketAt 0 0 (packetBytes (copyPkt 4 5)) ((copying 4 5).copyRanges 0 (packetBytes (copyPkt 4 5)))
      ∧ isPacket 0x03 (packetBytes (copyPkt 4 5)) = true ∧ (copying 4 5).powerRefuses = false
      ∧ ((copying 4 5).taken 0 0).copyOnReserve 0 (packetBytes (copyPkt 4 5)) = false
      ∧ ((copying 4 5).taken 0 0).checkHandle 0 (pktHandle (packetBytes (copyPkt 4 5)) 0) = .ok tensor4
      ∧ ((copying 4 5).taken 0 0).checkHandle 0 (pktHandle (packetBytes (copyPkt 4 5)) 1) = .ok tensor5
      ∧ ((copying 4 5).taken 0 0).mappedRw 0 tensor5.base tensor5.footprint = true ∧ tensor4.fmt = tensor5.fmt
      ∧ overDest tensor4 tensor5 = none ∧ tensor4.isEmpty = false ∧ tensor4.rowCount = 1 :=
  ⟨packet_at (by decide +kernel), by decide +kernel⟩

theorem witness_copied_row :
    tensor4.rowAddr (tensor4.rowIndex 0) = 0x1800000 ∧ tensor5.rowAddr (tensor4.rowIndex 0) = 0x1E00000
      ∧ ((copying 4 5).taken 0 0).FreeHbm 0 0x1800000 64 ∧ ((copying 4 5).taken 0 0).FreeHbm 0 0x1E00000 64
      ∧ ((copying 4 5).taken 0 0).Apart 0 0x1800000 64 0x1E00000 64
      ∧ ((copying 4 5).taken 0 0).Apart 0 0x1800000 64 (((copying 4 5).taken 0 0).descAddr 0 5) 128 :=
  ⟨by decide +kernel, by decide +kernel, free_lines (by decide +kernel), free_lines (by decide +kernel), apart (by decide +kernel),
    apart (by decide +kernel)⟩

theorem witness_copy_of_nothing_and_of_another_format :
    (copying 6 5).PacketAt 0 0 (packetBytes (copyPkt 6 5)) ((copying 6 5).copyRanges 0 (packetBytes (copyPkt 6 5)))
      ∧ ((copying 6 5).taken 0 0).checkHandle 0 6 = .ok tensor6 ∧ overDest tensor6 tensor5 = none ∧ tensor6.isEmpty = true
      ∧ (copying 4 7).PacketAt 0 0 (packetBytes (copyPkt 4 7)) ((copying 4 7).copyRanges 0 (packetBytes (copyPkt 4 7)))
      ∧ ((copying 4 7).taken 0 0).checkHandle 0 7 = .ok tensor7 ∧ tensor4.fmt ≠ tensor7.fmt :=
  ⟨packet_at (by decide +kernel), by decide +kernel, by decide +kernel, by decide +kernel, packet_at (by decide +kernel),
    by decide +kernel, by decide +kernel⟩

theorem witness_copy_without_power :
    let s := { copying 4 5 with power := { board.power with unreachable := true } }
    s.PacketAt 0 0 (packetBytes (copyPkt 4 5)) (s.copyRanges 0 (packetBytes (copyPkt 4 5))) ∧ s.powerRefuses = true :=
  ⟨packet_at (by decide +kernel), by decide +kernel⟩

/-- REQUANT_COPY of tensor 1 into tensor 3 of a partition. -/
def requantPkt (q : Byte) : Memory := [(0, 0x14), (16, 1), (18, 3)] ++ (if q = 0 then [] else [(24, q)])

/-- The board with it; partition 0 may hand over to a set of partitions, and may hold a number of requests queued. -/
def requantOn (q : Byte) (targets bound : Nat) (q0 : Partition := base) : State :=
  { packetOn q0 [] [] (requantPkt q) with
    regs := [(0x00, 0x1A00000), (0x10, 0x1C00000), (0x20, 1)]
      ++ tableWords.map (fun e => if e.1 = 0x100120 then (e.1, BitVec.ofNat 64 (0x7FFF0000 + bound + targets * 2 ^ 32)) else e) }

theorem witness_requant_copy_not_granted :
    (requantOn 1 0 16).PacketAt 0 0 (packetBytes (requantPkt 1)) [] ∧ isPacket 0x14 (packetBytes (requantPkt 1)) = true
      ∧ requantDest (packetBytes (requantPkt 1)) = 1 ∧ (requantOn 1 0 16).powerRefuses = false
      ∧ (requantOn 1 0 16).requantAllowed 0 (packetBytes (requantPkt 1)) = false ∧ (requantOn 1 0 16).handoverTo 0 1 = false
      ∧ ((requantOn 1 0 16).taken 0 0).admission 0 (reqKey 1 3) = .served false :=
  ⟨packet_at (by decide +kernel), by decide +kernel, by decide +kernel, by decide +kernel, by decide +kernel, by decide +kernel,
    by decide +kernel⟩

theorem witness_requant_copy_to_a_partition_that_does_not_run :
    (requantOn 1 2 16).PacketAt 0 0 (packetBytes (requantPkt 1)) [] ∧ (requantOn 1 2 16).handoverTo 0 1 = true
      ∧ (requantOn 1 2 16).running 1 = false := ⟨packet_at (by decide +kernel), by decide +kernel, by decide +kernel⟩

/-- A partition that copies into tensor 3 already. -/
def copyingAlready : Partition := { base with units := [⟨9, reqKey 0 3, false, 0⟩] }

theorem witness_requant_copy_with_a_full_queue :
    (requantOn 0 0 0 copyingAlready).PacketAt 0 0 (packetBytes (requantPkt 0)) [] ∧ (requantOn 0 0 0 copyingAlready).running 0 = true
      ∧ ((requantOn 0 0 0 copyingAlready).taken 0 0).admission 0 (reqKey 0 3) = .refused stQueueFull :=
  ⟨packet_at (by decide +kernel), by decide +kernel, by decide +kernel⟩

theorem witness_requant_copy :
    (requantOn 0 0 16).PacketAt 0 0 (packetBytes (requantPkt 0)) [] ∧ isPacket 0x14 (packetBytes (requantPkt 0)) = true
      ∧ requantDest (packetBytes (requantPkt 0)) = 0 ∧ (requantOn 0 0 16).powerRefuses = false
      ∧ (requantOn 0 0 16).requantAllowed 0 (packetBytes (requantPkt 0)) = true ∧ (requantOn 0 0 16).running 0 = true
      ∧ ((requantOn 0 0 16).taken 0 0).admission 0 (reqKey 0 3) = .served false :=
  ⟨packet_at (by decide +kernel), by decide +kernel, by decide +kernel, by decide +kernel, by decide +kernel, by decide +kernel,
    by decide +kernel⟩

/-- Eight formed scale entries of INT8 at page 10. -/
def entries : Memory := (List.range 8).flatMap (fun i => [(0x140000C + 16 * i, 0x05), (0x140000D + 16 * i, 0x02)])

/-- That copy at work, its place taken. -/
def copier (placed : Nat) : Packet := { Packet.init 5 0 (packetBytes (requantPkt 0)) with started := true, placed := placed }
def requanting (placed : Nat) : State :=
  { boardOf { base with packets := [copier placed] } Core.init [] surveyor with hbm := descriptors ++ entries }

theorem witness_requant_copy_start :
    (requanting 0).live = true ∧ (requanting 0).running 0 = true ∧ ((requanting 0).part 0).requantNext = some (copier 0)
      ∧ (requanting 0).packet? 0 5 = some (copier 0) ∧ (requanting 0).earlierDone 0 5 = true
      ∧ (requanting 0).requantHeld 0 (copier 0).bytes = false ∧ (requanting 0).requantAllowed 0 (copier 0).bytes = true
      ∧ (requanting 0).ready 0 ((requanting 0).requantRanges 0 (copier 0).bytes) = true
      ∧ (requanting 0).ready 0 ((requanting 0).requantDestRanges 0 (copier 0).bytes) = true
      ∧ (requanting 0).mappedRw 0 tensor3.base tensor3.footprint = true ∧ tensor1.fmt < 8 ∧ tensor3.fmt < 8
      ∧ tensor1.scaleAxis = tensor3.scaleAxis ∧ overDest tensor1 tensor3 = none ∧ tensor1.isEmpty = false
      ∧ (requanting 0).firstPoisoned 0 ((requanting 0).requantRanges 0 (copier 0).bytes) = none := by decide +kernel

theorem witness_requant_copy_handles :
    (requanting 0).checkHandle 0 1 true = .ok tensor1 ∧ (requanting 0).checkHandle 0 3 true = .ok tensor3
      ∧ (List.range 8).all (fun i => entryOk ((requanting 0).memEntry 0 tensor1 i) (some tensor1.fmt) tensor1.firstPass) = true := by decide +kernel

/-- The same of one row: tensor 4 into tensor 5, in the proportional mode. -/
def rowCopier : Packet :=
  { Packet.init 5 0 (packetBytes [(0, 0x14), (16, 4), (18, 5), (25, 1)]) with started := true }
def rowEntries : Memory := (List.range 64).flatMap (fun i => [(0x140000C + 16 * i, 0x05), (0x140000D + 16 * i, 0x02)])
def rowRequanting : State :=
  { boardOf { base with packets := [rowCopier] } Core.init [] surveyor with hbm := descriptors2 ++ rowEntries }

theorem witness_requant_copy_of_a_row :
    rowRequanting.live = true ∧ (rowRequanting.part 0).requantNext = some rowCopier ∧ rowRequanting.packet? 0 5 = some rowCopier
      ∧ rowRequanting.earlierDone 0 5 = true ∧ rowRequanting.requantAllowed 0 rowCopier.bytes = true
      ∧ rowRequanting.requantHeld 0 rowCopier.bytes = false
      ∧ rowRequanting.ready 0 (rowRequanting.requantRanges 0 rowCopier.bytes) = true
      ∧ rowRequanting.ready 0 (rowRequanting.requantDestRanges 0 rowCopier.bytes) = true
      ∧ rowRequanting.mappedRw 0 tensor5.base tensor5.footprint = true ∧ tensor4.scaleAxis = tensor5.scaleAxis
      ∧ overDest tensor4 tensor5 = none ∧ tensor4.isEmpty = false
      ∧ rowRequanting.firstPoisoned 0 (rowRequanting.requantRanges 0 rowCopier.bytes) = none := by decide +kernel

theorem witness_requant_copy_of_a_row_handles :
    rowRequanting.checkHandle 0 4 true = .ok tensor4 ∧ rowRequanting.checkHandle 0 5 true = .ok tensor5
      ∧ (List.range 64).all (fun i => entryOk (rowRequanting.memEntry 0 tensor4 i) (some tensor4.fmt) tensor4.firstPass) = true
      ∧ tensor4.rowCount = 1 ∧ fmtBits tensor5.fmt = 8 ∧ requantMeasured rowCopier.bytes = false
      ∧ tensor4.extent tensor4.scaleAxis = 64 ∧ tensor5.rowAddr (tensor4.rowIndex 0) = 0x1E00000 ∧ tensor4.extent 0 = 64 := by
  decide +kernel

theorem witness_requant_copy_of_a_row_target : rowRequanting.FreeHbm 0 0x1E00000 64 := free_lines (by decide +kernel)

theorem witness_handover_done :
    (requanting 1).live = true ∧ (requanting 1).running 0 = true ∧ ((requanting 1).part 0).requantDone = some (copier 1)
      ∧ (requanting 1).packet? 0 5 = some (copier 1)
      ∧ (requanting 1).writesWait 0 ((requanting 1).desc 0 (pktHandle (copier 1).bytes 1)) = false
      ∧ (requanting 1).partialsOut 0 (pktHandle (copier 1).bytes 1) = false := by decide +kernel

/-! ## The Update Die -/

/-- Descriptors of a master, a momentum and a gradient of 64 elements: tensors 10, 11 and 13, in page 14. -/
def stateDescriptors : Memory :=
  ([(1282, 193), (1283, 1), (1288, 77), (1296, 64), (1300, 64), (1320, 128), (1321, 1), (1404, 51), (1405, 38),
    (1406, 108), (1407, 215), (1410, 194), (1411, 1), (1416, 72), (1424, 64), (1428, 64), (1448, 64), (1532, 152),
    (1533, 54), (1534, 80), (1535, 38), (1666, 195), (1667, 1), (1672, 74), (1680, 64), (1684, 64), (1704, 128),
    (1788, 2), (1789, 6), (1790, 169), (1791, 146)] : List (Nat × Byte)).map (fun e => (0x1000000 + e.1, e.2))

/-- The parameter table's one entry, at page 12: rule 1, its working tensor 4, bucket 3, sync object 3. -/
def ptab : Memory :=
  ([(2, 10), (4, 11), (8, 13), (10, 4), (14, 2), (16, 0xFF), (17, 0xFF), (20, 3), (22, 3), (24, 1), (40, 64)] : Memory).map
    (fun e => (0x1810000 + e.1, e.2))

/-- The registers of the Update Die: every page in the state region, the table, a place for the Assize record. -/
def updateRegs : Sparse DWord :=
  surveyor ++ [(0xA00000, 0x1000000), (0xA00008, 0x1000000), (0xA00010, 0x1810000), (0xA00018, 1), (0xA00048, 0x1A20000)]

/-- A gradient bucket that has had its round of step 0. -/
def gradBucket : Bucket := ⟨0, false, true, 128, 13, 13, [0], 0, 1, 3, 3, 0, 0, 4, 0, 0, some 0, 0, 0xFFFF⟩

/-- UPDATE_STEP of one entry or of none, or a rewrite. -/
def updPkt (count flags : Byte) : Memory :=
  [(0, 0x11)] ++ (if count = 0 then [] else [(54, count)]) ++ [(56, 0xFF), (57, 0x0F)] ++ (if flags = 0 then [] else [(58, flags)])

/-- The board with it, and the step that STEP_END left. -/
def updating (pkt : Memory) (n : Option Nat) : State :=
  packetOn { base with buckets := [(3, gradBucket)], update := { Update.init with stepEnd := n } } updateRegs
    (descriptors ++ stateDescriptors ++ ptab) pkt

theorem witness_update_step_refused_and_empty :
    (updating (updPkt 1 0) none).PacketAt 0 0 (packetBytes (updPkt 1 0)) ((updating (updPkt 1 0) none).updRanges 0 (packetBytes (updPkt 1 0)))
      ∧ isPacket 0x11 (packetBytes (updPkt 1 0)) = true ∧ usRewrite (packetBytes (updPkt 1 0)) = false
      ∧ ((updating (updPkt 1 0) none).part 0).update.stepEnd = none
      ∧ (updating (updPkt 0 0) (some 0)).PacketAt 0 0 (packetBytes (updPkt 0 0)) ((updating (updPkt 0 0) (some 0)).updRanges 0 (packetBytes (updPkt 0 0)))
      ∧ isPacket 0x11 (packetBytes (updPkt 0 0)) = true ∧ usCount (packetBytes (updPkt 0 0)) = 0 :=
  ⟨packet_at (by decide +kernel), by decide +kernel, by decide +kernel, by decide +kernel, packet_at (by decide +kernel),
    by decide +kernel, by decide +kernel⟩

theorem witness_update_step : ∀ f ∈ [0, 4],
    isPacket 0x11 (packetBytes (updPkt 1 (BitVec.ofNat 8 f))) = true
      ∧ usRewrite (packetBytes (updPkt 1 (BitVec.ofNat 8 f))) = decide (f = 4)
      ∧ packetOk (updating (updPkt 1 (BitVec.ofNat 8 f)) (some 0)) (packetBytes (updPkt 1 (BitVec.ofNat 8 f)))
          ((updating (updPkt 1 (BitVec.ofNat 8 f)) (some 0)).updRanges 0 (packetBytes (updPkt 1 (BitVec.ofNat 8 f)))) = true
      ∧ usCount (packetBytes (updPkt 1 (BitVec.ofNat 8 f))) ≠ 0
      ∧ ((updating (updPkt 1 (BitVec.ofNat 8 f)) (some 0)).taken 0 0).poisoned 0 0x1810000 64 = false
      ∧ ((updating (updPkt 1 (BitVec.ofNat 8 f)) (some 0)).taken 0 0).admission 0 updKey = .served false := by decide +kernel

/-- A partition with sixteen units of the Update Die at work, and none that it may hold queued. -/
def busyUpdate : State :=
  { packetOn { base with units := List.replicate 16 ⟨9, updKey, false, 0⟩, update := { Update.init with stepEnd := some 0 } } [] []
      (updPkt 1 0) with
    regs := [(0x00, 0x1A00000), (0x10, 0x1C00000), (0x20, 1)]
      ++ tableWords.map (fun e => if e.1 = 0x100120 then (e.1, 0x7FFF0000) else e) ++ updateRegs }

theorem witness_update_step_with_a_full_queue :
    busyUpdate.PacketAt 0 0 (packetBytes (updPkt 1 0)) (busyUpdate.updRanges 0 (packetBytes (updPkt 1 0)))
      ∧ (busyUpdate.taken 0 0).admission 0 updKey = .refused stQueueFull := ⟨packet_at (by decide +kernel), by decide +kernel⟩

theorem witness_update_step_checks : ∀ f ∈ [0],
    ((updating (updPkt 1 (BitVec.ofNat 8 f)) (some 0)).taken 0 0).updCheck 0 (packetBytes (updPkt 1 (BitVec.ofNat 8 f)))
      (((updating (updPkt 1 (BitVec.ofNat 8 f)) (some 0)).taken 0 0).ptabEntries 0 (packetBytes (updPkt 1 (BitVec.ofNat 8 f)))) = none := by
  decide +kernel

/-- The board with that UPDATE_STEP at work on its one entry, after a step. -/
def entryBytes : List Byte := (List.range 64).map (fun i => Memory.read ptab (0x1810000 + i))
def updPacket : Packet := { Packet.init 5 0 (packetBytes (updPkt 1 0)) with started := true }
def job (f : UpdJob → UpdJob := id) : UpdJob := f (mkJob updPacket [entryBytes] 0)
def working (j : UpdJob) (poisoned : Sparse Bool := []) : State :=
  { boardOf { base with packets := [updPacket], buckets := [(3, gradBucket)], update := { Update.init with jobs := [j] } } Core.init []
      ([(0x101018, 1)] ++ updateRegs) with
    hbm := descriptors ++ stateDescriptors ++ ptab, hbmPoison := poisoned }

theorem witness_update_pass_one_entry :
    (working job).live = true ∧ (working job).running 0 = true ∧ ((working job).part 0).updJob = some (job, updPacket)
      ∧ job.entries.find? (fun y => decide (y.index = 0)) = some ⟨0, entryBytes, none, []⟩
      ∧ (working job).oneReady 0 job ⟨0, entryBytes, none, []⟩ = true ∧ (working job).updServes 0 = true
      ∧ (working job).ready 0 ((working job).passOneRanges 0 ⟨0, entryBytes, none, []⟩) = true
      ∧ (working job).passOne 0 entryBytes ((working job).frozenNow 0 entryBytes) = .inl 0
      ∧ (working job [(0x1C30000 / 64, true)]).passOne 0 entryBytes ((working job).frozenNow 0 entryBytes) = .inr 0 := by
  decide +kernel

/-- The job with its norm, and in pass two with its entry written. -/
def normed : UpdJob := job (fun j => { j with norm := some 0x7F800000 })
def writtenJob : UpdJob := job (fun j => { j with norm := some 0, passTwo := true, written := 1 })

theorem witness_update_pass_two_start :
    (working normed).live = true ∧ (working normed).running 0 = true ∧ ((working normed).part 0).updJob = some (normed, updPacket)
      ∧ normed.passTwo = false ∧ normed.norm.isSome = true ∧ normed.boundStep < (working normed).regN .partStep (0 : Part).val
      ∧ normed.normPoison = false ∧ (working normed).wordsFinal 0 normed = true ∧ ((working normed).part 0).update.overlaps normed = false
      ∧ (working normed).updLinked 0 ((working normed).passTwoRanges 0 normed updPacket) = true ∧ (working normed).updServes 0 = true
      ∧ (working normed).ready 0 ((working normed).passTwoRanges 0 normed updPacket) = true
      ∧ (v32 ((normed.norm.getD 0).toNat)).finite = false := by decide +kernel

theorem witness_entry_release :
    (working writtenJob).live = true ∧ ((working writtenJob).part 0).updJob = some (writtenJob, updPacket)
      ∧ writtenJob.released < writtenJob.written ∧ writtenJob.entries[writtenJob.released]? = some ⟨0, entryBytes, none, []⟩
      ∧ (working writtenJob).entryVisible 0 writtenJob entryBytes = true
      ∧ writtenJob.released + 1 = writtenJob.entries.length := by decide +kernel

/-! ## Checkpoints and mirrors -/

/-- A port that is up, with received cells. -/
def upPort (rx : List Cell := []) : FabPort := { FabPort.init with state := .up, mode := some 0, rx := rx }

/-- The board with that port as port 2, a partition and registers. -/
def onPort (q : Partition) (f : FabPort) (regs : Sparse DWord := []) : State :=
  { boardOf q Core.init [] regs with fabric := [(2, f)] }

/-- CHECKPOINT or RESTORE over port 2, and the board whose partition has that port or has none. -/
def mirrorPkt (op : Byte) : Memory := [(0, op), (24, 2)]
def portless (pkt : Memory) : State :=
  { packetOn base [] [] pkt with
    regs := [(0x00, 0x1A00000), (0x10, 0x1C00000), (0x20, 1)]
      ++ tableWords.map (fun e => if e.1 = 0x100100 then (e.1, 0x000FFFF1) else e) }

theorem witness_checkpoint_and_restore : ∀ n ∈ [0x12, 0x13],
    packetOk (portless (mirrorPkt (BitVec.ofNat 8 n))) (packetBytes (mirrorPkt (BitVec.ofNat 8 n))) [] = true
      ∧ isPacket n (packetBytes (mirrorPkt (BitVec.ofNat 8 n))) = true
      ∧ (portless (mirrorPkt (BitVec.ofNat 8 n))).ownsFab 0 (mirrorPort (packetBytes (mirrorPkt (BitVec.ofNat 8 n)))).val = false
      ∧ packetOk (packetOn base [] [] (mirrorPkt (BitVec.ofNat 8 n))) (packetBytes (mirrorPkt (BitVec.ofNat 8 n))) [] = true
      ∧ (packetOn base [] [] (mirrorPkt (BitVec.ofNat 8 n))).ownsFab 0 (mirrorPort (packetBytes (mirrorPkt (BitVec.ofNat 8 n)))).val = true
      ∧ ((packetOn base [] [] (mirrorPkt (BitVec.ofNat 8 n))).taken 0 0).admission 0 updKey = .served false := by decide +kernel

/-- The packet at work, a checkpoint's job and a restore's. -/
def mirrorPacket (op : Byte) : Packet := { Packet.init 5 0 (packetBytes (mirrorPkt op)) with started := true }
def ckptJob (stage : Nat) (flying : List (Nat × Nat)) : CkptJob := ⟨5, 2, 1, stage, [], flying, 3, 2⟩
def restoreJob (chosen : Option (List Byte)) : RestoreJob := ⟨5, 2, none, none, chosen, 0⟩
def mirroring (op : Byte) (u : Update) (f : FabPort := upPort) : State :=
  onPort { base with packets := [mirrorPacket op], update := u } f
    [(0xA00000, 0x1A00000), (0xA00008, 0x100000), (0xA00010, 0x1A30000), (0xA00018, 1), (0xA00048, 0x1C20000)]

theorem witness_checkpoint_start :
    let s := mirroring 0x12 Update.init
    let kept := s.savedNow 0
    s.live = true ∧ s.running 0 = true ∧ (s.part 0).servedPacket 0x12 = some (mirrorPacket 0x12)
      ∧ (s.part 0).update.ckpt = none ∧ s.earlierDone 0 5 = true ∧ (s.mirrorLink 2).isSome = true
      ∧ s.ready 0 (s.ckptRanges 0) = true ∧ (s.fab (mirrorPort (mirrorPacket 0x12).bytes)).state = .up
      ∧ kept.1.length = 64 + 16 * recordGroups kept.1 ∧ recordGroups kept.1 = 0 ∧ s.savedLength 0 0 = 128
      ∧ s.regN .updPtabBase (0 : Part).val = 0x1A30000 ∧ s.regN .updPtabCount (0 : Part).val = 1
      ∧ s.FreeHbm 0 0x1C20000 128 ∧ s.Apart 0 0x1A30000 64 0x1C20000 128 :=
  ⟨by decide +kernel, by decide +kernel, by decide +kernel, by decide +kernel, by decide +kernel, by decide +kernel,
    ⟨by decide +kernel, by decide +kernel, by decide +kernel, by decide +kernel, by decide +kernel, by decide +kernel,
      by decide +kernel, free_lines (by decide +kernel), apart (by decide +kernel)⟩⟩

/-- A checkpoint whose acknowledgement has come. -/
def ackCell : Cell := mkCell tyMirrorAck 0 77 true true false (List.replicate 32 0)
def acked (stage : Nat) : State :=
  mirroring 0x12 { Update.init with ckpt := some (ckptJob stage [(0x5000, 77)]) } (upPort [ackCell])

theorem witness_mirror_ack : ∀ stage ∈ [1, 2],
    (acked stage).live = true ∧ (acked stage).headCell 2 tyMirrorAck = some ackCell
      ∧ (match (acked stage).ackOwner 2 ackCell.target.toNat with
          | some (p, j, key, rest) => decide (p = 0) && decide (j = ckptJob stage [(0x5000, 77)]) && decide (key = 0x5000) && rest.isEmpty
          | none => false) = true
      ∧ (acked stage).packet? 0 (ckptJob stage [(0x5000, 77)]).packet = some (mirrorPacket 0x12) := by decide +kernel

theorem witness_checkpoint_ack_timeout :
    (acked 1).packet? 0 5 = some (mirrorPacket 0x12) ∧ ((acked 1).part 0).update.ckpt = some (ckptJob 1 [(0x5000, 77)])
      ∧ (ckptJob 1 [(0x5000, 77)]).flying ≠ []
      ∧ ((mirroring 0x13 { Update.init with restore := some (restoreJob none) }).part 0).update.ckpt = none
      ∧ ((mirroring 0x13 { Update.init with restore := some (restoreJob none) }).part 0).update.restore = some (restoreJob none)
      ∧ (mirroring 0x13 { Update.init with restore := some (restoreJob none) }).packet? 0 5 = some (mirrorPacket 0x13) := by decide +kernel

theorem witness_restore_start :
    (mirroring 0x13 Update.init).live = true ∧ (mirroring 0x13 Update.init).running 0 = true
      ∧ ((mirroring 0x13 Update.init).part 0).servedPacket 0x13 = some (mirrorPacket 0x13)
      ∧ ((mirroring 0x13 Update.init).part 0).update.restore = none
      ∧ ((mirroring 0x13 Update.init).part 0).packets = [mirrorPacket 0x13]
      ∧ ((mirroring 0x13 Update.init).mirrorLink 2).isSome = true
      ∧ ((mirroring 0x13 Update.init).fab (mirrorPort (mirrorPacket 0x13).bytes)).state = .up := by decide +kernel

/-- A slot header's answer, and bytes of the slot that follow a chosen header. -/
def headCell0 : Cell := mkCell tyMirrorData 0 0 true true false (List.replicate 64 0)
def slotCell : Cell := mkCell tyMirrorData 0 0x200000 true true false (List.replicate 32 7)
def restoring (c : Cell) (chosen : Option (List Byte)) : State :=
  mirroring 0x13 { Update.init with restore := some (restoreJob chosen) } (upPort [c])

theorem witness_mirror_data :
    (restoring headCell0 none).live = true ∧ (restoring headCell0 none).headCell 2 tyMirrorData = some headCell0
      ∧ allParts.find? (fun q => ((restoring headCell0 none).part q).update.restore.any (fun r => decide (r.port = 2))) = some 0
      ∧ headCell0.target.toNat = 0 ∧ headCell0.poison = false
      ∧ (restoring slotCell (some (List.replicate 64 0))).headCell 2 tyMirrorData = some slotCell
      ∧ slotCell.target.toNat = pageSize + field (List.replicate 64 0) 24 8 % 2
          * (restoring slotCell (some (List.replicate 64 0))).regN .updStateSize (0 : Part).val + 0
      ∧ 0 + slotCell.payload.length < (restoring slotCell (some (List.replicate 64 0))).regN .updStateSize (0 : Part).val
      ∧ (restoring slotCell (some (List.replicate 64 0))).FreeHbm 0
          ((restoring slotCell (some (List.replicate 64 0))).regN .updStateBase (0 : Part).val + 0) 32 :=
  ⟨by decide +kernel, by decide +kernel, by decide +kernel, by decide +kernel, by decide +kernel, by decide +kernel, by decide +kernel,
    by decide +kernel, free_lines (by decide +kernel)⟩

/-- The board that keeps a mirror region of page 13 for the rank behind port 2, and a message of that rank. -/
def mirrorOfRank (src : DWord) (c : Cell) : State :=
  onPort base (upPort [c]) [(0xA00020, 0x1A00000), (0xA00028, 0x1000), (0xA00030, 2), (0xA00038, src)]
def writeCell (last : Bool) (at' : Nat := 0x40) : Cell := mkCell tyMirrorWrite 9 at' true last false (List.replicate 32 7)
def readCell : Cell := mkCell tyMirrorRead 9 0x40 true true false (padPayload 32 (leBytes 4 64))

theorem witness_mirror_write : ∀ last ∈ [false, true],
    (mirrorOfRank 0xFFFFFFFF (writeCell last)).live = true
      ∧ (mirrorOfRank 0xFFFFFFFF (writeCell last)).headCell 2 tyMirrorWrite = some (writeCell last)
      ∧ (mirrorOfRank 0xFFFFFFFF (writeCell last)).mirrorOf 2 = some 0
      ∧ (writeCell last).target.toNat + 32 ≤ (mirrorOfRank 0xFFFFFFFF (writeCell last)).regN .updMirrorSize (0 : Part).val
      ∧ (writeCell last).payload.length = 32
      ∧ (mirrorOfRank 0xFFFFFFFF (writeCell last)).regN .updMirrorBase (0 : Part).val + (writeCell last).target.toNat = 0x1A00040 := by
  decide +kernel

/-- The same in the middle of a message, whole so far or not. -/
def mirrorMiddle (ok first : Bool) : State :=
  onPort base { upPort [{ writeCell true with first := first }] with rxMirror := [(9, ok)] }
    [(0xA00020, 0x1A00000), (0xA00028, 0x1000), (0xA00030, 2), (0xA00038, 0xFFFFFFFF)]

theorem witness_mirror_write_in_the_middle_of_a_message : ∀ x ∈ [(true, false), (false, false), (true, true)],
    (mirrorMiddle x.1 x.2).headCell 2 tyMirrorWrite = some { writeCell true with first := x.2 }
      ∧ ((mirrorMiddle x.1 x.2).fab 2).rxMirror.find? (fun m => decide (m.1 = (writeCell true).tag)) = some ((writeCell true).tag, x.1)
      ∧ (mirrorMiddle x.1 x.2).mirrorOf 2 = some 0 ∧ ((mirrorMiddle x.1 x.2).fab 2).violations = []
      ∧ 1 ≤ (mirrorMiddle x.1 x.2).regN .fabViolLimit
      ∧ (mirrorMiddle x.1 x.2).regN .evtCtrl (0x1030 + (2 : FPort).val) = 0 := by decide +kernel

theorem witness_mirror_write_with_no_message_under_way :
    ((mirrorOfRank 0xFFFFFFFF (writeCell true)).fab 2).rxMirror = [] ∧ ((mirrorOfRank 7 (writeCell true)).fab 2).rxMirror = [] := by
  decide +kernel

theorem witness_mirror_write_target :
    (mirrorOfRank 0xFFFFFFFF (writeCell true)).FreeHbm 0 0x1A00040 32 := free_lines (by decide +kernel)

theorem witness_mirror_write_outside :
    (mirrorOfRank 7 (writeCell true)).mirrorOf 2 = none
      ∧ (mirrorOfRank 0xFFFFFFFF (writeCell true 0xFF8)).mirrorOf 2 = some 0
      ∧ (mirrorOfRank 0xFFFFFFFF (writeCell true 0xFF8)).regN .updMirrorSize (0 : Part).val
          < (writeCell true 0xFF8).target.toNat + (writeCell true 0xFF8).payload.length
      ∧ ((mirrorOfRank 7 (writeCell true)).fab 2).violations = [] ∧ 1 ≤ (mirrorOfRank 7 (writeCell true)).regN .fabViolLimit
      ∧ (mirrorOfRank 7 (writeCell true)).regN .evtCtrl 0x1080 = 0
      ∧ (mirrorOfRank 7 (writeCell true)).regN .evtCtrl (0x1030 + (2 : FPort).val) = 0 := by decide +kernel

theorem witness_mirror_read :
    (mirrorOfRank 0xFFFFFFFF readCell).headCell 2 tyMirrorRead = some readCell ∧ (mirrorOfRank 0xFFFFFFFF readCell).mirrorOf 2 = some 0
      ∧ field readCell.payload 0 4 = 64
      ∧ readCell.target.toNat + 64 ≤ (mirrorOfRank 0xFFFFFFFF readCell).regN .updMirrorSize (0 : Part).val
      ∧ (mirrorOfRank 7 readCell).headCell 2 tyMirrorRead = some readCell ∧ (mirrorOfRank 7 readCell).mirrorOf 2 = none := by
  decide +kernel

/-! ## Windows, puts and gets -/

/-- WINDOW_REGISTER of window 9, of 64 bytes at page 13, and its removal. -/
def windowPkt (flags : Byte) : Memory :=
  [(0, 0x20), (24, 9), (25, flags), (30, 0xFF), (31, 0xFF), (34, 0xFF), (35, 0x7F), (42, 0xA0), (43, 0x01), (48, 64)]
def window9 : Window := ⟨0, 0x1A00000, 64, true, true, 0, 0xFFFF0000, none, none⟩
def windowed (pkt : Memory) (ws : Sparse Window) : State := { packetOn base [] [] pkt with windows := ws }

theorem witness_window_register :
    (windowed (windowPkt 3) []).PacketAt 0 0 (packetBytes (windowPkt 3)) [] ∧ isPacket 0x20 (packetBytes (windowPkt 3)) = true
      ∧ bitOf (pktParam (packetBytes (windowPkt 3)) 1 1) 2 = false ∧ pktParam (packetBytes (windowPkt 3)) 0 1 = 9
      ∧ Sparse.find? (windowed (windowPkt 3) []).windows 9 = none ∧ pktParam (packetBytes (windowPkt 3)) 10 2 = 0x7FFF
      ∧ ((windowed (windowPkt 3) []).taken 0 0).mapped 0 (pktParam (packetBytes (windowPkt 3)) 16 8) (pktParam (packetBytes (windowPkt 3)) 24 8) = true
      ∧ ((windowed (windowPkt 3) []).taken 0 0).mappedRw 0 (pktParam (packetBytes (windowPkt 3)) 16 8) (pktParam (packetBytes (windowPkt 3)) 24 8) = true
      ∧ (windowed (windowPkt 3) [(9, window9)]).PacketAt 0 0 (packetBytes (windowPkt 3)) []
      ∧ Sparse.find? (windowed (windowPkt 3) [(9, window9)]).windows 9 ≠ none :=
  ⟨packet_at (by decide +kernel), by decide +kernel, by decide +kernel, by decide +kernel, by decide +kernel, by decide +kernel,
    by decide +kernel, by decide +kernel, packet_at (by decide +kernel), by decide +kernel⟩

theorem witness_window_deregister :
    (windowed (windowPkt 4) [(9, window9)]).PacketAt 0 0 (packetBytes (windowPkt 4)) []
      ∧ isPacket 0x20 (packetBytes (windowPkt 4)) = true ∧ bitOf (pktParam (packetBytes (windowPkt 4)) 1 1) 2 = true
      ∧ Sparse.find? (windowed (windowPkt 4) [(9, window9)]).windows 9 = some window9 ∧ window9.part = 0
      ∧ (windowed (windowPkt 4) [(9, window9)]).windows = [(9, window9)] ∧ window9.leaving = none
      ∧ (windowed (windowPkt 4) [(9, window9)]).windowBusy 9 = false
      ∧ (windowed (windowPkt 4) []).PacketAt 0 0 (packetBytes (windowPkt 4)) []
      ∧ Sparse.find? (windowed (windowPkt 4) []).windows 9 = none :=
  ⟨packet_at (by decide +kernel), by decide +kernel, by decide +kernel, by decide +kernel, by decide +kernel, by decide +kernel,
    by decide +kernel, by decide +kernel, packet_at (by decide +kernel), by decide +kernel⟩

/-- PUT or GET of tensor 4's first 32 bytes over port 2, and the board with it and that port up. -/
def putPkt (op : Byte) : Memory := [(0, op), (16, 4), (24, 2), (25, 9), (32, 32)]
def putting (op : Byte) : State := { packetOn base surveyor descriptors (putPkt op) with fabric := [(2, upPort)] }

theorem witness_put :
    (putting 0x21).PacketAt 0 0 (packetBytes (putPkt 0x21)) ((putting 0x21).putRanges 0 (packetBytes (putPkt 0x21)))
      ∧ isPacket 0x21 (packetBytes (putPkt 0x21)) = true ∧ (putting 0x21).powerRefuses = false
      ∧ putPort (packetBytes (putPkt 0x21)) = 2 ∧ (putting 0x21).ownsFab 0 (2 : FPort).val = true
      ∧ ((putting 0x21).taken 0 0).admission 0 (fabKey (2 : FPort).val) = .served false
      ∧ ((putting 0x21).taken 0 0).checkHandle 0 (pktHandle (packetBytes (putPkt 0x21)) 0) = .ok tensor4
      ∧ putLocal (packetBytes (putPkt 0x21)) + putLength (packetBytes (putPkt 0x21)) ≤ tensor4.footprint
      ∧ ((putting 0x21).fab 2).takesMessages = true :=
  ⟨packet_at (by decide +kernel), by decide +kernel, by decide +kernel, by decide +kernel, by decide +kernel, by decide +kernel,
    by decide +kernel, by decide +kernel, by decide +kernel⟩

theorem witness_get :
    (putting 0x22).PacketAt 0 0 (packetBytes (putPkt 0x22)) ((putting 0x22).handleRanges 0 (pktHandle (packetBytes (putPkt 0x22)) 0))
      ∧ isPacket 0x22 (packetBytes (putPkt 0x22)) = true ∧ (putting 0x22).powerRefuses = false
      ∧ putPort (packetBytes (putPkt 0x22)) = 2 ∧ (putting 0x22).ownsFab 0 (2 : FPort).val = true
      ∧ ((putting 0x22).taken 0 0).admission 0 (fabKey (2 : FPort).val) = .served false
      ∧ ((putting 0x22).taken 0 0).checkHandle 0 (pktHandle (packetBytes (putPkt 0x22)) 0) = .ok tensor4
      ∧ ((putting 0x22).taken 0 0).mappedRw 0 (tensor4.base + 0) 32 = true ∧ ((putting 0x22).fab 2).takesMessages = true :=
  ⟨packet_at (by decide +kernel), by decide +kernel, by decide +kernel, by decide +kernel, by decide +kernel, by decide +kernel,
    by decide +kernel, by decide +kernel, by decide +kernel⟩

/-- A put or get of ours under way, with a cell of its answer. -/
def putPacket (op : Byte) : Packet := { Packet.init 5 0 (packetBytes (putPkt op)) with started := true }
def answering (op : Byte) (c : Cell) : State :=
  onPort { base with packets := [putPacket op] }
    { upPort [c] with txMessages := [⟨3, decide (op = 0x22), 5, 0, 0x1800000, 32, 0⟩] }

theorem witness_put_ack : ∀ status ∈ [0, 4],
    let c := mkCell tyPutAck 3 status true true false (List.replicate 32 0)
    (answering 0x21 c).live = true ∧ (answering 0x21 c).headCell 2 tyPutAck = some c
      ∧ ((answering 0x21 c).fab 2).txMessages.find? (fun y => decide (y.tag = c.tag) && !y.isGet)
          = some ⟨3, false, 5, 0, 0x1800000, 32, 0⟩
      ∧ c.target.toNat % 256 ≠ 5 ∧ (answering 0x21 c).packet? 0 5 = some (putPacket 0x21) ∧ (putPacket 0x21).ended = false
      ∧ pktOpcode (putPacket 0x21).bytes = 0x21 := by decide +kernel

theorem witness_get_resp :
    let c := mkCell tyGetResp 3 0 true true false (List.replicate 32 7)
    (answering 0x22 c).live = true ∧ ((answering 0x22 c).fab 2).violations = [] ∧ (answering 0x22 c).headCell 2 tyGetResp = some c
      ∧ ((answering 0x22 c).fab 2).txMessages.find? (fun y => decide (y.tag = c.tag) && y.isGet)
          = some ⟨3, true, 5, 0, 0x1800000, 32, 0⟩
      ∧ c.payload.length = 32 ∧ c.target.toNat = 0 ∧ c.last = true ∧ c.first = true
      ∧ (answering 0x22 c).packet? 0 5 = some (putPacket 0x22) ∧ (putPacket 0x22).ended = false
      ∧ pktOpcode (putPacket 0x22).bytes = 0x22 ∧ (answering 0x22 c).FreeHbm 0 0x1800000 32 :=
  ⟨by decide +kernel, by decide +kernel, by decide +kernel, by decide +kernel, by decide +kernel, by decide +kernel,
    ⟨by decide +kernel, by decide +kernel, by decide +kernel, by decide +kernel, by decide +kernel, free_lines (by decide +kernel)⟩⟩

/-- A port with a cell of a peer's message and the puts under way, and a window that signals object 4. -/
def serving (c : Cell) (puts : List RxPut) : State :=
  { onPort base { upPort [c] with rxPuts := puts } with
    windows := [(9, { window9 with rank := 0xFFFFFFFF, ports := 0xFFFFFFFF, obj := some 4 })] }
def rxPut (written : Nat) (done : Bool) : RxPut := ⟨3, 9, 0, 32, written, 0, done⟩

theorem witness_put_open :
    let c := mkCell tyPutOpen 3 (9 * 2 ^ 40) true false false (padPayload 32 (leBytes 4 32))
    (serving c []).live = true ∧ ((serving c []).fab 2).violations = [] ∧ (serving c []).headCell 2 tyPutOpen = some c
      ∧ c.first = true ∧ ((serving c []).fab 2).rxPuts = [] ∧ field c.payload 0 4 = 32 ∧ bitsOf c.target.toNat 47 40 = 9
      ∧ bitsOf c.target.toNat 39 0 = 0 ∧ putLenOk 32 = true ∧ (serving c []).windowStatus 2 true 9 0 32 = 0
      ∧ ((serving c []).fab 2).inbound < 256 := by decide +kernel

theorem witness_put_data :
    let c := mkCell tyPutData 3 0 false true false (List.replicate 32 7)
    (serving c [rxPut 0 false]).headCell 2 tyPutData = some c
      ∧ ((serving c [rxPut 0 false]).fab 2).rxPuts.find? (fun y => decide (y.tag = c.tag)) = some (rxPut 0 false)
      ∧ c.first = false ∧ (rxPut 0 false).offset ≤ c.target.toNat ∧ c.target.toNat + 32 ≤ 0 + (rxPut 0 false).length
      ∧ c.last = decide ((rxPut 0 false).written + 32 = (rxPut 0 false).length)
      ∧ (Sparse.find? (serving c [rxPut 0 false]).windows 9).map (fun x => x.base + c.target.toNat) = some 0x1A00000
      ∧ (serving c [rxPut 0 false]).FreeHbm 0 0x1A00000 32 :=
  ⟨by decide +kernel, by decide +kernel, by decide +kernel, by decide +kernel, by decide +kernel, by decide +kernel, by decide +kernel,
    free_lines (by decide +kernel)⟩

theorem witness_put_complete_and_mgmt :
    let c := mkCell tyMgmt 3 0 true true false (List.replicate 32 7)
    ((serving c [rxPut 32 true]).fab 2).rxPuts = [rxPut 32 true] ∧ (rxPut 32 true).status = 0
      ∧ (Sparse.find? (serving c [rxPut 32 true]).windows (rxPut 32 true).window).bind (fun x => x.obj) = some 4
      ∧ (serving c [rxPut 32 true]).rangeWaits 0 0x1A00000 32 = false ∧ (serving c [rxPut 32 true]).headCell 2 tyMgmt = some c := by
  decide +kernel

theorem witness_get_req : ∀ x ∈ [(9, 0), (8, 1)],
    let c := mkCell tyGetReq 3 (x.1 * 2 ^ 40) true true false (padPayload 32 (leBytes 4 32))
    (serving c []).headCell 2 tyGetReq = some c ∧ field c.payload 0 4 = 32 ∧ bitsOf c.target.toNat 47 40 = x.1
      ∧ bitsOf c.target.toNat 39 0 = 0 ∧ putLenOk 32 = true ∧ (serving c []).windowStatus 2 false x.1 0 32 = x.2
      ∧ (serving c []).ready 0 [(0x1A00000 + 0, 32)] = true ∧ 1 ≤ (serving c []).regN .fabViolLimit := by decide +kernel

theorem witness_get_req_of_a_length_that_is_not_allowed :
    let c := mkCell tyGetReq 3 (9 * 2 ^ 40) true true false (padPayload 32 (leBytes 4 33))
    (serving c []).headCell 2 tyGetReq = some c ∧ putLenOk (field c.payload 0 4) = false ∧ ((serving c []).fab 2).inbound < 256
      ∧ 1 ≤ (serving c []).regN .fabViolLimit := by decide +kernel

/-! ## Collectives -/

/-- The bucket table at page 12, in which bucket 3 is one of statistics with done object 5, of members 0 and 1 listed at
page 13 plus 4096, or is not valid. -/
def bucketEntry (valid : Bool) : Memory :=
  [(0x18000C4, if valid then 0x11 else 0x01), (0x18000CA, 64), (0x18000D2, 0), (0x18000D3, 0x10), (0x18000D4, 0xC0), (0x18000D5, 0x01),
   (0x18000D8, 2), (0x18000E0, 4), (0x18000E4, 5)].filter (fun e => decide (e.2 ≠ 0))
def memberList : Memory := [(0x1C01004, 1)]

/-- BUCKET_DECLARE of bucket 3, and the board with it, its partition as given. -/
def declarePkt : Memory := [(0, 0x10), (24, 3)]
def declaring (valid : Bool) (rs : List Round) (regs : Sparse DWord := tableWords) : State :=
  { board with
    parts := [(0, { base with rounds := rs })]
    regs := [(0x00, 0x1A00000), (0x10, 0x1C00000), (0x20, 1)] ++ regs ++ [(0x700000, 0), (0x800000, 0x1800000)]
    hbm := bucketEntry valid ++ [(0x1A00000, 0x10), (0x1A00018, 3)] ++ memberList }

theorem witness_bucket_declare : 
    (declaring true []).PacketAt 0 0 (packetBytes declarePkt) ((declaring true []).declareRanges 0 (packetBytes declarePkt))
      ∧ isPacket 0x10 (packetBytes declarePkt) = true ∧ pktParam (packetBytes declarePkt) 0 2 = 3
      ∧ ((declaring true []).taken 0 0).poisoned 0 (((declaring true []).taken 0 0).bucketAddr 0 3) 64 = false
      ∧ entValid ((declaring true []).readVa 0 ((declaring true []).bucketAddr 0 3) 64) = true
      ∧ (declaring true []).roundBegun 0 3 = false :=
  ⟨packet_at (by decide +kernel), by decide +kernel, by decide +kernel, by decide +kernel, by decide +kernel, by decide +kernel⟩

/-- The bucket that it declares. -/
def bucket3 : Bucket := ⟨1, false, false, 64, 0, 0, [0, 1], 0, 0, 0, 5, 0, 0, 4, 0, 0, none, 0, 0xFFFF⟩

theorem witness_bucket_declared :
    let w := (declaring true []).taken 0 0
    let e := w.readVa 0 (w.bucketAddr 0 3) 64
    mkBucket 3 e (sortRanks (w.memberRanks 0 e)) ((declaring true []).regN .fabRank) ((declaring true []).regN .partStep 0) = bucket3
      ∧ bucket3.credits * bucket3.children ≤ (declaring true []).colBuffers 0 ∧ w.declareCheck 0 3 e bucket3.ranks = none
      ∧ (declaring true [] (tableWords.map (fun e => if e.1 = 0x100118 then (e.1, 0x4010001010100000) else e))).colBuffers 0
          < bucket3.credits * bucket3.children := by decide +kernel

/-- A round of it: activated, with a child on ports 2 and 18 or with its parent on port 2. -/
def root3 : Round := { Round.pending 3 2 0 64 0 0 with state := .active, ports := [none, some 2, none, none, some 18, none] }
def leaf3 : Round := { Round.pending 3 2 0 64 0 1 with state := .active, ready := true, ports := [some 2, none, none, none, none, none] }

theorem witness_bucket_declare_refused_and_undeclare :
    (declaring true [{ root3 with state := .reducing }]).roundBegun 0 3 = true
      ∧ (declaring true [{ root3 with state := .reducing }]).PacketAt 0 0 (packetBytes declarePkt)
          ((declaring true [{ root3 with state := .reducing }]).declareRanges 0 (packetBytes declarePkt))
      ∧ (declaring false []).PacketAt 0 0 (packetBytes declarePkt) ((declaring false []).declareRanges 0 (packetBytes declarePkt))
      ∧ entValid ((declaring false []).readVa 0 ((declaring false []).bucketAddr 0 3) 64) = false
      ∧ (declaring false []).roundBegun 0 3 = false :=
  ⟨by decide +kernel, packet_at (by decide +kernel), packet_at (by decide +kernel), by decide +kernel, by decide +kernel⟩

/-- The board with a bucket, a round and the ports of its tree. -/
def gathering (b : Bucket) (r : Round) (rx : List Cell := []) (rank : DWord := 0) : State :=
  { boardOf { base with buckets := [(3, b)], rounds := [r] } Core.init [] [(0x300100, 0x1C10000), (0x700000, rank)] with
    fabric := [(2, { upPort rx with nbrRank := 1 - BitVec.ofNat 32 rank.toNat }), (18, { upPort with nbrRank := 1 - BitVec.ofNat 32 rank.toNat })] }

theorem witness_round_activate :
    let r := Round.pending 3 2 0 64 0 0
    let s := gathering bucket3 r
    s.live = true ∧ s.running 0 = true ∧ (s.part 0).bucket? r.bucket = some bucket3
      ∧ leastRound ((s.part 0).rounds.filter (fun x => decide (x.state = .pending ∧ x.engine = 0))) = some r
      ∧ (s.part 0).incomplete 0 < s.regN .colWindow (0 : Part).val ∧ (s.part 0).openRound r.bucket = none
      ∧ (s.part 0).buffersUsed 0 + bucket3.credits * bucket3.children ≤ s.colBuffers 0
      ∧ (s.part 0).buffersUsed 1 + bucket3.children ≤ s.colBuffers 0
      ∧ s.resolvePorts bucket3 = [none, some 2, none, none, some 18, none]
      ∧ edgeMissing bucket3.edges ([none, some 2, none] : List (Option FPort)) = false
      ∧ edgeMissing bucket3.edges ([none, some 18, none] : List (Option FPort)) = false ∧ s.earlyCredits = []
      ∧ (s.part 0).noneBefore 0 r = true := by
  decide +kernel

/-- The bucket at its second member. -/
def leafBucket : Bucket := { bucket3 with position := 1 }

theorem witness_round_ready :
    let s := gathering leafBucket leaf3 [] 1
    s.live = true ∧ s.running 0 = true ∧ (3 : BitVec 12).toNat = leaf3.bucket ∧ (s.part 0).openRound leaf3.bucket = some leaf3
      ∧ s.round? 0 leaf3 = some leaf3 ∧ (s.part 0).bucket? leaf3.bucket = some leafBucket ∧ s.readyNow leafBucket leaf3 = true
      ∧ s.ready 0 (s.sourceRange 0 leafBucket leaf3) = true ∧ leafBucket.position ≠ 0 ∧ leaf3.creditUp = 0
      ∧ leaf3.mparent = none ∧ leaf3.down = [] := by decide +kernel

theorem witness_round_messages : ∀ x ∈ [1, 2, 3],
    let c := collCtrl leafBucket leaf3 1 x 4
    let s := gathering leafBucket leaf3 [c] 1
    s.live = true ∧ s.running 0 = true ∧ (s.fab 2).violations = [] ∧ (s.part 0).openRound leaf3.bucket = some leaf3
      ∧ s.round? 0 leaf3 = some leaf3 ∧ (s.part 0).bucket? leaf3.bucket = some leafBucket
      ∧ s.headCell 2 tyCollCtrl = some c ∧ s.collOwner c = some (0, leafBucket) ∧ collBucket c = leaf3.bucket
      ∧ ctlStep c = leaf3.step ∧ ctlType c = x ∧ leaf3.parent = some 2 := by decide +kernel

/-- The one cell of chunk 0 of the child's statistics. -/
def chunkCell : Cell := mkCell tyCollData 0 (collTarget 0 3 0 0 0) true true false (List.replicate 64 0)

theorem witness_coll_data :
    let s := gathering bucket3 root3 [chunkCell]
    s.headCell 2 tyCollData = some chunkCell ∧ s.collOwner chunkCell = some (0, bucket3) ∧ collBucket chunkCell = root3.bucket
      ∧ collStepLo chunkCell = root3.step % 16 ∧ collDir chunkCell = 0 ∧ root3.down = []
      ∧ (root3.slot bucket3 2 0 (collChunk chunkCell)).any (fun x => x.1.isEmpty && x.2.2) = true
      ∧ (root3.addCell bucket3 [] chunkCell).isSome = true := by decide +kernel

/-- The same cell in a round of step 1, and a CREDIT for a bucket that no partition has declared. -/
theorem witness_coll_data_of_another_step :
    let r := { root3 with step := 1 }
    let s := gathering bucket3 r [chunkCell]
    s.headCell 2 tyCollData = some chunkCell ∧ s.collOwner chunkCell = some (0, bucket3) ∧ collBucket chunkCell = r.bucket
      ∧ (s.part 0).openRound r.bucket = some r ∧ s.round? 0 r = some r ∧ collStepLo chunkCell ≠ r.step % 16 := by decide +kernel

theorem witness_credit_for_a_bucket_to_come :
    let c := collCtrl bucket3 { root3 with bucket := 4 } 0 1 4
    let s := gathering bucket3 root3 [c]
    s.headCell 2 tyCollCtrl = some c ∧ s.collOwner c = none ∧ ctlType c = 1 ∧ (s.fab 2).violations = [] := by decide +kernel

theorem witness_round_timeouts :
    let r := { root3 with state := .reducing, kept := [(0, [])] }
    let s := gathering bucket3 r
    (3 : BitVec 12).toNat = r.bucket ∧ (s.part 0).openRound r.bucket = some r ∧ s.round? 0 r = some r
      ∧ (s.part 0).bucket? r.bucket = some bucket3 ∧ r.state = .reducing ∧ r.kept = (0, []) :: [] := by decide +kernel

/-! ## Fabric links -/

/-- The board with port 2 as given. -/
def portState (f : FabPort) : State := onPort base f
/-- A port in a state. -/
def inState (st : FabState) : FabPort := { FabPort.init with state := st, mode := some 0, lanesUsed := 15 }

theorem quiet (s : State) (n : FPort)
    (h : (s.fab n).txMessages = [] ∧ (s.fab n).rxPuts = [] ∧ s.windows = []
      ∧ ∀ p, (s.part p).rounds = [] ∧ (s.part p).update.ckpt = none ∧ (s.part p).update.restore = none) : s.FabQuiet n where
  messages := h.1
  puts := h.2.1
  windows := by simp [h.2.2.1]
  rounds := fun p => by simp [(h.2.2.2 p).1]
  mirror := fun p => by simp [(h.2.2.2 p).2.1, (h.2.2.2 p).2.2]

theorem witness_peer_signal_and_detect : ∀ st ∈ [FabState.detect, .retrain, .dark],
    let s := portState { inState st with laneFailed := 1 }
    s.live = true ∧ s.power.fabRefclk.getD (fabIod 2).val true = true ∧ (s.fab 2).laneFrom 0 = some 1 ∧ (s.fab 2).state = st
      ∧ (s.fab 2).backoff = false := by decide +kernel

theorem witness_detect_retry :
    (portState { inState .detect with backoff := true }).live = true
      ∧ ((portState { inState .detect with backoff := true }).fab 2).state = .detect
      ∧ ((portState { inState .detect with backoff := true }).fab 2).backoff = true := by decide +kernel

theorem witness_detect_timeout (st : FabState) (h : st = .detect ∨ st = .boot ∨ st = .train) :
    (portState (inState st)).FabQuiet 2 ∧ ((portState (inState st)).fab 2).state = st := by
  rcases h with rfl | rfl | rfl <;> exact ⟨quiet _ _ (by decide +kernel), by decide +kernel⟩

theorem witness_boot_lane_timeout :
    ((portState (inState .boot)).fab 2).state = .boot ∧ ((portState (inState .boot)).fab 2).laneFrom (0 + 1) = some 1
      ∧ ((portState { inState .boot with bootLane := 3 }).fab 2).laneFrom (3 + 1) = none := by decide +kernel

theorem witness_param :
    let m : Fin 9 := 4
    ((portState (inState .boot)).fab 2).state = .boot ∧ (fabModes.getD m.val (0, 0)).2 ≤ (1 : Fin 3).val
      ∧ laneSet (fabModes.getD m.val (0, 0)).1 ((inState .boot).good &&& (13 : BitVec 4)).toNat = some 12
      ∧ (List.range 4).all (fun k => decide ((1 : Fin 3).val < (fabModes.getD k (0, 0)).2)
          || (laneSet (fabModes.getD k (0, 0)).1 ((inState .boot).good &&& (13 : BitVec 4)).toNat).isNone) = true := by decide +kernel

theorem witness_lane_tests :
    ((portState (inState .train)).fab 2).badLanes [0, 0, 0, 0] 5 = [] ∧ ((portState (inState .train)).fab 2).badLanes [0, 0x3F800000, 0, 0] 5 ≠ []
      ∧ ((portState (inState .up)).fab 2).carriesCells = true ∧ bitOf ((portState (inState .up)).fab 2).lanesUsed.toNat (3 : Fin 4).val = true
      ∧ ((portState (inState .up)).fab 2).badLanes [0, 0, 0, 0] 4 = []
      ∧ ((portState (inState .limited)).fab 2).badLanes [0, 0, 0, 0x3F800000] 4 ≠ [] := by decide +kernel

theorem witness_retrain_limit_expiry :
    ((portState { inState .retrain with away := true }).fab 2).away = true ∧ (portState { inState .retrain with away := true }).FabQuiet 2 :=
  ⟨by decide +kernel, quiet _ _ (by decide +kernel)⟩

/-- A port away with a put of ours under way. -/
def awayPort : FabPort := { inState .retrain with away := true, txMessages := [⟨3, false, 5, 0, 0x1800000, 32, 0⟩] }

theorem witness_retrain_limit_expiry_abandons :
    let s := onPort { base with packets := [putPacket 0x21] } awayPort
    (s.fab 2).txMessages = [⟨3, false, 5, 0, 0x1800000, 32, 0⟩] ∧ (s.setFab 2 { awayPort with txMessages := [] }).FabQuiet 2
      ∧ s.fab 2 = awayPort ∧ s.packet? 0 5 = some (putPacket 0x21) ∧ (putPacket 0x21).ended = false
      ∧ pktOpcode (putPacket 0x21).bytes = 0x21 :=
  ⟨by decide +kernel, quiet _ _ (by decide +kernel), by decide +kernel, by decide +kernel, by decide +kernel, by decide +kernel⟩

/-- A HELLO of rank 6 in domain 0. -/
def helloOf (seen : Bool) : Hello := ⟨seen, 0, 1, 1, 0, 6, 0x1234⟩

theorem witness_hello : ∀ seen ∈ [false, true],
    (helloOf seen).version = 1 ∧ ((portState (inState .hello)).fab 2).state = .hello ∧ ((portState (inState .hello)).fab 2).known = false
      ∧ (helloOf seen).seen = seen := by decide +kernel

theorem witness_rank_and_domain_write : ∀ domain ∈ [false, true],
    (portState (inState .limited)).mayWriteReg 0 ⟨if domain then .fabDomain else .fabRank, 0, 0⟩ = true
      ∧ ((portState (inState .limited)).fab 2).carriesCells = true ∧ ((portState (inState .limited)).fab 3).carriesCells = false := by
  decide +kernel

theorem witness_fab_port_control : ∀ st ∈ [FabState.up, .limited, .isolated, .dark],
    (portState (inState st)).mayWriteReg 0 ⟨.fabPortCtrl, (2 : FPort).val, 0⟩ = true ∧ ((portState (inState st)).fab 2).state = st
      ∧ (portState (inState st)).power.fabRefclk.length = 2 := by decide +kernel

theorem witness_fab_reference :
    (portState (inState .retrain)).power.fabRefclk.length = 2 ∧ fabIod 2 = 0 ∧ ((portState (inState .retrain)).fab 2).state = .retrain
      ∧ ((portState (inState .retrain)).fab 2).laneFrom 0 = some 0 := by decide +kernel

/-- A port with two cells unacknowledged. -/
def sending : FabPort :=
  { inState .up with replay := [{ ackCell with seq := 10 }, { ackCell with seq := 11 }], nextSeq := 12, expectSeq := 7 }

theorem witness_link_ctrl : ∀ k ∈ [0, 1],
    ((portState sending).fab 2).carriesCells = true ∧ (List.replicate 7 (0 : BitVec 16)).length = 7
      ∧ ((portState sending).fab 2).replay.head? = some { ackCell with seq := 10 }
      ∧ BitVec.ofNat 12 (10 + k) = { ackCell with seq := 10 }.seq + BitVec.ofNat 12 k ∧ k < ((portState sending).fab 2).replay.length
      ∧ ((portState sending).fab 2).replay.length ≤ 1536 ∧ ((portState sending).fab 2).waiting = [] := by decide +kernel

theorem witness_sequenced_cell :
    { ackCell with seq := 7 }.seq = ((portState sending).fab 2).expectSeq
      ∧ ((portState sending).fab 2).cellFault { ackCell with seq := 7 } = none
      ∧ ((portState sending).fab 2).cellFault { ackCell with seq := 7, vc := 0 } = some vioType
      ∧ ((portState sending).fab 2).violations = [] ∧ 1 ≤ (portState sending).regN .fabViolLimit
      ∧ (portState sending).regN .evtCtrl (0x1030 + (2 : FPort).val) = 0
      ∧ { ackCell with seq := 9 }.seq ≠ ((portState sending).fab 2).expectSeq ∧ ((portState sending).fab 2).gap = false
      ∧ ((portState { sending with gap := true }).fab 2).gap = true
      ∧ (portState sending).regN .fabUncorrLimit
          ≤ (lastMilli ((portState sending).fabTime 2) (List.replicate 16 0)).length := by decide +kernel

theorem witness_isolation :
    ((portState (inState .isolated)).fab 2).state = .isolated ∧ ((portState sending).fab 2).replay ≠ []
      ∧ (portState sending).regN .evtCtrl (fabSource 2).toNat = 0 ∧ ((portState sending).source (fabSource 2)).held = [] := by
  decide +kernel

/-- A CRC that a cell carries, and one that it does not. -/
theorem witness_cell_crc : ∀ ok ∈ [false, true],
    let crc : BitVec 32 := BitVec.ofNat 32 (field (cellHeader { ackCell with seq := 7 }) 12 4 + b2n (!ok))
    decide (field (cellHeader { ackCell with seq := 7 }) 12 4 = crc.toNat) = ok := by decide +kernel

theorem witness_limited_port_drops_a_cell :
    let c := { ackCell with seq := 7 }
    let s := portState { sending with state := .limited }
    (s.fab 2).carriesCells = true ∧ c.seq = (s.fab 2).expectSeq ∧ (s.fab 2).cellFault c = none ∧ (s.fab 2).state = .limited
      ∧ c.vc ≠ 4 ∧ c.vc ≠ 7 ∧ (s.fab 2).returned.length = 7 ∧ (portState sending).live = true := by decide +kernel

theorem witness_param_outside_boot : ∀ st ∈ [FabState.detect, .train, .hello, .up, .limited, .retrain, .isolated, .dark],
    ((portState (inState st)).fab 2).state ≠ .boot := by decide +kernel

/-! ## Ratil Coherent Link ports -/

/-- The board with RCL port 1 as given. -/
def rclBoard (q : RclPort) (lo hi : Sparse DWord := []) : State := { boardOf base Core.init lo hi with rcl := [(1, q)] }
/-- A port in a state. -/
def rclIn (st : RclState) : RclPort := { RclPort.init with state := st, mode := some 0, lanesUsed := 0xFFFF, features := 0xF }

theorem rcl_quiet (s : State) (k : RPort)
    (h : s.portLines k = [] ∧ (s.rclPort k).reads = [] ∧ (s.rclPort k).unacked = [] ∧ s.heldWrites = [] ∧ s.snoops = []
      ∧ (upTo 8).all (fun n => !s.cohEnabled k n || s.cohRequest k n) = true) : s.RclQuiet k where
  lines := h.1
  reads := h.2.1
  writes := h.2.2.1
  held := h.2.2.2.1
  snoops := h.2.2.2.2.1
  regions := fun n hn he => by
    have := List.all_eq_true.1 h.2.2.2.2.2 n (by simp [upTo]; exact hn)
    simpa [he] using this

theorem rcl_sources_off (q : RclPort) : ∀ k : RPort, (rclBoard q).regN .evtCtrl (rclSource k).toNat = 0 := by
  show ∀ k : RPort, (rclBoard RclPort.init).regN .evtCtrl (rclSource k).toNat = 0
  decide +kernel

theorem witness_rcl_states : ∀ st ∈ [RclState.detect, .retrain, .dark, .param, .train, .isolated, .active],
    (rclBoard (rclIn st)).live = true ∧ ((rclBoard (rclIn st)).rclPort 1).state = st
      ∧ ((rclBoard (rclIn st)).rclPort 1).backoff = false := by decide +kernel

theorem witness_rcl_detect_retry :
    ((rclBoard { rclIn .detect with backoff := true }).rclPort 1).state = .detect
      ∧ ((rclBoard { rclIn .detect with backoff := true }).rclPort 1).backoff = true := by decide +kernel

theorem witness_rcl_detect_timeout (st : RclState) (h : st = .detect ∨ st = .param ∨ st = .train) :
    (rclBoard (rclIn st)).RclQuiet 1 ∧ ((rclBoard (rclIn st)).rclPort 1).state = st := by
  rcases h with rfl | rfl | rfl <;> exact ⟨rcl_quiet _ _ (by decide +kernel), by decide +kernel⟩

/-- The first mode a peer with lanes 8-15 alone and a rate index of 1 has in common is the fifth. -/
theorem witness_rcl_param_flit :
    let q := (rclBoard { rclIn .param with laneFailed := 1 }).rclPort 1
    let good := (~~~ q.laneFailed &&& (0xFF01 : BitVec 16)).toNat
    q.state = .param ∧ q.known = false ∧ (rclModes.getD (4 : Fin 9).val (0, 0)).2 ≤ (1 : Fin 3).val
      ∧ rclLaneSet (rclModes.getD (4 : Fin 9).val (0, 0)).1 good = some 0xFF00
      ∧ ∀ m' : Fin 9, m' < 4 → (rclModes.getD m'.val (0, 0)).2 ≤ (1 : Fin 3).val →
          rclLaneSet (rclModes.getD m'.val (0, 0)).1 good = none := by decide +kernel

theorem witness_rcl_lane_test :
    ((rclBoard (rclIn .train)).rclPort 1).state = .train ∧ ((rclBoard (rclIn .train)).rclPort 1).owed = []
      ∧ (List.range 16).all (fun l => ratioAtMost ((List.replicate 16 (0 : Word)).getD l 0).toNat 6) = true
      ∧ bitOf ((rclBoard (rclIn .train)).rclPort 1).lanesUsed.toNat 3 = true
      ∧ ratioAtMost (([0, 0, 0, 0x3F800000] : List Word).getD 3 0).toNat 6 = false := by decide +kernel

theorem witness_rcl_retrain_limit :
    ((rclBoard { rclIn .retrain with away := true }).rclPort 1).away = true
      ∧ (rclBoard { rclIn .retrain with away := true }).RclQuiet 1 := ⟨by decide +kernel, rcl_quiet _ _ (by decide +kernel)⟩

theorem witness_rcl_port_control : ∀ st ∈ [RclState.isolated, .active, .dark],
    (rclBoard (rclIn st)).mayWriteReg 0 ⟨.rclPortCtrl, (1 : RPort).val, 0⟩ = true ∧ ((rclBoard (rclIn st)).rclPort 1).state = st := by
  decide +kernel

theorem witness_rcl_refclk : rclIod 1 = 0 ∧ ((rclBoard (rclIn .active)).rclPort 1).state = .active ∧ rclIod 2 ≠ 0 := by
  decide +kernel

/-- The headers and messages of these witnesses, and the flit of a message. -/
def flit (kind : BitVec 4) (seq : BitVec 12) : FlitHeader := ⟨kind, seq, 0xFFF, false, 0, 0, 0, 0, 0⟩
def hostMsg (op : BitVec 8) (addr : Nat := 0x1A00000) (data : List Byte := []) : RclMsg :=
  ⟨op, 5, 0, 0, BitVec.ofNat 52 addr, 0, data, false⟩
def flitOf (m : RclMsg) : List Byte := flitBytes (msgFlit (flit 1 0) m)

/-- A flit of a message that comes whole: what `RclFlitsAreAccepted` asks of its bytes. -/
def flitOk (m : RclMsg) : Bool :=
  let f := flitOf m
  let n := (msgUnits m).length
  let us := (upTo n).map (fun i => (f.drop (16 * i + 16)).take 16)
  decide (fecCorrect f = f) && flitCrcOk f && decide ((flitHead f).kind = 1) && decide ((flitHead f).seq = 0) && decide (n ≤ 14)
    && decide ((flitHead f).valid = BitVec.ofNat 14 (2 ^ n - 1)) && decide (rclUnits (BitVec.ofNat 8 (leNat (us.headD []))) = some n)
    && decide (unitsMsg us = m)

theorem witness_flit_accepted : ∀ m ∈ [hostMsg opRdUnc, hostMsg opWrLine 0x1A00000 (List.replicate 64 7), hostMsg opCmp],
    flitOk m = true ∧ ((rclBoard (rclIn .active)).rclPort 1).state = .active
      ∧ ((rclBoard (rclIn .active)).rclPort 1).expectSeq = 0 ∧ ((rclBoard (rclIn .active)).rclPort 1).waiting = []
      ∧ ((rclBoard (rclIn .active)).rclPort 1).rxUnits = [] ∧ ((rclBoard (rclIn .active)).rclPort 1).msgFault m = none := by
  decide +kernel

theorem witness_flit_violates : ∀ m ∈ [hostMsg opRdUnc 0x1A00001, hostMsg opDoorbell 0x1000000000000],
    flitOk m = true ∧ (((rclBoard (rclIn .active)).rclPort 1).msgFault m).isSome = true
      ∧ ((rclBoard (rclIn .active)).rclPort 1).violations = [] ∧ 1 ≤ (rclBoard (rclIn .active)).regN .rclViolLimit
      ∧ (rclBoard (rclIn .active)).regN .evtCtrl (rclSource 1).toNat = 0 := by decide +kernel

theorem witness_flits_with_no_message : ∀ k ∈ [0, 1, 2],
    let f := flitBytes ⟨flit (BitVec.ofNat 4 k) 0, []⟩
    fecCorrect f = f ∧ flitCrcOk f = true ∧ (flitHead f).kind = BitVec.ofNat 4 k ∧ (flitHead f).valid = 0 ∧ (flitHead f).seq = 0 := by
  decide +kernel

theorem witness_flit_corrected : fecCorrect ((flitOf (hostMsg opRdUnc)).set 40 0xFF) = flitOf (hostMsg opRdUnc) := by decide +kernel

theorem witness_flit_dropped :
    let f := flitBytes ⟨flit 1 9, []⟩
    let g := (((flitBytes ⟨flit 1 0, []⟩).set 240 0xFF).set 246 0xFF)
    fecCorrect f = f ∧ (flitHead f).kind = 1 ∧ (flitHead f).seq ≠ ((rclBoard (rclIn .active)).rclPort 1).expectSeq
      ∧ flitCrcOk (fecCorrect g) = false
      ∧ ((rclBoard { rclIn .active with drops := List.replicate 64 0 }).regN .rclCrcLimit)
          ≤ (lastMilli ((rclBoard (rclIn .active)).rclTime 1) (List.replicate 64 0)).length
      ∧ ¬ (rclBoard (rclIn .active)).regN .rclCrcLimit ≤ (lastMilli ((rclBoard (rclIn .active)).rclTime 1) []).length := by
  decide +kernel

theorem witness_rcl_replay :
    ((rclBoard { rclIn .active with replay := [(0, hostMsg opRdUnc)] }).rclPort 1).replay ≠ [] := by decide +kernel

theorem witness_event_holdoff : ∀ off ∈ [false, true],
    let s := rclBoard { rclIn .active with holdoff := [0x20], owed := [0x20] } [] (if off then [(0x900020, 0)] else [])
    bitOf (s.rclPort 1).features.toNat 1 = true ∧ (s.rclPort 1).holdoff = [(0x20 : BitVec 16).toNat] ∧ (s.rclPort 1).owed = [(0x20 : BitVec 16).toNat] ∧ s.partOfRcl 1 = some 0
      ∧ s.heldWrites = [] ∧ (∀ k : RPort, k ≠ 1 → (s.rclPort k).holdoff = [])
      ∧ (s.regN .rclEvtHoldoff = 0 ↔ off = true) := by decide +kernel

/-! ## Messages of a host -/

/-- The board whose port 1 has these messages waiting, requests and responses. -/
def hosting (reqs : List RclMsg) (rsps : List RclMsg := []) (hi : Sparse DWord := []) : State :=
  rclBoard { rclIn .active with reqs := reqs, rsps := rsps } [] hi

theorem witness_rd_unc : ∀ va ∈ [0x1A00000, 0x2800000],
    let s := hosting [hostMsg opRdUnc va, hostMsg opRdUnc]
    s.hostPart 1 = some 0 ∧ s.readsOf 1 opRdUnc = hostMsg opRdUnc va :: [hostMsg opRdUnc] ∧ s.ready 0 [(va, 64)] = true
      ∧ inSync va = false ∧ inMmio va = false ∧ (hostMsg opRdUnc va).addr.toNat = va
      ∧ (s.place 0 va = .unmapped ↔ va = 0x2800000) := by decide +kernel

theorem witness_no_partition :
    let s := { hosting [hostMsg opRdUnc] with boot := { Boot.off with stage := .configured } }
    s.hostPart 1 = none ∧ s.readsOf 1 opRdUnc = hostMsg opRdUnc :: [] ∧ s.live = true := by decide +kernel

/-- A line to write, and a mask with a line. -/
def lineData : List Byte := List.replicate 64 7
def maskData : List Byte := 0xF0 :: (List.replicate 15 0 ++ List.replicate 64 9)

theorem witness_wr_line (m : RclMsg) (h : m ∈ [hostMsg opWrLine 0x1A00040 lineData, hostMsg opWrPartial 0x1A00040 maskData]) :
    (hosting [m]).hostPart 1 = some 0 ∧ (hosting [m]).nextPosted 1 m.opcode = some m ∧ (hosting [m]).FreeHbm 0 0x1A00040 64
      ∧ m.addr.toNat = 0x1A00040 ∧ 0x1A00040 % 64 = 0 ∧ m.data.length = (if m.opcode = opWrLine then 64 else 80) := by
  simp only [List.mem_cons, List.not_mem_nil, or_false] at h
  rcases h with rfl | rfl <;>
    exact ⟨by decide +kernel, by decide +kernel, free_lines (by decide +kernel), by decide +kernel, by decide, by decide +kernel⟩

theorem witness_wr_line_refused :
    let m := hostMsg opWrLine 0x2800000 lineData
    (hosting [m]).place 0 m.addr.toNat = .unmapped ∧ (hosting [m]).nextPosted 1 opWrLine = some m := by decide +kernel

theorem witness_recovery_write :
    let m := hostMsg opWrLine 0x40 lineData
    let s := { rclBoard RclPort.init with
      boot := { Boot.off with stage := .recovery }, rcl := [(0, { rclIn .active with reqs := [m] })] }
    s.live = true ∧ s.hostPart 0 = none ∧ s.recoveryPort 0 = true ∧ inBootSram m.addr.toNat = true ∧ m.data.length = 64
      ∧ s.nextPosted 0 opWrLine = some m := by decide +kernel

theorem witness_mmio_rd :
    let m := { hostMsg opMmioRd 0x220000100000 with sub := 1 }
    (hosting [m]).readsOf 1 opMmioRd = m :: [] ∧ m.sub.getLsbD 0 = true ∧ inMmio m.addr.toNat = true
      ∧ (hosting [m]).ready 0 [(m.addr.toNat, mmioBytes m)] = true := by decide +kernel

theorem witness_mmio_rd_of_a_sync_object :
    let m := hostMsg opMmioRd (0x210000000000 + 64 * 3)
    (hosting [m]).readsOf 1 opMmioRd = m :: [] ∧ m.addr.toNat = 0x210000000000 + 64 * (3 : SyncObj).toNat
      ∧ (hosting [m]).ready 0 [(m.addr.toNat, mmioBytes m)] = true ∧ (hosting [m]).ownsSync 0 3 = true := by decide +kernel

theorem witness_mmio_wr :
    let m := hostMsg opMmioWr 0x220000600000 [5, 0, 0, 0]
    (hosting [m]).nextPosted 1 opMmioWr = some m ∧ inMmio m.addr.toNat = true ∧ mmioBytes m = 4 := by decide +kernel

theorem witness_doorbell :
    let m := hostMsg opDoorbell 3
    (hosting [m]).nextPosted 1 opDoorbell = some m ∧ (hosting [m]).ownsRing 0 (3 : Ring).val = true
      ∧ m.addr.toNat % 4096 = (3 : Ring).val := by decide +kernel

theorem witness_stray_completion :
    let m := hostMsg opCmp 0
    (((hosting [] [m]).rclPort 1).rsps.find? (fun x => decide (x.opcode = opCmp))) = some m
      ∧ ((hosting [] [m]).rclPort 1).violations = [] ∧ 1 ≤ (hosting [] [m]).regN .rclViolLimit
      ∧ (hosting [] [m]).regN .evtCtrl (rclSource 1).toNat = 0 := by decide +kernel

/-! ## Caches of a host -/

/-- Region 0 of port 1 is page 13, and its control bits. -/
def region0 (ctrl : DWord) : Sparse DWord := [(0x901440, ctrl), (0x901480, 0x1A00000), (0x901488, 0x200000)]

/-- Port 1 and its region, with the state in which the hosts of ports 0 and 1 hold line 0x68000, the line at 0x1A00000. -/
def cached (m : Option RclMsg) (low high : CacheState) (rsps : List RclMsg := []) (snoops : List Snoop := []) (ctrl : DWord := 0x101) :
    State :=
  let none' := decide (low = .invalid ∧ high = .invalid)
  { hosting m.toList rsps (region0 ctrl) with
    filters := if none' then [] else
      [(0x68000 * 2, ⟨low, high, if low = .invalid then 0 else 0x1A00000, if high = .invalid then 0 else 0x1A00000, 1⟩)]
    snoops := snoops }

theorem witness_cached_read_granted : ∀ own ∈ [false, true],
    let o := if own then opRdOwn else opRdShared
    let s := cached (some (hostMsg o)) .invalid .invalid
    s.hostPart 1 = some 0 ∧ s.readsOf 1 o = [hostMsg o] ∧ s.cacheable 1 0x1A00000 = true ∧ s.lineOf 0 0x1A00000 = some 0x68000
      ∧ s.writable 0 0x1A00000 = true ∧ s.lineBusy 0x68000 = false ∧ s.victim (rclIod 1) 0x68000 = none
      ∧ (s.rclPort 1).coherent = true ∧ s.snoops = [] ∧ s.inTheWay 1 0x68000 own = [] := by decide +kernel

theorem few_lines_evict_none (s : State) (i : Iod) (line : Nat) (h : s.filters.length < 16) : s.victim i line = none := by
  have : (s.filterSet i line).length < 16 := Nat.lt_of_le_of_lt (List.length_filter_le _ _) h
  simp [State.victim, this]

theorem witness_cached_read_waits : ∀ own ∈ [false, true],
    let o := if own then opRdOwn else opRdShared
    let s := cached (some (hostMsg o)) .owned .invalid
    s.readsOf 1 o = [hostMsg o] ∧ s.cacheable 1 0x1A00000 = true ∧ s.lineOf 0 0x1A00000 = some 0x68000
      ∧ s.writable 0 0x1A00000 = true ∧ s.lineBusy 0x68000 = false ∧ s.filters.length < 16
      ∧ (s.rclPort 1).coherent = true ∧ s.snoops = [] ∧ s.heldWrites = [] ∧ s.tagRoom 0 = true
      ∧ s.inTheWay 1 0x68000 own = [0] := by decide +kernel

theorem witness_cached_read_waits_for_no_victim (own : Bool) :
    (cached (some (hostMsg (if own then opRdOwn else opRdShared))) .owned .invalid).victim (rclIod 1) 0x68000 = none :=
  few_lines_evict_none _ _ _ (by cases own <;> decide)

theorem witness_cached_read_outside : ∀ ctrl ∈ [0, 0x100],
    let s := cached (some (hostMsg opRdOwn)) .invalid .invalid [] [] (BitVec.ofNat 64 ctrl)
    s.readsOf 1 opRdOwn = [hostMsg opRdOwn] ∧ s.cacheable 1 0x1A00000 = false ∧ (s.rclPort 1).violations = []
      ∧ s.heldWrites = []
      ∧ 1 ≤ s.regN .rclViolLimit ∧ s.regN .evtCtrl (rclSource 1).toNat = 0 := by decide +kernel

theorem witness_cached_read_by_a_port_without_caching :
    let s := cached (some (hostMsg opRdOwn)) .invalid .invalid
    let s := { s with rcl := [(1, { s.rclPort 1 with features := 0 })] }
    s.readsOf 1 opRdOwn = [hostMsg opRdOwn] ∧ (s.rclPort 1).coherent = false ∧ (s.rclPort 1).violations = [] ∧ s.heldWrites = [] := by
  decide +kernel

theorem witness_write_back : ∀ snooped ∈ [false, true],
    let m := hostMsg opWb 0x1A00000 lineData
    let s := cached (some m) .invalid .owned [] (if snooped then [⟨1, 0x68000, 0x1A00000, 9, true, false, true⟩] else [])
    s.readsOf 1 opWb = m :: [] ∧ s.inEnabled 1 0x1A00000 = true ∧ s.heldLine 1 0x1A00000 = some 0x68000
      ∧ s.holds 1 0x68000 = .owned ∧ m.data.length = 64 ∧ s.heldWrites = [] ∧ (s.rclPort 1).owed = []
      ∧ (upTo 8).all (fun n => !s.cohEnabled 1 n || s.cohRequest 1 n) = true ∧ (s.rclPort 1).coherent = true ∧ (s.snoops = [] ↔ snooped = false) := by
  decide +kernel

theorem witness_evict_clean :
    let m := hostMsg opEvictClean
    let s := cached (some m) .invalid .shared
    s.nextPosted 1 opEvictClean = some m ∧ s.heldLine 1 0x1A00000 = some 0x68000 ∧ s.holds 1 0x68000 = .shared
      ∧ s.snoops = [] ∧ s.heldWrites = [] := by decide +kernel

theorem witness_data_of_a_read :
    let x := hostMsg opData 0 lineData
    let s := rclBoard { rclIn .active with rsps := [x], reads := [⟨5, 0x200000000040, .buffer⟩] }
    s.hostPart 1 = some 0 ∧ (s.rclPort 1).rsps.find? (fun y => decide (y.opcode = opData)) = some x
      ∧ (s.rclPort 1).reads.find? (fun y => decide (y.tag = x.tag)) = some ⟨5, 0x200000000040, .buffer⟩ := by decide +kernel

theorem witness_snoop_answers : ∀ data ∈ [false, true],
    let x := if data then hostMsg opSnpRspData 0 lineData else hostMsg opSnpRsp 0
    let n : Snoop := ⟨1, 0x68000, 0x1A00000, 5, true, false, true⟩
    let s := cached none .invalid .owned [x] [n]
    s.snoopOf 1 x = some n ∧ s.afterWb 1 x = true ∧ s.heldWrites = []
      ∧ (upTo 8).all (fun n => !s.cohEnabled 1 n || s.cohRequest 1 n) = true ∧ s.holds 1 n.line = .owned
      ∧ (s.rclPort 1).rsps.find? (fun y => decide (y.opcode = if data then opSnpRspData else opSnpRsp) && s.afterWb 1 y) = some x := by
  decide +kernel

theorem witness_snoop_timeout :
    let n : Snoop := ⟨1, 0x68000, 0x1A00000, 5, true, false, true⟩
    let s := cached none .invalid .owned [] [n]
    s.snoops.find? (fun y => y.sent && decide (y.port = 1)) = some n ∧ (s.rclPort 1).violations = [] ∧ 1 ≤ s.regN .rclViolLimit
      ∧ s.regN .evtCtrl (rclSource 1).toNat = 0 ∧ s.heldWrites = [] := by decide +kernel

theorem witness_region_control :
    let a := cached none .invalid .invalid [] [] 0
    let b := cached none .invalid .invalid
    let c := cached none .invalid .owned
    a.hostPart 1 = some 0 ∧ a.mayWriteReg (partReq 0) ⟨.rclCohCtrl, (1 : RPort).val, 0⟩ = true
      ∧ a.cohRequest 1 (0 : Fin 8).val = false ∧ a.cohEnabled 1 (0 : Fin 8).val = false
      ∧ a.regionRefusal 0 1 (0 : Fin 8).val = none
      ∧ b.cohRequest 1 0 = true ∧ b.cohEnabled 1 0 = true ∧ b.regionLines 1 0 = []
      ∧ c.regionLines 1 0 = [(0x68000, 0x1A00000)] ∧ c.snoops = [] ∧ c.tagRoom 1 = true
      ∧ (upTo 8).all (fun n => decide (n = 0) || !c.cohEnabled 1 n || c.cohRequest 1 n) = true
      ∧ b.mayWriteReg (partReq 0) ⟨.rclCohCtrl, (1 : RPort).val, 0⟩ = true := by decide +kernel

/-! ## Partitions -/

/-- The board with its partition in a state. -/
def partIn (st : Nat) : State := boardOf { base with state := st }

theorem witness_partition_start :
    (partIn 0).live = true ∧ (partIn 0).mayWriteReg 0 ⟨.partCtrl, (0 : Part).val, 0⟩ = true ∧ ((partIn 0).part 0).state = 0
      ∧ (partIn 0).mgt.fatal = false ∧ (partIn 0).startRefusal 0 = none ∧ ((partIn 1).part 0).state ≠ 0 ∧ ((partIn 1).part 0).state = 1
      ∧ ((partIn 0).part 0).state ≠ 1 := by decide +kernel

theorem witness_partition_start_refused :
    let s := { partIn 0 with boot := { Boot.off with stage := .firmware, locked := true } }
    s.mayWriteReg 0 ⟨.partCtrl, (0 : Part).val, 0⟩ = true ∧ (s.part 0).state = 0 ∧ s.mgt.fatal = false
      ∧ s.startRefusal 0 = some 0 ∧ s.regN .evtCtrl secSource.toNat = 0 ∧ (s.source secSource).held = [] := by decide +kernel

theorem witness_partition_stopped : ((partIn 2).part 0).state = 2 ∧ (partIn 2).quiet 0 = true := by decide +kernel

theorem witness_admission_unit_freed :
    let k := Packet.init 4 0 (0x11 :: List.replicate 63 0)
    let s := boardOf { base with packets := [k], queues := [(4, 32)] }
    (s.nextQueued updKey).isSome = true ∧ (s.nextQueued updKey).map Prod.fst = some 0 ∧ s.queuedOn 0 updKey = 4 :: []
      ∧ s.packet? 0 4 = some k ∧ pktOpcode k.bytes ∈ [0x11, 0x12, 0x13] := by decide +kernel

/-! ## The governor -/

/-- A die whose rails cover its PLL, by a check. -/
def coveredOk (q : DieState) : Bool :=
  decide (q.volts ≤ q.op) && (match q.pllTo with | some t => decide (q.volts ≤ t) | none => true)
    && (match q.slewTo with
      | some t => decide (t ≤ q.op) && (match q.pllTo with | some t' => decide (t ≤ t') | none => true)
      | none => true)

theorem covered {q : DieState} (h : coveredOk q = true) : q.Covered where
  now := by simp [coveredOk] at h; exact h.1.1
  change := fun t ht => by simp [coveredOk, ht] at h; exact h.1.2
  slew := fun t ht => by
    simp only [coveredOk, ht, Bool.and_eq_true, decide_eq_true_eq] at h
    exact ⟨h.2.1, fun t' ht' => by have := h.2.2; rw [ht'] at this; simpa using this⟩

/-- The board with die 1 as given. -/
def onDie (q : DieState) : State := { board with dies := [(1, q)] }

theorem witness_dies_at_reset_are_covered (d : Die) : (board.die d).Covered :=
  covered (q := DieState.init) (by decide)

theorem witness_pll_change :
    ((onDie { DieState.init with pllTo := some 12, op := 11 }).die 1).Covered
      ∧ ((onDie { DieState.init with pllTo := some 12, op := 11 }).die 1).pllTo = some 12 :=
  ⟨covered (by decide +kernel), by decide +kernel⟩

theorem witness_rail_slew :
    let s := onDie { DieState.init with prefDepth := 4, slewTo := some 4 }
    (s.die 1).Covered ∧ (s.die 1).slewTo = some 4 ∧ (s.die 1).pllTo = none ∧ 4 ≠ (s.die 1).op ∧ depthOp (s.dieDepth 1) = 4 :=
  ⟨covered (by decide +kernel), by decide +kernel, by decide +kernel, by decide +kernel, by decide +kernel⟩

theorem witness_phase_preference : board.partValid 0 = true ∧ (1 : Die) ∈ board.diesOf 0 := by decide +kernel

/-- Window currents in milliamperes: the first rail over its limit, all far below, and the first just below. -/
def overAmps : List Nat := [380001, 0, 0, 0, 0]
def lowAmps : List Nat := [0, 0, 0, 0, 0]
def nearAmps : List Nat := [342000, 0, 0, 0, 0]

theorem witness_rail_window :
    let q := (onDie { DieState.init with sinceRise := 1 }).die 1
    q.mismatch = false ∧ differsBy 20 0 0 = false ∧ loopLimits.getD 0 0 < judged false overAmps lowAmps 0 ∧ 1 ≤ q.sinceRise
      ∧ q.railDepth < 27 ∧ (List.range 5).all (fun i => decide (judged false lowAmps lowAmps i * 100 < loopLimits.getD i 0 * 90)) = true
      ∧ loopLimits.getD 0 0 * 90 ≤ judged false nearAmps lowAmps 0 * 100
      ∧ (List.range 5).all (fun i => decide (judged false nearAmps lowAmps i ≤ loopLimits.getD i 0)) = true
      ∧ differsBy 20 0x42C80000 0x3F800000 = true ∧ 20 ≤ (26 : Fin 27).val ∧ railLimit (26 : Fin 27).val < 4001 := by
  decide +kernel

theorem witness_sensors :
    ((onDie DieState.init).die 1).sensorFailed = 0
      ∧ (List.range 8).all (fun i => goodReading ((List.replicate 8 (some 7000) : List (Option Int)).getD i none)) = true
      ∧ (List.replicate 8 (some (7000 : Int))).getD 0 none = some 7000
      ∧ goodReading (([some 15001] : List (Option Int)).getD 0 none) = false ∧ goodReading (([] : List (Option Int)).getD 0 none) = false := by
  decide +kernel

theorem witness_thermal_window :
    (10000 : Int) ≤ ((onDie { DieState.init with reading := 10000 }).die 1).reading
      ∧ ((onDie { DieState.init with reading := 10000 }).die 1).thermDepth < 27
      ∧ ((onDie { DieState.init with reading := 9499 }).die 1).reading < 9500
      ∧ ((onDie { DieState.init with reading := 9499, hot := true }).die 1).hot = true
      ∧ ((onDie { DieState.init with reading := 9499 }).die 1).hot = false ∧ ((onDie DieState.init).die 1).sensorFailed = 0
      ∧ (9500 : Int) ≤ ((onDie { DieState.init with reading := 9999 }).die 1).reading
      ∧ ((onDie { DieState.init with reading := 9999 }).die 1).reading < 10000
      ∧ (onDie DieState.init).live = true ∧ 0 < (onDie DieState.init).power.railsUp := by decide +kernel

theorem witness_cap_registers :
    board.mayWriteReg 0 ⟨.govCapWatts, 0, 0⟩ = true ∧ board.mayWriteReg mgmtPort ⟨.govBoardCap, 0, 0⟩ = true ∧ board.mayWriteReg 1 ⟨.govBoardCap, 0, 0⟩ = false ∧ (1 : Requester).val < 4 := by
  decide +kernel

/-- The board whose one partition has a cap depth, with the count of quiet windows. -/
def capped (depth quiet : Nat) : State :=
  { boardOf { base with capDepth := depth } with power := { Power.off with
      pwrEn := true, railsUp := 10, vaux := true, pwrGood := true, quietCaps := quiet } }

theorem witness_cap_window_above :
    min ((capped 0 0).regN .govCapWatts) ((capped 0 0).regN .govBoardCap) < 3000 ∧ (capped 0 0).live = true
      ∧ (capped 0 0).validParts = [0] ∧ (capped 0 0).partDepth 0 < 27 ∧ 27 ≤ (capped 27 0).partDepth 0
      ∧ (capped 27 0).validParts = [0] := by decide +kernel

theorem witness_cap_window_below :
    let cap := min ((capped 3 9).regN .govCapWatts) ((capped 3 9).regN .govBoardCap)
    cap ≤ cap ∧ cap * 95 ≤ cap * 100 ∧ 600 ≤ cap ∧ 600 * 100 < cap * 95 ∧ (capped 3 8).power.quietCaps < 9
      ∧ 9 ≤ (capped 3 9).power.quietCaps ∧ (0 : Part) ∈ (capped 3 9).validParts ∧ 0 < ((capped 3 9).part 0).capDepth
      ∧ (∀ q ∈ (capped 3 9).validParts, q = 0) := by decide +kernel

/-! ## Power and reset -/

/-- A module with PWR_EN and so many rails up. -/
def rising (n : Nat) : State := { State.reset with power := { Power.off with pwrEn := true, railsUp := n, vaux := decide (0 < n) } }

theorem witness_power_up :
    State.reset.power.pwrEn = false ∧ (rising 8).power.pwrEn = true ∧ (rising 8).power.failed = false ∧ (rising 8).power.railsUp < 9
      ∧ (rising 9).power.railsUp = 9 ∧ (rising 9).power.brdRefclk = true
      ∧ { (rising 9).power with brdRefclk := false }.brdRefclk = false := by decide +kernel

theorem witness_power_down :
    (rising 5).power.pwrEn = true ∧ (rising 5).power.pwrGood = false ∧ (rising 5).power.failed = false
      ∧ ((rising 5).power.vaux && decide ((rising 5).power.railsUp ≠ 0)) = true ∧ board.power.pwrGood = true
      ∧ (board.power.vaux && decide ((3 : Fin 27).val ≠ 26)) = true ∧ (board.power.vaux && decide ((26 : Fin 27).val ≠ 26)) = false
      ∧ inputLost 60001 0 = true ∧ inputLost 39999 1001 = true ∧ inputLost 35999 11 = true ∧ inputLost 60000 0 = false
      ∧ inputLost 39999 1000 = false ∧ inputLost 35999 10 = false := by decide +kernel

/-- The board while RESET_n is low. -/
def resetting : State := { State.reset with power := { board.power with resetLow := true } }

theorem witness_reset : resetting.power.pwrGood = true ∧ resetting.boot.stage = .off ∧ resetting.power.vaux = true
    ∧ resetting.power.resetLow = true ∧ board.power.vaux = true ∧ board.power.resetLow = false := by decide +kernel

/-! ## Boot -/

/-- The board at a stage of its boot. -/
def booting (b : Boot) : State := { State.reset with power := board.power, boot := b }

theorem witness_rom_start : (booting { Boot.off with stage := .romReady }).boot.stage = .romReady
    ∧ (booting { Boot.off with stage := .romReady }).live = true ∧ (booting { Boot.off with stage := .romReady }).boot.keys = false
    ∧ (booting Boot.off).boot.stage ≠ .romReady := by decide +kernel

/-- Its ROM when it has sampled BOOT_SEL, with the causes of the two images. -/
def romWaits (sel a b : Nat) : State := booting { Boot.off with stage := .romWait, bootSel := sel, causeA := a, causeB := b }

theorem witness_rom_recovery : ∀ x ∈ [(1, 0, 0), (0, 3, 4)],
    let s := romWaits x.1 x.2.1 x.2.2
    s.live = true ∧ s.boot.stage = .romWait ∧ s.boot.keys = false
      ∧ (s.boot.bootSel = 1 ∨ (s.boot.causeA ≠ 0 ∧ s.boot.causeB ≠ 0)) := by decide +kernel

theorem bad_magic_has_a_cause (s : State) (stage : Nat) (flash : Bool) (seq : Option Nat) (m : List Byte) (read : Nat → Nat → List Byte)
    (h : field m 0 4 ≠ 0x4E414D44) : s.manifestCause stage flash seq m read ≠ 0 := by
  unfold State.manifestCause State.headChecks
  by_cases hf : (flash && Config.flashFails s.freeCount) = true <;> simp [hf, h, List.find?]

/-- A manifest passes when its checks do; some of them are the Config's own functions. -/
theorem manifest_passes (s : State) (stage : Nat) (flash : Bool) (seq : Option Nat) (m : List Byte) (read : Nat → Nat → List Byte)
    (hf : flash = false ∨ (Config.flashFails s.freeCount = false ∧ Config.flashFails (s.freeCount + 1) = false))
    (hh : ∀ c ∈ s.headChecks stage m, c.2 = true) (h8 : hashesOk m read = true) (h9 : ∀ n, seq = some n → manSeq m = n) :
    s.manifestCause stage flash seq m read = 0 := by
  unfold State.manifestCause
  dsimp only
  split
  · rename_i c hc
    have hm := List.mem_of_find?_eq_some hc
    have hn := List.find?_some hc
    simp only [List.mem_append, List.mem_cons, List.not_mem_nil, or_false] at hm
    rcases hm with (rfl | hm) | rfl | rfl | rfl
    · rcases hf with rfl | ⟨h1, -⟩ <;> simp_all
    · simp [hh c hm] at hn
    · rcases hf with rfl | ⟨-, h2⟩ <;> simp_all
    · simp [h8] at hn
    · cases seq with
      | none => simp at hn
      | some n => simp [h9 n rfl] at hn
  · rfl

theorem witness_rom_finds_no_image (c : Nat) (hc : c = (romWaits 0 0 7).manifestCause 1 true none
      ((romWaits 0 0 7).flashBytes (imageAt 0) 8192) (fun o n => (romWaits 0 0 7).flashBytes (imageAt 0 + o) n)) :
    c ≠ 0 ∧ (romWaits 0 0 7).preferredImage = 0 ∧ (romWaits 0 0 7).boot.cause 0 = 0 ∧ (romWaits 0 0 7).boot.cause (1 - 0) ≠ 0
      ∧ (romWaits 0 0 7).boot.bootSel = 0 ∧ (romWaits 0 0 7).boot.stage = .romWait := by
  refine ⟨?_, by decide +kernel, by decide +kernel, by decide +kernel, by decide +kernel, by decide +kernel⟩
  rw [hc]; exact bad_magic_has_a_cause _ _ _ _ _ _ (by decide +kernel)

/-- A state at the boot code or in recovery. -/
def bootCode : State := booting { Boot.off with stage := .bootCode, source := 1, watchdog := true }
def recovering : State :=
  { booting { Boot.off with stage := .recovery } with rcl := [(0, { RclPort.init with state := .active, features := 8 })] }

theorem witness_boot_code_finds_no_firmware :
    bootCode.boot.stage = .bootCode ∧ bootCode.boot.source < 2 ∧ bootCode.boot.watchdog = true ∧ bootCode.live = true
      ∧ bootCode.manifestCause 2 true (some (manSeq bootCode.boot.manifest))
          (bootCode.flashBytes (bootCode.boot.imageBase + firmwareAt + 0) 8192)
          (fun o n => bootCode.flashBytes (bootCode.boot.imageBase + firmwareAt + o) n) ≠ 0 :=
  ⟨rfl, by decide, rfl, by decide, bad_magic_has_a_cause _ _ _ _ _ _ (by decide +kernel)⟩

theorem witness_configure :
    { bootCode with boot := { bootCode.boot with comps := [(2, 0, [0])] } }.configure = none ∧ bootCode.configure.isSome = true := by
  decide +kernel

theorem witness_recovery_go :
    recovering.inRecovery = true ∧ (0 : Requester) ≠ mgmtPort ∧ recovering.boot.stage = .recovery ∧ recovering.live = true
      ∧ recovering.manifestCause 1 false none (Memory.readBytes recovering.boot.bootSram 0 8192)
          (fun o n => Memory.readBytes recovering.boot.bootSram o n) ≠ 0 :=
  ⟨by decide +kernel, by decide, rfl, by decide, bad_magic_has_a_cause _ _ _ _ _ _ (by decide +kernel)⟩

theorem witness_lock_and_firmware :
    (booting { Boot.off with stage := .configured }).boot.stage = .configured ∧ (booting { Boot.off with stage := .locked }).live = true
      ∧ (booting { Boot.off with stage := .locked, source := 2 }).boot.source = 2
      ∧ ((booting { Boot.off with stage := .locked, source := 2 }).source secSource).held = [] := by decide +kernel

theorem witness_memory_training :
    let s := booting { Boot.off with stage := .firmware, training := [.stack 2, .reserve] }
    let t := booting { Boot.off with stage := .firmware, training := [.updLink 1] }
    s.boot.stage = .firmware ∧ .stack 2 ∈ s.boot.training ∧ .reserve ∈ s.boot.training ∧ TrainPart.reserve ≠ .stack 2
      ∧ .updLink 1 ∈ t.boot.training ∧ (∀ x ∈ t.boot.training, x = .updLink 1) := by decide +kernel

/-! ## Fuses, flash and attestation -/

/-- The board in running firmware with two manifests that name key slots 1 and a security version of 3. -/
def keyed : State :=
  { board with boot := { Boot.off with
      stage := .firmware, manifest := [0, 0, 0, 0, 0, 0, 0, 3, 3], fwManifest := [0, 0, 0, 0, 0, 0, 0, 3, 3], svnFuses := 1, source := 1 } }

theorem witness_key_revoke :
    keyed.mayWriteReg 0 ⟨.secKeyRevoke, 0, 0⟩ = true ∧ keyed.boot.stage = .firmware ∧ keyed.boot.namesOther (2 : BitVec 2).toNat = true
      ∧ keyed.boot.namesOther (1 : BitVec 2).toNat = false ∧ keyed.regN .evtCtrl secSource.toNat = 0
      ∧ (keyed.source secSource).held = [] := by decide +kernel

/-- Whether the other slot is usable is the Config's own: here it is for any key whose stored CRC is its own. -/
theorem witness_usable_slot (h : crc32c (fuseHash 3) = field (fit 68 (Config.fuseKey 3)) 64 4) (hz : zeros (fuseHash 3) = false) :
    keyed.slotUsable ((2 : BitVec 2).toNat / 2 * 2 + (1 - (2 : BitVec 2).toNat % 2)) = true := by
  simp [State.slotUsable, h, hz]; decide

theorem witness_svn_commit :
    keyed.mayWriteReg 0 ⟨.secSvnCommit, 0, 0⟩ = true ∧ keyed.rollback < (3 : BitVec 7).toNat
      ∧ (3 : BitVec 7).toNat ≤ manSvn keyed.boot.manifest ∧ (3 : BitVec 7).toNat ≤ 64 ∧ (1 : BitVec 7).toNat ≤ keyed.rollback
      ∧ manSvn keyed.boot.manifest < (4 : BitVec 7).toNat := by decide +kernel

theorem witness_flash_requests :
    keyed.mayWriteReg 0 ⟨.secFlashCtrl, 0, 0⟩ = true ∧ keyed.boot.flashReq = none
      ∧ { keyed with boot := { keyed.boot with flashReq := some ⟨1, 0, 64, false⟩ } }.boot.flashReq ≠ none := by decide +kernel

theorem witness_flash_request_complete : ∀ op ∈ [1, 2, 3],
    let s := { keyed with boot := { keyed.boot with flashReq := some ⟨op, 0x200000, 64, false⟩ } }
    s.boot.stage = .firmware ∧ s.boot.flashReq = some ⟨op, 0x200000, 64, false⟩ ∧ 0x200000 + 64 ≤ flashEnd
      ∧ flashEnd < flashEnd + 1 ∧ s.live = true := by decide +kernel

theorem witness_attestation_go :
    board.mayWriteReg 0 ⟨.secAttestCtrl, (0 : Requester).val, 0⟩ = true ∧ bitOf (board.regN .secAttestStatus (0 : Requester).val) 0 = false
      ∧ board.reportOk 0 0x1A00000 = true ∧ board.reportOk 0 0x1A00001 = false := by decide +kernel

/-- The board with a report owed to a requester. -/
def owing (n addr : Nat) : State := { board with boot := { board.boot with keys := true, attest := [(n, List.replicate 64 0, addr)] } }

theorem witness_attestation_report :
    (owing 0 0x1A00000).boot.nextAttest = some ((0 : Part).val, List.replicate 64 0, 0x1A00000) ∧ (owing 0 0x1A00000).boot.keys = true
      ∧ (owing 0 0x1A00000).FreeHbm 0 0x1A00000 4096 ∧ 0x1A00000 % 4096 = 0
      ∧ (owing 4 0).boot.nextAttest = some (4, List.replicate 64 0, 0) :=
  ⟨by decide +kernel, by decide +kernel, free_lines (by decide +kernel), by decide, by decide +kernel⟩

/-! ## Events, errors and the management port -/

/-- The board whose source 0x1030 has its ring at page 13, eight entries of which some are unread, or is disabled with events held. -/
def ringed (tail : DWord) : State :=
  boardOf base Core.init [] [(0xB40C00, 1), (0xB40C08, 0x1A00000), (0xB40C10, 8), (0xB40C20, tail)]
def heldAt (n : Nat) : State :=
  { board with events := [(0x1030, { EvtSource.init with held := List.replicate n ⟨0, 0, 4, 0x1300, []⟩ })] }

theorem witness_event_held :
    sourceExists (0x1030 : BitVec 16).toNat = true ∧ ([1, 2] : List Byte).length ≤ 32 ∧ (heldAt 15).live = true
      ∧ (heldAt 15).regN .evtCtrl (0x1030 : BitVec 16).toNat = 0
      ∧ ((heldAt 15).source 0x1030).held.foldl (fun a x => a + entriesOf x.data) 0 + entriesOf [1, 2] ≤ 16
      ∧ 16 < ((heldAt 16).source 0x1030).held.foldl (fun a x => a + entriesOf x.data) 0 + entriesOf [1, 2] := by decide +kernel

theorem witness_event_ring :
    let s := ringed 7
    s.regN .evtCtrl (0x1030 : BitVec 16).toNat = 1 ∧ s.sourceOwner (0x1030 : BitVec 16).toNat = 0
      ∧ s.regN .evtBase (0x1030 : BitVec 16).toNat + s.regN .evtTail (0x1030 : BitVec 16).toNat % s.regN .evtSize (0x1030 : BitVec 16).toNat * 32
          = 0x1A000E0
      ∧ 0 < s.regN .evtSize (0x1030 : BitVec 16).toNat ∧ 0x1A000E0 % 32 = 0 ∧ s.regN .evtTail (0x1030 : BitVec 16).toNat < 2 ^ 32
      ∧ ahead32 (s.regN .evtHead (0x1030 : BitVec 16).toNat) 7 + 1 ≤ s.regN .evtSize (0x1030 : BitVec 16).toNat
      ∧ s.FreeHbm 0 0x1A000E0 32 ∧ (ringed 8).regN .evtSize (0x1030 : BitVec 16).toNat
          < ahead32 ((ringed 8).regN .evtHead (0x1030 : BitVec 16).toNat) 8 + 1 :=
  ⟨by decide +kernel, by decide +kernel, by decide +kernel, by decide +kernel, by decide, by decide +kernel, by decide +kernel,
    free_lines (by decide +kernel), by decide +kernel⟩

theorem witness_reported_errors : board.live = true ∧ sourceExists (coreSource 5 0).toNat = true
    ∧ board.regN .evtCtrl (coreSource 5 0).toNat = 0 := by decide +kernel

/-- An uncorrectable scratch word is poisoned, and no other word of its core (Table 17.5). -/
theorem test_reported_scratch_error_poisons :
    let c := (board.spoilStore (coreSource 5 0).toNat 3 0x40).core 5
    c.scratchPoisoned 0x40 32 = true ∧ c.scratchPoisoned 0x60 32 = false := by
  have h : board.spoilStore (coreSource 5 0).toNat 3 0x40 = board.spoilScratch 5 0x40 := by
    rw [State.spoilStore, if_neg (by decide), if_neg (by decide), if_pos (by decide)]
    rfl
  rw [h, State.spoilScratch]
  simp only [State.core_setCore, if_true]
  decide +kernel

theorem witness_patrol : ∀ ctl : Fin 9,
    board.patrolled ctl 5 = true ∧ board.regN .evtCtrl (patrolSource ctl).toNat = 0 ∧ (board.source (patrolSource ctl)).held = []
      ∧ (board.source (patrolSource ctl)).eccAt = none ∧ (board.time (sourceDie (patrolSource ctl).toNat)).toNat < 0 + 100000 := by
  decide +kernel

theorem witness_fatal_error : 8 ≤ (8 : BitVec 8).toNat ∧ (13 : BitVec 8).toNat ≤ 13 ∧ board.live = true := by decide +kernel

theorem witness_management_port :
    State.reset.power.vaux = false ∧ (rising 5).power.vaux = true ∧ (rising 5).power.pwrGood = false ∧ board.power.vaux = true
      ∧ board.power.pwrGood = true ∧ board.power.resetLow = false ∧ (1 : BitVec 8).toNat ≤ 31 ∧ 31 < (32 : BitVec 8).toNat
      ∧ (board.telemetry (2 + 0)).isSome = true ∧ liveEarly 8 = false ∧ (board.reg .mgtAlertStatus &&& board.reg .mgtAlertMask) = 0
      ∧ ((board.setRegN .mgtAlertStatus 0 0 4).reg .mgtAlertStatus &&& (board.setRegN .mgtAlertStatus 0 0 4).reg .mgtAlertMask) ≠ 0 := by
  decide +kernel

theorem witness_management_registers :
    (mmioOffset (0x220000600000 : VA).toNat).isSome = true ∧ (regHalf 0x600000).isSome = true ∧ mmioOffset (0x1000 : VA).toNat = none
      ∧ sourceExists (0x1030 : BitVec 16).toNat = true ∧ board.regN .evtCtrl (0x1030 : BitVec 16).toNat = 0
      ∧ (ringed 7).regN .evtCtrl (0x1030 : BitVec 16).toNat = 1
      ∧ (ringed 7).ready ((ringed 7).sourceOwner (0x1030 : BitVec 16).toNat) ((ringed 7).ringRanges (0x1030 : BitVec 16).toNat 0 1) = true
      ∧ bitOf (board.regN .secAttestStatus 4) 0 = false ∧ (0xA4 : BitVec 8) ≠ 0xA5 := by decide +kernel

/-! ## The invariants -/

theorem witness_canonical_memories : State.reset.memoryOk = true ∧ tensors.memoryOk = true
    ∧ ∃ u, Machine.step State.reset = .next u := ⟨by decide +kernel, by decide +kernel, _, rfl⟩

theorem witness_covered_dies : (∀ d, (board.die d).Covered)
    ∧ ∃ u, Machine.step { board with pending := [.railSlewComplete 0] } = .next u :=
  ⟨witness_dies_at_reset_are_covered, _, rfl⟩

end Sys2Proof.Tests
end

namespace Sys2Proof.Machine

/-! # Register writes (R4-R9, R397, R471, R474, R492-R501, R510) -/

/-! ## Reading a register after a write -/

/-- A number that fits a register reads back. -/
theorem State.regN_setRegN_self (s : State) (r : RegName) (i j v : Nat) (hv : v < 2 ^ 64) :
    (s.setRegN r i j v).regN r i j = v := by
  rw [State.regN, State.setRegN, State.reg_setReg_self, BitVec.toNat_ofNat, Nat.mod_eq_of_lt hv]

/-- A register at another offset reads as before. -/
theorem State.regN_setRegN_ne (s : State) (r r' : RegName) (i j i' j' v : Nat)
    (h : r'.offset i' j' ≠ r.offset i j) : (s.setRegN r i j v).regN r' i' j' = s.regN r' i' j' := by
  rw [State.regN, State.setRegN, State.reg_setReg_ne s r r' i j i' j' _ h, State.regN]

theorem State.regN_lt (s : State) (r : RegName) (i j : Nat) : s.regN r i j < 2 ^ 64 := (s.reg r i j).isLt

theorem State.regN_setSource (s : State) (n : BitVec 16) (x : EvtSource) (r : RegName) (i j : Nat) :
    (s.setSource n x).regN r i j = s.regN r i j := rfl

/-! ## Registers with a behaviour of their own -/

theorem State.ownWrite_allowed {s : State} {r : Requester} {reg : RegName} {i j : Nat}
    (h : s.mayWriteReg r ⟨reg, i, j⟩ = true) (act : State → State) : s.ownWrite r reg i j act = act s := by
  rw [State.ownWrite, if_pos h]

/-- A submission tail is taken when its partition runs and it lies between the present tail and a whole ring past the head
(R397). -/
theorem State.newSqTail_of_ring {s : State} {ring : Ring} {p : Part} (h : s.partOfRing ring.val = some p) (v : BitVec 32) :
    s.newSqTail ring v =
      if s.running p = true ∧ ahead32 (s.regN .hifSqHead ring.val) (s.regN .hifSqTail ring.val)
            ≤ ahead32 (s.regN .hifSqHead ring.val) v.toNat
          ∧ ahead32 (s.regN .hifSqHead ring.val) v.toNat ≤ s.regN .hifSqSize ring.val
      then s.setRegN .hifSqTail ring.val 0 v.toNat
      else s.badDoorbell p ring.val v.toNat := by
  rw [State.newSqTail, h]
  by_cases hr : s.running p = true
  · simp only [hr, Bool.not_true, Bool.false_or, Bool.or_eq_true, decide_eq_true_eq, true_and]
    split <;> rename_i hc
    · rw [if_neg (by omega)]
    · rw [if_pos (by omega)]
  · simp [hr]

/-- A reply head is taken up to the reply tail (R499). -/
theorem State.newRqHead_of_ring {s : State} {ring : Ring} {p : Part} (h : s.partOfRing ring.val = some p) (v : BitVec 32) :
    s.newRqHead ring v =
      if ahead32 (s.regN .hifRqHead ring.val) v.toNat
          ≤ ahead32 (s.regN .hifRqHead ring.val) (s.regN .hifRqTail ring.val)
      then s.setRegN .hifRqHead ring.val 0 v.toNat
      else s.badDoorbell p ring.val v.toNat := by
  rw [State.newRqHead, h]
  simp only [← Nat.not_le, ite_not]

/-- An event head is taken up to the ring's tail (R510). -/
theorem State.evtHeadWrite_eq (s : State) (r : Requester) (n v : Nat) :
    s.evtHeadWrite r n v =
      if ahead32 (s.regN .evtHead n) v ≤ ahead32 (s.regN .evtHead n) (s.regN .evtTail n)
      then s.setRegN .evtHead n 0 v
      else s.accessDropped r.val 0 (mmioAddr (RegName.evtHead.offset n 0)) := by
  simp only [State.evtHeadWrite, ← Nat.not_le, ite_not]

/-- A placement log tail up to the log's head is taken (R501). -/
theorem State.newLogTail_behind_head {s : State} {p : Part} {v : BitVec 32}
    (h : ahead32 (s.regN .survLogTail p.val) v.toNat ≤ ahead32 (s.regN .survLogTail p.val) (s.regN .survLogHead p.val)) :
    s.newLogTail p v = s.setRegN .survLogTail p.val 0 v.toNat := by
  rw [State.newLogTail, if_neg (by omega)]

/-- Enabling a placed ring that holds nothing back sets its head to its tail (R471, R474). -/
theorem State.evtCtrlWrite_enables {s : State} {n : Nat} (r : Requester) (hoff : s.regN .evtCtrl n = 0)
    (hplaced : s.ringPlaced (s.sourceOwner n) (s.regN .evtBase n) (s.regN .evtSize n * 32) = true)
    (hheld : (s.source (BitVec.ofNat 16 n)).held = []) :
    s.evtCtrlWrite r n true
      = ((s.setRegN .evtHead n 0 (s.regN .evtTail n)).setRegN .evtCtrl n 0 1).setSource (BitVec.ofNat 16 n)
          { s.source (BitVec.ofNat 16 n) with held := [] } := by
  have hsource : ((s.setRegN .evtHead n 0 (s.regN .evtTail n)).setRegN .evtCtrl n 0 1).source (BitVec.ofNat 16 n)
      = s.source (BitVec.ofNat 16 n) := rfl
  simp [State.evtCtrlWrite, hoff, hplaced, hsource, hheld]

/-- The four registers of one event source stand at different offsets. -/
theorem evt_offsets_apart (n : Nat) :
    RegName.evtHead.offset n 0 ≠ RegName.evtCtrl.offset n 0 ∧ RegName.evtTail.offset n 0 ≠ RegName.evtCtrl.offset n 0
      ∧ RegName.evtTail.offset n 0 ≠ RegName.evtHead.offset n 0 := by
  simp only [RegName.offset, RegName.row, RegName.row1, RegName.row2, RegName.row3, RegName.row4, RegName.row5]
  omega

/-! ## Plain writes -/

theorem State.writeMmio_unmapped {s : State} {off : Nat} (h : regHalf off = none) (r : Requester) (wide : Bool) (v : DWord) :
    s.writeMmio r off wide v = s.accessDropped r.val 0 (mmioAddr off) := by
  rw [State.writeMmio, h]

/-- A register out of the requester's reach keeps its value; a locked one apart, the cause is that of an unmapped offset
(R9, R493). -/
theorem State.writeMmio_unreached {s : State} {off : Nat} {a : RegAt} {upper : Bool} {r : Requester}
    (h : regHalf off = some (a, upper)) (hmay : s.mayWriteReg r a = false) (hrwl : a.reg.row.access ≠ .rwl)
    (wide : Bool) (v : DWord) : s.writeMmio r off wide v = s.accessDropped r.val 0 (mmioAddr off) := by
  simp [State.writeMmio, h, hmay, hrwl]

/-- A write of half a 64-bit register is dropped with cause 1 (R8). -/
theorem State.writeMmio_half {s : State} {off : Nat} {a : RegAt} {upper : Bool} {r : Requester}
    (h : regHalf off = some (a, upper)) (hmay : s.mayWriteReg r a = true) {wide : Bool}
    (hhalf : upper = true ∨ (a.reg.row.wide = true ∧ wide = false)) (v : DWord) :
    s.writeMmio r off wide v = s.accessDropped r.val 1 (mmioAddr off) := by
  rcases hhalf with rfl | ⟨hw, rfl⟩
  · simp [State.writeMmio, h, hmay]
  · simp [State.writeMmio, h, hmay, hw]

/-- A write of a whole register acts by the register's access (R4, R495). -/
theorem State.writeMmio_whole {s : State} {off : Nat} {a : RegAt} {r : Requester} (h : regHalf off = some (a, false))
    (hmay : s.mayWriteReg r a = true) {wide : Bool} (hw : a.reg.row.wide = true → wide = true) (v : DWord) :
    s.writeMmio r off wide v = s.regAct r a (if a.reg.row.wide then v.toNat else v.toNat % 2 ^ 32) := by
  have hnot : (a.reg.row.wide && !wide) = false := by
    cases hrow : a.reg.row.wide
    · rfl
    · rw [hw hrow]; rfl
  simp [State.writeMmio, h, hmay, hnot]

theorem State.regAct_rw {s : State} {a : RegAt} (h : a.reg.row.access = .rw) (r : Requester) (v : Nat) :
    s.regAct r a v = s.plainWrite a v := by
  rw [State.regAct, h]

theorem State.regAct_ro {s : State} {a : RegAt} (h : a.reg.row.access = .ro) (r : Requester) (v : Nat) :
    s.regAct r a v = s := by
  rw [State.regAct, h]

theorem State.regAct_locked {s : State} {a : RegAt} (h : a.reg.row.access = .rwl) (hlock : s.boot.locked = true)
    (r : Requester) (v : Nat) : s.regAct r a v = s := by
  simp [State.regAct, h, hlock]

/-! ## The commands -/

section Live

variable {s : State} (hlive : s.live = true)
include hlive

theorem exec_hifSqTailWrite {r : Requester} {ring : Ring} (h : s.mayWriteReg r ⟨.hifSqTail, ring.val, 0⟩ = true)
    (v : BitVec 32) : exec (.hifSqTailWrite r ring v) s = .next (s.newSqTail ring v) := by
  change execHifSqTailWrite r ring v s = _
  rw [execHifSqTailWrite, if_pos hlive, State.ownWrite_allowed h]

theorem exec_hifRqHeadWrite {r : Requester} {ring : Ring} (h : s.mayWriteReg r ⟨.hifRqHead, ring.val, 0⟩ = true)
    (v : BitVec 32) : exec (.hifRqHeadWrite r ring v) s = .next (s.newRqHead ring v) := by
  change execHifRqHeadWrite r ring v s = _
  rw [execHifRqHeadWrite, if_pos hlive, State.ownWrite_allowed h]

theorem exec_survLogTailWrite {p : Part} (h : s.mayWriteReg (partReq p) ⟨.survLogTail, p.val, 0⟩ = true) (v : BitVec 32) :
    exec (.survLogTailWrite p v) s = .next (s.newLogTail p v) := by
  change execSurvLogTailWrite p v s = _
  rw [execSurvLogTailWrite, if_pos hlive, State.ownWrite_allowed h]

theorem exec_evtHeadWrite {r : Requester} {src : BitVec 16} (hsrc : sourceExists src.toNat = true)
    (h : s.mayWriteReg r ⟨.evtHead, src.toNat, 0⟩ = true) (v : BitVec 32) :
    exec (.evtHeadWrite r src v) s = .next (s.evtHeadWrite r src.toNat v.toNat) := by
  change execEvtHeadWrite r src v s = _
  rw [execEvtHeadWrite, if_pos (by simp [hlive, hsrc]), State.ownWrite_allowed h]

theorem exec_evtEnable {r : Requester} {src : BitVec 16} (hsrc : sourceExists src.toNat = true)
    (h : s.mayWriteReg r ⟨.evtCtrl, src.toNat, 0⟩ = true) :
    exec (.evtEnable r src) s = .next (s.evtCtrlWrite r src.toNat true) := by
  change execEvtEnable r src s = _
  rw [execEvtEnable, if_pos (by simp [hlive, hsrc]), State.ownWrite_allowed h]

theorem exec_registerWrite (r : Requester) (off : BitVec 26) (wide : Bool) (v : DWord) :
    exec (.registerWrite r off wide v) s = .next (s.writeMmio r off.toNat wide v) := by
  change execRegisterWrite r off wide v s = _
  rw [execRegisterWrite, if_pos hlive]

/-- EVT_ENABLE of a placed ring that holds nothing back turns it on with its head at its tail, and touches no memory, no
partition, no core and no sync object (R471, R474). -/
theorem evtEnable_turnsOn {r : Requester} {src : BitVec 16} (hsrc : sourceExists src.toNat = true)
    (hmay : s.mayWriteReg r ⟨.evtCtrl, src.toNat, 0⟩ = true) (hoff : s.regN .evtCtrl src.toNat = 0)
    (hplaced : s.ringPlaced (s.sourceOwner src.toNat) (s.regN .evtBase src.toNat) (s.regN .evtSize src.toNat * 32) = true)
    (hheld : (s.source src).held = []) :
    ∃ u, exec (.evtEnable r src) s = .next u ∧ u.regN .evtCtrl src.toNat = 1
      ∧ u.regN .evtHead src.toNat = s.regN .evtTail src.toNat
      ∧ u.regN .evtTail src.toNat = s.regN .evtTail src.toNat
      ∧ u.hbm = s.hbm ∧ u.parts = s.parts ∧ u.cores = s.cores ∧ u.sync = s.sync := by
  obtain ⟨hhc, htc, hth⟩ := evt_offsets_apart src.toNat
  have hsame : (s.source (BitVec.ofNat 16 src.toNat)).held = [] := by simpa using hheld
  refine ⟨_, (exec_evtEnable hlive hsrc hmay).trans
    (congrArg _ (State.evtCtrlWrite_enables r hoff hplaced hsame)), ?_, ?_, ?_, rfl, rfl, rfl, rfl⟩
  · rw [State.regN_setSource, State.regN_setRegN_self _ _ _ _ _ (by decide)]
  · rw [State.regN_setSource, State.regN_setRegN_ne _ _ _ _ _ _ _ _ hhc,
      State.regN_setRegN_self _ _ _ _ _ (State.regN_lt ..)]
  · rw [State.regN_setSource, State.regN_setRegN_ne _ _ _ _ _ _ _ _ htc, State.regN_setRegN_ne _ _ _ _ _ _ _ _ hth]

end Live

/-- Settles O23: each ring pointer by what its own write does, REGISTER_WRITE by the register that stands at the offset
and by its access. -/
theorem registersAndRingPointersTakeTheirWrites : Obligations.RegistersAndRingPointersTakeTheirWrites := by
  unfold Obligations.RegistersAndRingPointersTakeTheirWrites
  refine ⟨fun s r ring p v src hlive => ⟨?_, ?_, ?_, ?_, ?_⟩, fun s r off wide v a hlive => ⟨?_, ?_, ?_, ?_⟩⟩
  · intro hmay hp
    rw [exec_hifSqTailWrite hlive hmay, State.newSqTail_of_ring hp]
    rfl
  · intro hmay hp
    rw [exec_hifRqHeadWrite hlive hmay, State.newRqHead_of_ring hp]
    rfl
  · intro hmay hbehind
    rw [exec_survLogTailWrite hlive hmay, State.newLogTail_behind_head hbehind]
  · intro hsrc hmay
    rw [exec_evtHeadWrite hlive hsrc hmay, State.evtHeadWrite_eq]
    rfl
  · exact evtEnable_turnsOn hlive
  · intro hreg hmay hwide
    rw [exec_registerWrite hlive, State.writeMmio_whole hreg hmay hwide]
    refine ⟨fun hacc => ?_, fun hacc => ?_, fun hacc hlock => ?_⟩
    · rw [State.regAct_rw hacc]; rfl
    · rw [State.regAct_ro hacc]
    · rw [State.regAct_locked hacc hlock]
  · intro hreg
    rw [exec_registerWrite hlive, State.writeMmio_unmapped hreg]; rfl
  · intro upper hreg hmay hrwl
    rw [exec_registerWrite hlive, State.writeMmio_unreached hreg hmay hrwl]; rfl
  · intro upper hreg hmay hhalf
    rw [exec_registerWrite hlive, State.writeMmio_half hreg hmay hhalf]; rfl

end Sys2Proof.Machine

namespace Sys2Proof.Machine

/-! # Vector commands (R14, R46, R211, R212, R218) -/

/-! ## Steps that leave every context as it was -/

/-- No context of any core differs. -/
structure State.SameContexts (s u : State) : Prop where
  contexts : ∀ c, (u.core c).contexts = (s.core c).contexts

theorem State.SameContexts.of_cores {s u : State} (h : u.cores = s.cores) : s.SameContexts u :=
  ⟨fun c => by rw [State.core, State.core, h]⟩

theorem State.SameContexts.refl (s : State) : s.SameContexts s := .of_cores rfl

theorem State.SameContexts.trans {s u w : State} (h : s.SameContexts u) (h' : u.SameContexts w) : s.SameContexts w :=
  ⟨fun c => (h'.contexts c).trans (h.contexts c)⟩

theorem State.SameContexts.after {s u w : State} (h : u.SameContexts w) (hu : u.cores = s.cores) : s.SameContexts w :=
  (State.SameContexts.of_cores hu).trans h

theorem State.SameContexts.context {s u : State} (h : s.SameContexts u) (t : Thread) : u.context t = s.context t := by
  simp only [State.context, Core.context, h.contexts (threadCore t)]

theorem State.SameContexts.stream {s u : State} (h : s.SameContexts u) (t : Thread) (st : Stream) :
    u.stream t st = s.stream t st := by rw [State.stream, h.context, State.stream]

theorem State.SameContexts.foldl {α : Type} {f : State → α → State}
    (hf : ∀ (s : State) (a : α), s.SameContexts (f s a)) (l : List α) :
    ∀ s : State, s.SameContexts (l.foldl f s) := by
  induction l with
  | nil => exact State.SameContexts.refl
  | cons a l ih => exact fun s => (hf s a).trans (ih (f s a))

/-- A core set with the contexts it had. -/
theorem State.SameContexts.setCore {s : State} {k : CoreId} {x : Core} (h : x.contexts = (s.core k).contexts) :
    s.SameContexts (s.setCore k x) := by
  refine ⟨fun c => ?_⟩
  rw [State.core_setCore]
  by_cases hc : c = k
  · rw [if_pos hc, h, hc]
  · rw [if_neg hc]

/-! ### Memory -/

theorem State.postHost_cores (s : State) (k : RPort) (addr : Nat) (cells : List (Nat × Byte)) (poison mig : Bool) :
    (s.postHost k addr cells poison mig).cores = s.cores := by
  unfold State.postHost
  split
  · rfl
  · simp [State.writesLost, apply_ite State.cores]

theorem State.sendWaiting_cores (s : State) (k : RPort) : (s.sendWaiting k).cores = s.cores := by
  unfold State.sendWaiting
  split
  · split <;> rfl
  · rfl

theorem State.sendSnoop_cores (s : State) (k : RPort) (line : Nat) (inv : Bool) :
    (s.sendSnoop k line inv).cores = s.cores := by
  unfold State.sendSnoop
  split
  · rfl
  · rw [State.sendWaiting_cores]

theorem State.SameContexts.snoops (ports : List RPort) (line : Nat) (inv : Bool) (s : State) :
    s.SameContexts (ports.foldl (fun s j => s.sendSnoop j line inv) s) :=
  .foldl (fun _ _ => .of_cores (State.sendSnoop_cores ..)) ports s

theorem State.drainLine_sameContexts (line fuel : Nat) : ∀ s : State, s.SameContexts (s.drainLine line fuel) := by
  induction fuel with
  | zero => exact State.SameContexts.refl
  | succ fuel ih =>
    intro s
    unfold State.drainLine
    split
    · exact .refl s
    · split
      · exact .refl s
      · split
        · exact .snoops _ _ _ s
        · split
          · exact (ih _).after rfl
          · exact .snoops _ _ _ s

theorem State.putLine_sameContexts (s : State) (p : Part) (va : Nat) (cells : List (Nat × Byte)) (poison : Bool)
    (owner : Option (Thread × Stream)) (mask : List (Nat × Byte)) (port : Option RPort) :
    s.SameContexts (s.putLine p va cells poison owner mask port) := by
  unfold State.putLine
  split
  · exact .refl s
  · extract_lets migrating
    split
    · exact .of_cores rfl
    · split
      · extract_lets line
        split
        · exact (State.drainLine_sameContexts ..).after rfl
        · exact .of_cores rfl
      · exact .of_cores rfl
      · exact .of_cores (State.postHost_cores ..)
      · split
        · exact .setCore rfl
        · exact .refl s
      · exact .refl s

theorem State.putVa_sameContexts (s : State) (p : Part) (va : Nat) (bs : List Byte) (poison : Bool)
    (owner : Option (Thread × Stream)) : s.SameContexts (s.putVa p va bs poison owner) :=
  .foldl (fun _ _ => State.putLine_sameContexts ..) _ s

/-! ### Events -/

theorem State.sendEvent_cores (s : State) (p : Part) (k : RPort) (src : Nat) : (s.sendEvent p k src).cores = s.cores := by
  simp [State.sendEvent, apply_ite State.cores]

theorem State.tellHost_cores (s : State) (p : Part) (base src : Nat) : (s.tellHost p base src).cores = s.cores := by
  unfold State.tellHost
  split
  · exact State.sendEvent_cores ..
  · rfl

theorem State.writeEvent_sameContexts (s : State) (src : BitVec 16) (h : HeldEvent) (held : Bool) :
    s.SameContexts (s.writeEvent src h held) := by
  unfold State.writeEvent
  extract_lets n p size tail k fits ok w w'
  split
  · have hw : s.SameContexts w := .foldl (fun _ _ => State.putVa_sameContexts ..) _ s
    exact hw.trans (.of_cores (State.tellHost_cores w' _ _ _))
  · exact .of_cores rfl

/-- Logging an event changes no context. -/
theorem State.log_sameContexts (s : State) (src : BitVec 16) (num : Nat) (fields : List Byte) (die : Option Nat) :
    s.SameContexts (s.log src num fields die) := by
  unfold State.log
  extract_lets n d seq h w e used
  split
  · exact (State.writeEvent_sameContexts ..).after rfl
  · split <;> exact .of_cores rfl

theorem State.writeLine_sameContexts (s : State) (p : Part) (va : Nat) (cells : List (Nat × Byte)) (poison : Bool)
    (owner : Option (Thread × Stream)) (mask : List (Nat × Byte)) (port : Option RPort) :
    s.SameContexts (s.writeLine p va cells poison owner mask port) := by
  unfold State.writeLine
  split
  · exact .refl s
  · split
    · exact State.log_sameContexts ..
    · exact State.putLine_sameContexts ..

/-- A write to memory changes no context. -/
theorem State.writeVa_sameContexts (s : State) (p : Part) (va : Nat) (bs : List Byte) (poison : Bool)
    (owner : Option (Thread × Stream)) : s.SameContexts (s.writeVa p va bs poison owner) :=
  .foldl (fun _ _ => State.writeLine_sameContexts ..) _ s

/-! ## Bytes written to scratch -/

theorem storeCells_zipIdx (bs : List Byte) : ∀ (m : Memory) (base k n : Nat),
    storeCells m base ((bs.zipIdx n).map (fun x => (k + x.2, x.1))) = Memory.writeBytes m (base + k + n) bs := by
  induction bs with
  | nil => exact fun _ _ _ _ => rfl
  | cons b bs ih =>
    intro m base k n
    have hcons : storeCells m base (((b :: bs).zipIdx n).map (fun x => (k + x.2, x.1)))
        = storeCells (Memory.write m (base + (k + n)) b) base ((bs.zipIdx (n + 1)).map (fun x => (k + x.2, x.1))) := rfl
    rw [hcons, ih, Memory.writeBytes, ← Nat.add_assoc, ← Nat.add_assoc]

/-- Scratch offsets that hold what is written to them (Table 6.3). -/
def scratchOpen (x : Nat) : Prop := scratchHole x = false ∧ x < 0x200000

/-- Bytes written where scratch is open stand there one after another, and the rest of scratch is as it was. -/
theorem writeScratch_scratch (c : Core) (o : Nat) (bs : List Byte) (poison : Bool)
    (h : ∀ i, i < bs.length → scratchOpen (o + i)) :
    (c.writeScratch o bs poison).scratch = Memory.writeBytes c.scratch o bs := by
  have hkept : ∀ x ∈ bs.zipIdx.map (fun x => (o % 32 + x.2, x.1)),
      (!scratchHole (o / 32 * 32 + x.1) && decide (o / 32 * 32 + x.1 < 0x200000)) = true := by
    intro x hx
    obtain ⟨y, hy, rfl⟩ := List.mem_map.1 hx
    have hi : y.2 < bs.length := by simpa using List.snd_lt_of_mem_zipIdx hy
    have hat : o / 32 * 32 + (o % 32 + y.2) = o + y.2 := by omega
    obtain ⟨hhole, hend⟩ := h y.2 hi
    simp [hat, hhole, hend]
  have hat : o / 32 * 32 + o % 32 + 0 = o := by omega
  change storeCells c.scratch (o / 32 * 32) (List.filter _ _) = _
  rw [List.filter_eq_self.2 hkept, storeCells_zipIdx, hat]

/-- Bytes written where scratch is open are read back. -/
theorem readScratch_writeScratch (c : Core) (o : Nat) (bs : List Byte) (poison : Bool)
    (h : ∀ i, i < bs.length → scratchOpen (o + i)) : (c.writeScratch o bs poison).readScratch o bs.length = bs := by
  refine List.ext_getElem (by simp [Core.readScratch, upTo]) fun i hi hi' => ?_
  obtain ⟨hhole, hend⟩ := h i hi'
  simp only [Core.readScratch, upTo, List.getElem_map, List.getElem_range, writeScratch_scratch c o bs poison h,
    Memory.read_writeBytes]
  simp [hhole, hi']
  omega

theorem ctxArea_open {ctx i : Nat} (hctx : ctx < 64) (hi : i < 256) : scratchOpen (ctxArea ctx + i) := by
  refine ⟨?_, by unfold ctxArea; omega⟩
  have hpast : ¬ ctxArea ctx + i < 0x1FC000 := by unfold ctxArea; omega
  simp [scratchHole, hpast]

theorem threadCtx_lt (t : Thread) : threadCtx t < 64 := Nat.mod_lt _ (by decide)

@[simp] theorem excBytes_length (x : Option FirstExc) : (excBytes x).length = 32 := by
  cases x <;> simp [excBytes]

/-! ## A checked vector command runs (R12) -/

section Ready

variable {s : State} {t : Thread} {op : VOp} {q : QEntry} {cmd : Cmd} {d : Option Desc}

/-- The handle check of a ready command answers its descriptor. -/
theorem State.VectorReady.checked (h : s.VectorReady t op q cmd d) :
    (if (vblkOf (s.context t) cmd).handle = 0 ∧ (!op.scaled) = true then Checked.ok (parseDesc 0 [])
      else s.checkHandle (s.threadPart t) (vblkOf (s.context t) cmd).handle op.scaled) = .ok (d.getD (parseDesc 0 [])) := by
  rcases h.handle with ⟨h0, hscaled, rfl⟩ | ⟨h0, x, rfl, hx⟩
  · simp [h0, hscaled]
  · simp [h0, hx]

theorem State.VectorReady.desc_eq (h : s.VectorReady t op q cmd d) :
    (if (vblkOf (s.context t) cmd).handle = 0 then none else some (d.getD (parseDesc 0 []))) = d := by
  rcases h.handle with ⟨h0, _, rfl⟩ | ⟨h0, x, rfl, _⟩
  · simp [h0]
  · simp [h0]

/-- No extent of a ready command passes its maximum. -/
theorem State.VectorReady.within {x : Desc} (h : s.VectorReady t op q cmd (some x)) :
    (op.dims (vblkOf (s.context t) cmd) x).find? (fun e => decide (e.1 < x.rank ∧ e.2.1 > e.2.2)) = none := by
  refine List.find?_eq_none.2 fun e he => ?_
  simpa using h.dims x rfl e he

/-- A ready command passes every check and does its work. -/
theorem State.VectorReady.issueVector (h : s.VectorReady t op q cmd d) :
    s.issueVector t op = s.vecRun t q cmd op (vblkOf (s.context t) cmd) d := by
  have hslots : (op.slots (vblkOf (s.context t) cmd)).any (fun n => decide (n > 23)) = false := by
    simpa using h.slots
  have hregions : (op.regions (vblkOf (s.context t) cmd)).any
      (fun r => decide (r.2 > 0 ∧ r.1 + r.2 > generalEnd)) = false := by
    simpa using h.regions
  have hroom : (op.collects (vblkOf (s.context t) cmd) && d.isSome
      && decide ((s.die (coreDie (threadCore t))).held.length ≥ 4096)) = false := by
    have := h.room
    grind
  rw [State.issueVector, h.issues.issuable]
  simp only [h.issues.signal, h.ranges, h.checked, h.desc_eq, hslots, h.formats, hregions, h.full, h.lower, h.reads, hroom,
    Bool.not_true, Bool.false_eq_true, if_false]
  cases d with
  | none => rfl
  | some x => simp only [h.within]

end Ready


/-! ## What a vector command's run does -/

/-- The first-exception record of a vector command's outcome, for the command numbered `seq` (R218). -/
def VOut.record (o : VOut) (seq : Word) : Option FirstExc :=
  o.exc.map (fun x => ⟨seq, BitVec.ofNat 32 x.2.2.2, x.1, x.2.1, x.2.2.1⟩)

/-- The command has ended as its tiles gave, and its core's scratch holds what they wrote and the first-exception record. -/
def State.vecLanded (s : State) (t : Thread) (q : QEntry) (cmd : Cmd) (o : VOut) : State :=
  let w := s.bumpFree.issueDone t .vector q cmd o.status o.tile o.flags
  (w.setCore (threadCore t) { o.core with
      contexts := (w.core (threadCore t)).contexts, issuedVector := (w.core (threadCore t)).issuedVector }).writeExc t .vector
    (o.record (s.stream t .vector).count)

/-- What a vector command writes to memory, and the skew or the poisoned word that it logs. -/
def State.vecReports (s : State) (p : Part) (t : Thread) (seq : Word) (o : VOut) : State :=
  let s := o.mem.foldl (fun s w => s.writeVa p w.1 w.2 false (some (t, .vector))) s
  let s := match o.skew with
    | some k => s.logSkew (threadCore t) seq.toNat o.tile k
    | none => s
  match o.poison with
  | some a => s.poisonConsumed (engineSource (threadCore t) .vector) t.toNat seq.toNat
      (if a ≥ 2 ^ 32 then a else scratchVa (threadCore t) a)
  | none => s

/-- What a vector command that names a tensor logs of late amax merges, and the partials it sends (R120, R140). -/
def State.vecCollects (s : State) (p : Part) (t : Thread) (op : VOp) (b : VBlk) (d : Desc) (o : VOut) : State :=
  let s := o.late.foldl (fun s c => s.log (gaugerSource (coreDie (threadCore t))) 2 (f2 d.handle ++ f4 c)) s
  o.tiles.foldl (fun s x =>
    s.sendPartial { mkPartial p d (s.scaleBase p d) (op.record b || x.2 ≠ 0) (op.amaxes b) x.1 (some (t, .vector)) with
      nulls := x.2 }) s

/-- The outcome of the tiles of a command on block `b`. -/
def State.vecOut (s : State) (t : Thread) (op : VOp) (b : VBlk) (d : Option Desc) : VOut :=
  op.run s t { b with free := s.freeCount } d (s.core (threadCore t))

theorem State.vecRun_untensored (s : State) (t : Thread) (q : QEntry) (cmd : Cmd) (op : VOp) (b : VBlk) :
    s.vecRun t q cmd op b none
      = (s.vecLanded t q cmd (s.vecOut t op b none)).vecReports (s.threadPart t) t (s.stream t .vector).count
          (s.vecOut t op b none) := rfl

theorem State.vecRun_tensor (s : State) (t : Thread) (q : QEntry) (cmd : Cmd) (op : VOp) (b : VBlk) (d : Desc) :
    s.vecRun t q cmd op b (some d)
      = ((s.vecLanded t q cmd (s.vecOut t op b (some d))).vecReports (s.threadPart t) t (s.stream t .vector).count
          (s.vecOut t op b (some d))).vecCollects (s.threadPart t) t op b d (s.vecOut t op b (some d)) := rfl

theorem State.logSkew_sameContexts (s : State) (core : CoreId) (seq tile : Nat) (k : Skew) :
    s.SameContexts (s.logSkew core seq tile k) := (State.log_sameContexts ..).after rfl

theorem State.vecReports_sameContexts (s : State) (p : Part) (t : Thread) (seq : Word) (o : VOut) :
    s.SameContexts (s.vecReports p t seq o) := by
  unfold State.vecReports
  extract_lets w w'
  have hw : s.SameContexts w := .foldl (fun _ _ => State.writeVa_sameContexts ..) _ s
  have hw' : s.SameContexts w' := by
    simp only [w']
    split
    · exact hw.trans (State.logSkew_sameContexts ..)
    · exact hw
  split
  · exact hw'.trans (State.log_sameContexts ..)
  · exact hw'

/-- A command that writes no memory and found neither a skew nor a poisoned word reports nothing. -/
theorem State.vecReports_quiet (s : State) (p : Part) (t : Thread) (seq : Word) {o : VOut} (hskew : o.skew = none)
    (hpoison : o.poison = none) (hmem : o.mem = []) : s.vecReports p t seq o = s := by
  simp [State.vecReports, hskew, hpoison, hmem]

/-! ### The contexts -/

/-- A vector command is in flight with its outcome: it has left the queue and ended, no register of its context differs and
no other context does. -/
structure State.VectorIssued (s u : State) (t : Thread) (cmd : Cmd) (o : VOut) : Prop where
  running : ∃ r, (u.stream t .vector).cur = some r ∧ r.cmd = cmd ∧ r.ended = true ∧ r.status = o.status
    ∧ r.tile = BitVec.ofNat 32 o.tile ∧ r.flags = o.flags
  queue : (u.stream t .vector).queue = (s.stream t .vector).queue.tail
  regs : (s.context t).SameRegs (u.context t)
  others : ∀ t', t' ≠ t → u.context t' = s.context t'

section Issued

variable {s u w : State} {t : Thread} {q : QEntry} {cmd : Cmd} {o : VOut}

theorem State.VectorIssued.sameContexts (h : s.VectorIssued u t cmd o) (hw : u.SameContexts w) :
    s.VectorIssued w t cmd o where
  running := by rw [hw.stream]; exact h.running
  queue := by rw [hw.stream]; exact h.queue
  regs := by rw [hw.context]; exact h.regs
  others t' ht := by rw [hw.context]; exact h.others t' ht

theorem Context.SameRegs.trans {c d e : Context} (h : c.SameRegs d) (h' : d.SameRegs e) : c.SameRegs e where
  sregs i := (h'.sregs i).trans (h.sregs i)
  params i := (h'.params i).trans (h.params i)
  preds := h'.preds.trans h.preds
  ncw := h'.ncw.trans h.ncw

/-- A partial of the command is counted on it and changes nothing else of any context (R142). -/
theorem State.VectorIssued.sendPartial (h : s.VectorIssued u t cmd o) {m : Partial} (hm : m.owner = some (t, .vector)) :
    s.VectorIssued (u.sendPartial m) t cmd o := by
  obtain ⟨r, hr, houtcome⟩ := h.running
  unfold State.sendPartial
  split
  · exact h
  · simp only [hm, hr]
    refine State.VectorIssued.sameContexts (u := u.setStream t .vector
      { u.stream t .vector with cur := some { r with parts := r.parts + 1 } }) ?_ (.of_cores rfl)
    refine ⟨⟨{ r with parts := r.parts + 1 }, ?_, houtcome⟩, ?_, ?_, ?_⟩
    · rw [State.stream_setStream_self]
    · rw [State.stream_setStream_self]; exact h.queue
    · rw [State.context_setStream, if_pos rfl]; exact h.regs.trans (setStream_sameRegs ..)
    · intro t' ht; rw [State.context_setStream, if_neg ht]; exact h.others t' ht

theorem State.VectorIssued.vecCollects (h : s.VectorIssued u t cmd o) (p : Part) (op : VOp) (b : VBlk) (d : Desc)
    (o' : VOut) :
    s.VectorIssued (u.vecCollects p t op b d o') t cmd o := by
  unfold State.vecCollects
  extract_lets w
  have hw : s.VectorIssued w t cmd o := h.sameContexts (.foldl (fun _ _ => State.log_sameContexts ..) _ u)
  exact List.foldlRecOn (motive := fun w => s.VectorIssued w t cmd o) _ _ hw fun w' hw' x _ => hw'.sendPartial rfl

theorem State.writeExc_sameContexts (s : State) (t : Thread) (st : Stream) (x : Option FirstExc) :
    s.SameContexts (s.writeExc t st x) := .setCore rfl

theorem State.issueDone_stream (s : State) (t : Thread) (st : Stream) (q : QEntry) (cmd : Cmd) (status : BitVec 8)
    (tile : Nat) (flags : BitVec 5) :
    (s.issueDone t st q cmd status tile flags).stream t st = (s.stream t st).took { s.running0 t st q cmd with
      ended := true, status := status, tile := BitVec.ofNat 32 tile, flags := flags } := startRun_stream ..

/-- What the tiles wrote to scratch touches no context. -/
theorem State.vecLanded_context (s : State) (t t' : Thread) (q : QEntry) (cmd : Cmd) (o : VOut) :
    (s.vecLanded t q cmd o).context t' = (s.bumpFree.issueDone t .vector q cmd o.status o.tile o.flags).context t' := by
  unfold State.vecLanded
  extract_lets w
  refine ((State.SameContexts.setCore ?_).trans (State.writeExc_sameContexts ..)).context t'
  rfl

theorem State.vecLanded_issued (s : State) (t : Thread) (q : QEntry) (cmd : Cmd) (o : VOut) :
    s.VectorIssued (s.vecLanded t q cmd o) t cmd o := by
  have hstream : (s.vecLanded t q cmd o).stream t .vector
      = (s.bumpFree.issueDone t .vector q cmd o.status o.tile o.flags).stream t .vector := by
    rw [State.stream, State.vecLanded_context, State.stream]
  rw [State.issueDone_stream] at hstream
  refine ⟨⟨_, congrArg StreamState.cur hstream, rfl, rfl, rfl, rfl, rfl⟩, congrArg StreamState.queue hstream, ?_, ?_⟩
  · rw [State.vecLanded_context, State.issueDone, startRun_context, if_pos rfl]; exact setStream_sameRegs ..
  · intro t' ht
    rw [State.vecLanded_context, State.issueDone, startRun_context, if_neg ht]; rfl

/-- However a vector command ends, it is in flight with its outcome. -/
theorem State.vecRun_issued (s : State) (t : Thread) (q : QEntry) (cmd : Cmd) (op : VOp) (b : VBlk) (d : Option Desc) :
    s.VectorIssued (s.vecRun t q cmd op b d) t cmd (s.vecOut t op b d) := by
  have hreported := (s.vecLanded_issued t q cmd (s.vecOut t op b d)).sameContexts
    (State.vecReports_sameContexts _ (s.threadPart t) t (s.stream t .vector).count (s.vecOut t op b d))
  cases d with
  | none => rw [State.vecRun_untensored]; exact hreported
  | some d => rw [State.vecRun_tensor]; exact hreported.vecCollects ..

end Issued

/-! ### The scratch -/

/-- Nothing but the cores differs, and the model's counter of free values. -/
def State.CoresOnly (s u : State) : Prop := ∃ cores n, u = { s with cores := cores, freeCount := n }

theorem State.CoresOnly.eq {s u : State} (h : s.CoresOnly u) :
    u = { s with cores := u.cores, freeCount := u.freeCount } := by
  obtain ⟨cores, n, rfl⟩ := h
  rfl

theorem State.CoresOnly.setCore {s u : State} (h : s.CoresOnly u) (c : CoreId) (x : Core) : s.CoresOnly (u.setCore c x) := by
  obtain ⟨cores, n, rfl⟩ := h
  exact ⟨_, n, rfl⟩

section Landed

variable (s : State) (t : Thread) (q : QEntry) (cmd : Cmd) (o : VOut)

theorem State.vecLanded_state :
    s.vecLanded t q cmd o = { s with
      cores := (s.vecLanded t q cmd o).cores, freeCount := (s.vecLanded t q cmd o).freeCount } := by
  have hfree : s.CoresOnly s.bumpFree := ⟨_, _, rfl⟩
  have hissued : s.CoresOnly (s.bumpFree.issueDone t .vector q cmd o.status o.tile o.flags) :=
    (hfree.setCore ..).setCore ..
  exact ((hissued.setCore ..).setCore ..).eq

theorem State.vecLanded_otherCore {c : CoreId} (hc : c ≠ threadCore t) : (s.vecLanded t q cmd o).core c = s.core c := by
  simp only [State.vecLanded, State.writeExc, State.issueDone, State.startRun, State.setStream, State.setContext,
    State.core_setCore, if_neg hc]
  rfl

/-- The command's core holds what its tiles wrote and then the first-exception record. -/
theorem State.vecLanded_scratch :
    ((s.vecLanded t q cmd o).core (threadCore t)).scratch
      = (o.core.writeScratch (ctxArea (threadCtx t) + 0x40)
          (excBytes (o.record (s.stream t .vector).count)) false).scratch := by
  simp only [State.vecLanded, State.writeExc, State.core_setCore_self]
  rfl

theorem record_open (x : Option FirstExc) :
    ∀ i, i < (excBytes x).length → scratchOpen (ctxArea (threadCtx t) + 0x40 + i) := by
  intro i hi
  rw [Nat.add_assoc]
  exact ctxArea_open (threadCtx_lt t) (by rw [excBytes_length] at hi; omega)

/-- Outside the first-exception record, scratch is what the tiles wrote. -/
theorem State.vecLanded_read {x : Nat} (hx : x < ctxArea (threadCtx t) + 0x40 ∨ ctxArea (threadCtx t) + 0x60 ≤ x) :
    Memory.read ((s.vecLanded t q cmd o).core (threadCore t)).scratch x = Memory.read o.core.scratch x := by
  rw [State.vecLanded_scratch, writeScratch_scratch _ _ _ _ (record_open t _), Memory.read_writeBytes, dif_neg]
  rw [excBytes_length]; omega

/-- The first-exception record is that of the command (R218). -/
theorem State.vecLanded_record :
    ((s.vecLanded t q cmd o).core (threadCore t)).readScratch (ctxArea (threadCtx t) + 0x40) 32
      = excBytes (o.record (s.stream t .vector).count) := by
  have hread := readScratch_writeScratch o.core (ctxArea (threadCtx t) + 0x40)
    (excBytes (o.record (s.stream t .vector).count)) false (record_open t _)
  rw [excBytes_length] at hread
  rw [Core.readScratch, State.vecLanded_scratch]
  exact hread

end Landed

/-! ## The commands -/

/-- Every vector command with its operation. -/
def vectorCommands (t : Thread) : List (Instr × VOp) :=
  [(.vadd t, arithOp 0x40), (.vsub t, arithOp 0x41), (.vmul t, arithOp 0x42), (.vfma t, arithOp 0x43),
    (.vdiv t, arithOp 0x44), (.vsqrt t, arithOp 0x45), (.vrecip t, arithOp 0x46), (.vrsqrt t, arithOp 0x47),
    (.vmin t, arithOp 0x48), (.vmax t, arithOp 0x49), (.vminnum t, arithOp 0x4A), (.vmaxnum t, arithOp 0x4B),
    (.vabs t, arithOp 0x4C), (.vneg t, arithOp 0x4D), (.vcopysign t, arithOp 0x4E), (.vcmp t, arithOp 0x4F),
    (.vexp t, arithOp 0x50), (.vexp2 t, arithOp 0x51), (.vlog t, arithOp 0x52), (.vlog2 t, arithOp 0x53),
    (.vtanh t, arithOp 0x54), (.vsigmoid t, arithOp 0x55), (.verf t, arithOp 0x56), (.vsin t, arithOp 0x57),
    (.vcos t, arithOp 0x58), (.vcvt t, cvtOp), (.dequant t, dequantOp), (.scaleGrad t, gradOp),
    (.scaleClear t, clearOp), (.amaxScan t, scanOp), (.scaleForm t, formOp), (.tmatmul t, tareOp),
    (.vredsum t, reduceOp 0x68), (.vredmax t, reduceOp 0x69), (.vredmin t, reduceOp 0x6A)]

/-- Each of them issues its operation on its thread. -/
theorem exec_vectorCommand (t : Thread) (s : State) :
    ∀ row ∈ vectorCommands t, exec row.1 s = onThread t s (fun s => s.issueVector t row.2) := by
  simp only [vectorCommands, List.forall_mem_cons, List.not_mem_nil, false_implies, implies_true, and_true]
  and_intros <;> rfl

/-- A vector command that passes its checks does its operation's work. -/
theorem exec_vectorReady {s : State} {t : Thread} {q : QEntry} {cmd : Cmd} {d : Option Desc} {row : Instr × VOp}
    (hrow : row ∈ vectorCommands t) (h : s.VectorReady t row.2 q cmd d) :
    exec row.1 s = .next (s.vecRun t q cmd row.2 (vblkOf (s.context t) cmd) d) := by
  rw [exec_vectorCommand t s row hrow, h.issues.onThread, h.issueVector]

/-- Settles O14: a command that passes its checks runs its tiles; it is then in flight with their outcome, and where nothing
is reported and no tensor collects, its core's scratch is all that has changed. -/
theorem vectorCommandDoesItsTiles : Obligations.VectorCommandDoesItsTiles := by
  unfold Obligations.VectorCommandDoesItsTiles
  intro s t q cmd d row hrow o hready ho
  replace ho : o = s.vecOut t row.2 (vblkOf (s.context t) cmd) d := ho
  obtain ⟨⟨r, hr, hcmd, hended, hstatus, htile, hflags⟩, hqueue, hregs, hothers⟩ :=
    s.vecRun_issued t q cmd row.2 (vblkOf (s.context t) cmd) d
  rw [← ho] at hstatus htile hflags
  refine ⟨_, r, exec_vectorReady hrow hready, hr, hqueue, hcmd, hended, hstatus, htile, hflags, hregs, hothers, ?_⟩
  rintro rfl hskew hpoison hmem
  have hrun : s.vecRun t q cmd row.2 (vblkOf (s.context t) cmd) none = s.vecLanded t q cmd o := by
    rw [State.vecRun_untensored, ← ho, State.vecReports_quiet _ _ _ _ hskew hpoison hmem]
  rw [hrun]
  exact ⟨s.vecLanded_state t q cmd o, fun c hc => s.vecLanded_otherCore t q cmd o hc,
    fun x hx => s.vecLanded_read t q cmd o hx, s.vecLanded_record t q cmd o⟩

end Sys2Proof.Machine

namespace Sys2Proof.Machine

/-! # What every command answers (R22, R23) -/

/-- A step that needs the given core to be there, or that needs none. -/
def onNeeded (needed : Option CoreId) (s : State) (f : State → State) : Out :=
  match needed with
  | none => .next (f s)
  | some c => onCore c s f

theorem onCore_missing {c : CoreId} (h : coreExists c = false) (s : State) (f : State → State) :
    onCore c s f = .fault .noSuchCore := by simp [onCore, h]

/-- A step completes where the core it needs exists. -/
theorem onNeeded_completes {needed : Option CoreId} (h : ∀ c, needed = some c → coreExists c = true)
    (s : State) (f : State → State) : onNeeded needed s f = .next (f s) := by
  cases needed with
  | none => rfl
  | some c => exact onCore_exists (h c rfl) s f

/-- Every command is a total function on states, under no other guard than that the core it needs exists: its arm of the
dispatch is `.next` of a state, `onCore` of the core it names, or `onThread` of the thread it names. -/
theorem exec_eq_onNeeded (i : Instr) : ∃ f, ∀ s, exec i s = onNeeded (neededCore i) s f := by
  cases i
  all_goals exact ⟨_, fun _ => rfl⟩

/-- Settles O2: each command's arm is a function on states guarded by the core it needs alone. -/
theorem everyCommandAnswersANextState : Obligations.EveryCommandAnswersANextState := by
  unfold Obligations.EveryCommandAnswersANextState
  intro i s
  obtain ⟨f, hf⟩ := exec_eq_onNeeded i
  rw [hf s]
  constructor
  · intro hcore
    exact ⟨f s, onNeeded_completes hcore s f⟩
  · intro c hc hmissing
    rw [hc]
    exact onCore_missing hmissing s f

end Sys2Proof.Machine

namespace Sys2Proof.Machine

/-! # Elements of the number formats (R41, R42, R45, R50, R51, R53, R56, R528) -/

/-! ## Two's complement codes -/

theorem signed_eq_bmod {w : Nat} (hw : 0 < w) (v : Nat) : signed w v = Int.bmod v (2 ^ w) := by
  obtain ⟨k, rfl⟩ : ∃ k, w = k + 1 := ⟨w - 1, by omega⟩
  have hhalf : ((2 ^ (k + 1) : Nat) + 1) / 2 = 2 ^ k := by rw [Nat.pow_succ]; omega
  rw [signed, Int.bmod_def, Nat.add_sub_cancel]
  norm_cast
  simp only [hhalf, ge_iff_le, ← Nat.not_lt, ite_not]

theorem unsigned_cast (w : Nat) (v : Int) : (unsigned w v : Int) = v % 2 ^ w :=
  Int.toNat_of_nonneg (Int.emod_nonneg v (Int.ne_of_gt (Int.pow_pos (by decide))))

theorem unsigned_lt (w : Nat) (v : Int) : unsigned w v < 2 ^ w := by
  have h : (unsigned w v : Int) < 2 ^ w := unsigned_cast w v ▸ Int.emod_lt_of_pos v (Int.pow_pos (by decide))
  exact_mod_cast h

/-- The code of a number is congruent to it modulo 2^w. -/
theorem unsigned_sub_emod (w : Nat) (v : Int) : ((unsigned w v : Int) - v) % 2 ^ w = 0 := by
  rw [unsigned_cast, Int.emod_sub_emod, Int.sub_self, Int.zero_emod]

/-- A number of `w` bits is read back from its code. -/
theorem signed_unsigned {w : Nat} {v : Int} (hw : 0 < w) (hlo : -(2 : Int) ^ (w - 1) ≤ v) (hhi : v < (2 : Int) ^ (w - 1)) :
    signed w (unsigned w v) = v := by
  obtain ⟨k, rfl⟩ : ∃ k, w = k + 1 := ⟨w - 1, by omega⟩
  rw [Nat.add_sub_cancel] at hlo hhi
  have hpow : ((2 ^ (k + 1) : Nat) : Int) = 2 * 2 ^ k := by
    push_cast
    rw [Int.pow_succ, Int.mul_comm]
  have hcode : (unsigned (k + 1) v : Int) = v % (2 ^ (k + 1) : Nat) := by rw [unsigned_cast]; push_cast; rfl
  rw [signed_eq_bmod hw, hcode, Int.emod_bmod]
  exact Int.bmod_eq_of_le_mul_two (by omega) (by omega)

/-! ## Integer formats -/

theorem fmtBits_pos {f : Nat} (h : fmtInt f = true) : 0 < fmtBits f := by
  have hcodes : f < 8 ∨ f = 14 := by simpa [fmtInt] using h
  rcases hcodes with hlow | rfl
  · have hlows : ∀ g, g < 8 → 0 < fmtBits g := by decide
    exact hlows f hlow
  · decide

theorem fmtQmin_le_fmtQmax (f : Nat) : fmtQmin f ≤ fmtQmax f := by
  rw [fmtQmin]
  split <;> omega

/-- The upper end of the range is one below the power of two (Table 2.3). -/
theorem fmtQmax_cast (f : Nat) :
    (fmtQmax f : Int) = if fmtSigned f = true then 2 ^ (fmtBits f - 1) - 1 else 2 ^ fmtBits f - 1 := by
  rw [fmtQmax]
  split <;> push_cast [Nat.one_le_two_pow] <;> rfl

/-- Every number of the quantiser's range has a code of its own (R45). -/
theorem intOf_unsigned {f : Nat} {v : Int} (h : fmtInt f = true) (hlo : fmtQmin f ≤ v) (hhi : v ≤ fmtQmax f) :
    intOf f (unsigned (fmtBits f) v) = v := by
  have hmax := fmtQmax_cast f
  rw [fmtQmin] at hlo
  rw [intOf]
  by_cases hs : fmtSigned f = true
  · rw [if_pos hs] at hmax hlo ⊢
    exact signed_unsigned (fmtBits_pos h) (by omega) (by omega)
  · rw [if_neg hs] at hmax hlo ⊢
    rw [Nat.mod_eq_of_lt (unsigned_lt _ _), unsigned_cast, Int.emod_eq_of_lt hlo (by omega)]

/-! ## Integer elements (R528) -/

theorem arithElem_int {op : Nat} {k : VBlk} (hop : op ≠ 0x4F) (h : fmtInt k.dstFmt = true) (c : Context) (a b d : Nat) :
    arithElem c op k a b d =
      { bits := unsigned (fmtBits k.dstFmt) (intResult op (intOf k.s0Fmt a) (intOf k.s1Fmt b) (intOf k.dstFmt d)).1,
        flags := if (intResult op (intOf k.s0Fmt a) (intOf k.s1Fmt b) (intOf k.dstFmt d)).2 then flDivzero else 0 } := by
  rw [arithElem, if_neg hop, if_pos h]

/-- An integer division by zero gives 0 and says so, any other truncates toward zero. -/
theorem intResult_div (x y z : Int) : intResult 0x44 x y z = (if y = 0 then 0 else x.tdiv y, decide (y = 0)) := by
  simp only [intResult]
  split <;> simp_all

/-- The exact result of each integer operation, before it wraps, and its one exception. -/
theorem intResult_eq (x y z : Int) :
    ∀ row ∈ ([(0x40, x + y), (0x41, x - y), (0x42, x * y), (0x43, x * y + z), (0x44, if y = 0 then 0 else x.tdiv y),
         (0x48, if x ≤ y then x else y), (0x49, if x ≤ y then y else x), (0x4A, if x ≤ y then x else y),
         (0x4B, if x ≤ y then y else x), (0x4C, if x < 0 then -x else x), (0x4D, -x)] : List (Nat × Int)),
      row.1 ≠ 0x4F ∧ intResult row.1 x y z = (row.2, decide (row.1 = 0x44 ∧ y = 0)) := by
  have hmin : min x y = if x ≤ y then x else y := Int.min_def x y
  have hmax : max x y = if x ≤ y then y else x := Int.max_def x y
  have habs : (x.natAbs : Int) = if x < 0 then -x else x := by split <;> omega
  simp only [List.forall_mem_cons, List.not_mem_nil, false_implies, implies_true, and_true]
  refine ⟨?_, ?_, ?_, ?_, ⟨by decide, by simp [intResult_div]⟩, ?_, ?_, ?_, ?_, ?_, ?_⟩
  all_goals simp [intResult, hmin, hmax, habs]

/-! ## The sign bit (R42) -/

theorem fmtInt_of_fmtFloat {f : Nat} (h : fmtFloat f = true) : fmtInt f = false := by
  have hcodes : 8 ≤ f ∧ f < 14 := by simpa [fmtFloat] using h
  have hnot : ¬(f < 8 ∨ f = 14) := by omega
  simpa [fmtInt] using hnot

/-- A sign-bit operation on one floating format acts on the bits and raises nothing. -/
theorem arithElem_sign {op : Nat} {c : Context} {k : VBlk} (hop : op = 0x4C ∨ op = 0x4D ∨ op = 0x4E)
    (htare : c.tare = false) (hfloat : fmtFloat k.dstFmt = true) (hsame : k.s0Fmt = k.dstFmt) (a b d : Nat) :
    arithElem c op k a b d = { bits := signOp op k.dstFmt a (signOf k.s1Fmt b) } := by
  have hint := fmtInt_of_fmtFloat hfloat
  rcases hop with rfl | rfl | rfl
  all_goals simp [arithElem, floatElem, hint, htare, hsame]

/-- VABS clears the sign bit, VNEG turns it over and VCOPYSIGN takes the one it is given. -/
theorem signOp_eq {f a : Nat} (ha : a < 2 * fmtSign f) (sg : Bool) :
    ∀ row ∈ ([(0x4C, false), (0x4D, !decide (fmtSign f ≤ a)), (0x4E, sg)] : List (Nat × Bool)),
      (row.1 = 0x4C ∨ row.1 = 0x4D ∨ row.1 = 0x4E)
        ∧ signOp row.1 f a sg = a % fmtSign f + if row.2 then fmtSign f else 0 := by
  have hpos : 0 < fmtSign f := Nat.two_pow_pos _
  have hbit : a / fmtSign f % 2 = 1 ↔ fmtSign f ≤ a := by
    have hlt : a / fmtSign f < 2 := Nat.div_lt_of_lt_mul (by omega)
    rw [Nat.mod_eq_of_lt hlt, ← Nat.one_le_div_iff hpos]
    omega
  simp only [List.forall_mem_cons, List.not_mem_nil, false_implies, implies_true, and_true]
  refine ⟨⟨by decide, by simp [signOp]⟩, ⟨by decide, ?_⟩, ⟨by decide, ?_⟩⟩
  · simp only [signOp, hbit]
    by_cases hs : fmtSign f ≤ a <;> simp [hs]
  · cases sg <;> simp [signOp]

/-- A remainder below a sign bit, and the sign bit beside it. -/
theorem signBit_apart {n : Nat} (hn : 0 < n) (a : Nat) (sg : Bool) :
    (a % n + if sg then n else 0) % n = a % n ∧ (a % n + if sg then n else 0) / n = if sg then 1 else 0 := by
  have hlt : a % n < n := Nat.mod_lt a hn
  cases sg
  · simp [Nat.div_eq_of_lt hlt]
  · simp [Nat.add_div_right _ hn, Nat.div_eq_of_lt hlt]

/-! ## Rounding (R50, R51, R53, R56) -/

section Rounding

variable {m d : Nat} {e q : Int} (hlt : e < q) (hd : d = (q - e).toNat)
include hlt hd

theorem roundTo_eq (mode : Rnd) : roundTo mode m e q =
    (if mode.up (m / 2 ^ d) (m % 2 ^ d) d then m / 2 ^ d + 1 else m / 2 ^ d, decide (m % 2 ^ d = 0)) := by
  rw [roundTo, if_neg (by omega), ← hd]

/-- A mode that goes up from the half on and down to the half at most gives a nearest multiple. -/
theorem roundTo_nearest {mode : Rnd}
    (hup : mode.up (m / 2 ^ d) (m % 2 ^ d) d = true → 2 ^ d ≤ 2 * (m % 2 ^ d))
    (hdown : mode.up (m / 2 ^ d) (m % 2 ^ d) d = false → 2 * (m % 2 ^ d) ≤ 2 ^ d) :
    2 * (roundTo mode m e q).1 * 2 ^ d ≤ 2 * m + 2 ^ d ∧ 2 * m ≤ 2 * (roundTo mode m e q).1 * 2 ^ d + 2 ^ d := by
  have hm := Nat.div_add_mod' m (2 ^ d)
  have hrem : m % 2 ^ d < 2 ^ d := Nat.mod_lt m (Nat.two_pow_pos d)
  rw [roundTo_eq hlt hd, Nat.mul_assoc]
  cases hmode : mode.up (m / 2 ^ d) (m % 2 ^ d) d
  · have := hdown hmode
    simp only [Bool.false_eq_true, if_false]
    omega
  · have := hup hmode
    simp only [if_true, Nat.add_mul, Nat.one_mul]
    omega

theorem roundTo_even :
    2 * (roundTo .even m e q).1 * 2 ^ d ≤ 2 * m + 2 ^ d ∧ 2 * m ≤ 2 * (roundTo .even m e q).1 * 2 ^ d + 2 ^ d
      ∧ (2 * (m % 2 ^ d) = 2 ^ d → (roundTo .even m e q).1 % 2 = 0) := by
  obtain ⟨hlow, hhigh⟩ := roundTo_nearest (m := m) hlt hd (mode := .even)
    (by simp only [Rnd.up, decide_eq_true_eq]; omega) (by simp only [Rnd.up, decide_eq_false_iff_not]; omega)
  refine ⟨hlow, hhigh, fun htie => ?_⟩
  rw [roundTo_eq hlt hd]
  simp only [Rnd.up, decide_eq_true_eq]
  split <;> omega

theorem roundTo_away :
    2 * (roundTo .away m e q).1 * 2 ^ d ≤ 2 * m + 2 ^ d ∧ 2 * m ≤ 2 * (roundTo .away m e q).1 * 2 ^ d + 2 ^ d
      ∧ (2 * (m % 2 ^ d) = 2 ^ d → (roundTo .away m e q).1 = m / 2 ^ d + 1) := by
  have hpow : 0 < 2 ^ d := Nat.two_pow_pos d
  obtain ⟨hlow, hhigh⟩ := roundTo_nearest (m := m) hlt hd (mode := .away)
    (by simp only [Rnd.up, decide_eq_true_eq]; omega) (by simp only [Rnd.up, decide_eq_false_iff_not]; omega)
  refine ⟨hlow, hhigh, fun htie => ?_⟩
  have hup : Rnd.up .away (m / 2 ^ d) (m % 2 ^ d) d = true := by simp only [Rnd.up, decide_eq_true_eq]; omega
  rw [roundTo_eq hlt hd, hup, if_pos rfl]

theorem roundTo_zero :
    (roundTo .zero m e q).1 * 2 ^ d ≤ m ∧ m < ((roundTo .zero m e q).1 + 1) * 2 ^ d := by
  rw [roundTo_eq hlt hd]
  exact ⟨Nat.div_mul_le_self m _, Nat.lt_mul_of_div_lt (Nat.lt_succ_self _) (Nat.two_pow_pos d)⟩

theorem roundTo_stoch (r : Nat) : (roundTo (.stoch r) m e q).1 =
    if r < 2 ^ 24 * (m % 2 ^ d) / 2 ^ d then m / 2 ^ d + 1 else m / 2 ^ d := by
  simp only [roundTo_eq hlt hd, Rnd.up, decide_eq_true_eq]

/-- A multiple of the target's unit is kept by every mode. -/
theorem roundTo_exact (mode : Rnd) (h : m % 2 ^ d = 0) : roundTo mode m e q = (m / 2 ^ d, true) := by
  have hpow : 0 < 2 ^ d := Nat.two_pow_pos d
  have hstay : mode.up (m / 2 ^ d) 0 d = false := by cases mode <;> simp [Rnd.up, Nat.ne_of_lt hpow]
  simp [roundTo_eq hlt hd, h, hstay]

end Rounding

/-! ## Conversion to an integer format (R45) -/

/-- A number brought within the quantiser's range of a format. -/
def fmtClamp (f : Nat) (x : Int) : Int :=
  if x > fmtQmax f then (fmtQmax f : Int) else if x < fmtQmin f then fmtQmin f else x

theorem fmtClamp_in_range (f : Nat) (x : Int) : fmtQmin f ≤ fmtClamp f x ∧ fmtClamp f x ≤ fmtQmax f := by
  have := fmtQmin_le_fmtQmax f
  rw [fmtClamp]
  split
  · omega
  · split <;> omega

theorem fmtClamp_ne_iff (f : Nat) (x : Int) : fmtClamp f x ≠ x ↔ x > fmtQmax f ∨ x < fmtQmin f := by
  rw [fmtClamp]
  split
  · omega
  · split <;> omega

theorem toInteger_inf (f : Nat) (mode : Rnd) (rounds neg : Bool) : toInteger f mode rounds (.inf neg) =
    { bits := unsigned (fmtBits f) (if neg then fmtQmin f else fmtQmax f), sat := true } := rfl

/-- A finite value is rounded to an integer and clamped. -/
theorem toInteger_fin (f : Nat) (mode : Rnd) (rounds neg : Bool) (m : Nat) (e x : Int)
    (hx : x = if neg then -((roundTo mode m e 0).1 : Int) else ((roundTo mode m e 0).1 : Int)) :
    (toInteger f mode rounds (.fin neg m e)).bits = unsigned (fmtBits f) (fmtClamp f x)
      ∧ (toInteger f mode rounds (.fin neg m e)).sat = decide (fmtClamp f x ≠ x) := by
  subst hx
  exact ⟨rfl, rfl⟩

/-! ## The statement -/

/-- Settles O16: integer elements by the exact results of their operations and the codes they wrap to, the sign bit by
its place above the rest, rounding by the mode's choice between two neighbours, conversion by the clamp. -/
theorem elementsAreComputedAsTheFormatsSay : Obligations.ElementsAreComputedAsTheFormatsSay := by
  unfold Obligations.ElementsAreComputedAsTheFormatsSay
  refine ⟨?_, ?_, ?_, ?_⟩
  · rintro c k a b d x y z hint rfl rfl rfl row hrow
    obtain ⟨hop, hres⟩ := intResult_eq _ _ _ row hrow
    rw [arithElem_int hop hint, hres]
    refine ⟨unsigned_lt _ _, unsigned_sub_emod _ _, ?_, rfl⟩
    simp only [decide_eq_true_eq]
  · intro c k a b d htare hfloat hsame ha row hrow
    obtain ⟨hop, hbits⟩ := signOp_eq ha _ row hrow
    obtain ⟨hrest, hsign⟩ := signBit_apart (Nat.two_pow_pos _ : 0 < fmtSign k.dstFmt) a row.2
    rw [arithElem_sign hop htare hfloat hsame, hbits]
    exact ⟨hrest, hsign, rfl⟩
  · intro m e q d hlt hd
    exact ⟨roundTo_even hlt hd, roundTo_away hlt hd, roundTo_zero hlt hd, fun r _ => roundTo_stoch hlt hd r,
      roundTo_exact hlt hd⟩
  · intro f mode rounds hint
    refine ⟨fun sg => ⟨rfl, rfl⟩, fun neg => ⟨?_, rfl⟩, fun neg m e x hx => ?_⟩
    · have hends := fmtQmin_le_fmtQmax f
      rw [toInteger_inf, intOf_unsigned hint]
      all_goals split <;> omega
    · obtain ⟨hbits, hsat⟩ := toInteger_fin f mode rounds neg m e x hx
      obtain ⟨hlo, hhi⟩ := fmtClamp_in_range f x
      rw [hbits, hsat, intOf_unsigned hint hlo hhi, decide_eq_true_eq, fmtClamp_ne_iff]
      exact ⟨rfl, Iff.rfl⟩

end Sys2Proof.Machine

namespace Sys2Proof.Machine

/-! # The matrix array (R66-R105, R129, R209, R529) -/

/-! ## Maps written one entry after another -/

/-- A key reads `v` after a run of sets, each of which writes `v` where it names that key, if it read `v` before or one of
them names it. -/
theorem Sparse.get_foldl_set {α β : Type} [DecidableEq α] (d : α) {key : β → Nat} {val : β → α} {k : Nat} {v : α}
    (l : List β) : ∀ m : Sparse α, (∀ e ∈ l, key e = k → val e = v) → (Sparse.get d m k = v ∨ ∃ e ∈ l, key e = k) →
      Sparse.get d (l.foldl (fun m e => Sparse.set d m (key e) (val e)) m) k = v := by
  induction l with
  | nil => intro m _ h; simpa using h
  | cons e l ih =>
    intro m hv h
    refine ih _ (fun e' he' => hv e' (List.mem_cons_of_mem _ he')) ?_
    rw [Sparse.get_set]
    by_cases hk : k = key e
    · exact .inl (by rw [if_pos hk, hv e List.mem_cons_self hk.symm])
    · rw [if_neg hk]
      refine h.imp_right ?_
      rintro ⟨e', he', hke⟩
      rcases List.mem_cons.1 he' with rfl | he'
      · exact absurd hke.symm hk
      · exact ⟨e', he', hke⟩

/-- A key that no set names reads as before. -/
theorem Sparse.get_foldl_set_other {α β : Type} [DecidableEq α] (d : α) {key : β → Nat} (val : β → α) {k : Nat}
    {l : List β} (m : Sparse α) (h : ∀ e ∈ l, key e ≠ k) :
    Sparse.get d (l.foldl (fun m e => Sparse.set d m (key e) (val e)) m) k = Sparse.get d m k :=
  Sparse.get_foldl_set d l m (fun e he hk => absurd hk (h e he)) (.inl rfl)

/-! ## Scratch -/

theorem readScratch_congr {c c' : Core} {o n : Nat}
    (h : ∀ i, i < n → Memory.read c'.scratch (o + i) = Memory.read c.scratch (o + i)) :
    c'.readScratch o n = c.readScratch o n :=
  List.map_congr_left fun i hi => by rw [h i (List.mem_range.1 hi)]

theorem scratchOpen_of_general {x : Nat} (h : x < generalEnd) : scratchOpen x := by
  unfold generalEnd at h
  have hbelow : ¬ 0x1FB300 ≤ x := by omega
  exact ⟨by simp [scratchHole, hbelow], by omega⟩

/-- No word of a core's scratch is poisoned. -/
def Core.clean (c : Core) : Prop := ∀ o, Sparse.get false c.scratchPoison o = false

theorem Core.clean.scratchPoisoned {c : Core} (h : c.clean) (o n : Nat) : c.scratchPoisoned o n = false := by
  have hword : ∀ o, Sparse.get false c.scratchPoison o = false := h
  simp [Core.scratchPoisoned, hword]

/-- The marked bytes that fall in the scratch word from `base` on. -/
def markedCells (o base : Nat) (bs : List (Byte × Bool)) : List (Nat × (Byte × Bool)) :=
  (upTo 32).filterMap (fun k =>
    if o ≤ base + k ∧ base + k < o + bs.length then (bs[base + k - o]?).map (fun b => (k, b)) else none)

theorem mem_markedCells {o base : Nat} {bs : List (Byte × Bool)} {e : Nat × (Byte × Bool)} :
    e ∈ markedCells o base bs ↔ e.1 < 32 ∧ o ≤ base + e.1 ∧ bs[base + e.1 - o]? = some e.2 := by
  simp only [markedCells, List.mem_filterMap, upTo, List.mem_range, Option.ite_none_right_eq_some, Option.map_eq_some_iff]
  constructor
  · rintro ⟨k, hk, ⟨hlo, -⟩, b, hb, rfl⟩
    exact ⟨hk, hlo, hb⟩
  · rintro ⟨hk, hlo, hb⟩
    have hlt := (List.getElem?_eq_some_iff.1 hb).1
    exact ⟨e.1, hk, ⟨hlo, by omega⟩, e.2, hb, rfl⟩

/-- What a word's marked bytes leave in open scratch. -/
theorem read_storeScratch_marked (c : Core) (o base : Nat) (bs : List (Byte × Bool)) (poison : Bool) (x : Nat)
    (h : ∀ i, i < bs.length → scratchOpen (o + i)) :
    Memory.read (c.storeScratch base ((markedCells o base bs).map (fun e => (e.1, e.2.1))) poison).scratch x
      = if base ≤ x ∧ x < base + 32 ∧ o ≤ x ∧ x < o + bs.length then (bs.getD (x - o) (0, false)).1
        else Memory.read c.scratch x := by
  have hkept : ∀ e ∈ (markedCells o base bs).map (fun e => (e.1, e.2.1)),
      (!scratchHole (base + e.1) && decide (base + e.1 < 0x200000)) = true := by
    intro e he
    obtain ⟨e', he', rfl⟩ := List.mem_map.1 he
    obtain ⟨-, hlo, hb⟩ := mem_markedCells.1 he'
    obtain ⟨hhole, hend⟩ := h (base + e'.1 - o) (List.getElem?_eq_some_iff.1 hb).1
    rw [Nat.add_sub_cancel' hlo] at hhole hend
    simp [hhole, hend]
  have hstore : (c.storeScratch base ((markedCells o base bs).map (fun e => (e.1, e.2.1))) poison).scratch
      = (markedCells o base bs).foldl (fun m e => Sparse.set 0 m (base + e.1) e.2.1) c.scratch := by
    change storeCells c.scratch base (List.filter _ _) = _
    rw [List.filter_eq_self.2 hkept, storeCells, List.foldl_map]
  rw [hstore]
  split
  · rename_i hin
    have hx : base + (x - base) = x := by omega
    have hb : bs[base + (x - base) - o]? = some (bs.getD (x - o) (0, false)) := by
      rw [hx, List.getD_eq_getElem?_getD, List.getElem?_eq_getElem (by omega), Option.getD_some]
    have hmem : (x - base, bs.getD (x - o) (0, false)) ∈ markedCells o base bs :=
      mem_markedCells.2 ⟨by dsimp only; omega, by dsimp only; omega, hb⟩
    refine Sparse.get_foldl_set 0 _ _ (fun e he hk => ?_) (.inr ⟨_, hmem, hx⟩)
    obtain ⟨-, -, hb'⟩ := mem_markedCells.1 he
    rw [hk] at hb'
    simp [List.getD_eq_getElem?_getD, hb']
  · rename_i hout
    refine Sparse.get_foldl_set_other 0 _ _ fun e he hk => hout ?_
    obtain ⟨hlt, hlo, hb⟩ := mem_markedCells.1 he
    have := (List.getElem?_eq_some_iff.1 hb).1
    omega

/-- Marked bytes written where scratch is open stand there, and every other byte reads as before. -/
theorem read_writeMarked (c : Core) (o : Nat) (bs : List (Byte × Bool)) (x : Nat)
    (h : ∀ i, i < bs.length → scratchOpen (o + i)) :
    Memory.read (c.writeMarked o bs).scratch x
      = if o ≤ x ∧ x < o + bs.length then (bs.getD (x - o) (0, false)).1 else Memory.read c.scratch x := by
  have hwords : ∀ words : Nat, Memory.read ((upTo words).foldl (fun c w =>
        c.storeScratch (o / 32 * 32 + 32 * w) ((markedCells o (o / 32 * 32 + 32 * w) bs).map (fun e => (e.1, e.2.1)))
          ((markedCells o (o / 32 * 32 + 32 * w) bs).any (fun e => e.2.2))) c).scratch x
      = if o ≤ x ∧ x < o + bs.length ∧ x < o / 32 * 32 + 32 * words then (bs.getD (x - o) (0, false)).1
        else Memory.read c.scratch x := by
    intro words
    induction words with
    | zero => rw [if_neg (by omega)]; rfl
    | succ words ih =>
      rw [upTo, List.range_succ, List.foldl_append, List.foldl_cons, List.foldl_nil,
        read_storeScratch_marked _ _ _ _ _ _ h]
      rw [upTo] at ih
      rw [ih]
      by_cases hword : o / 32 * 32 + 32 * words ≤ x ∧ x < o / 32 * 32 + 32 * words + 32 ∧ o ≤ x ∧ x < o + bs.length
      · rw [if_pos hword, if_pos (by omega)]
      · rw [if_neg hword]
        exact ite_congr (propext (by omega)) (fun _ => rfl) (fun _ => rfl)
  exact (hwords ((o % 32 + bs.length + 31) / 32)).trans
    (ite_congr (propext (by omega)) (fun _ => rfl) (fun _ => rfl))

/-- Marked bytes written where scratch is open are read back. -/
theorem readScratch_writeMarked (c : Core) (o : Nat) (bs : List (Byte × Bool))
    (h : ∀ i, i < bs.length → scratchOpen (o + i)) :
    (c.writeMarked o bs).readScratch o bs.length = bs.map Prod.fst := by
  refine List.ext_getElem (by simp [Core.readScratch, upTo]) fun i _ hi => ?_
  rw [List.length_map] at hi
  obtain ⟨hhole, hend⟩ := h i hi
  simp only [Core.readScratch, upTo, List.getElem_map, List.getElem_range, read_writeMarked c o bs _ h]
  simp [hhole, hi]
  omega

/-! ## The command on an array -/

theorem State.arrayCmd_live {s : State} {core : CoreId} {x : ArrayCmd} (hlive : s.live = true)
    (hx : (s.core core).array.cmd = some x) : s.arrayCmd core = some x := by rw [State.arrayCmd, if_pos hlive, hx]

/-- Reaching a tile changes which tile is in progress and which comes next, and nothing else of the command. -/
theorem Core.reachTile_eq (k : Core) (fuel : Nat) : ∀ x : ArrayCmd,
    k.reachTile x fuel = { x with next := (k.reachTile x fuel).next, cur := (k.reachTile x fuel).cur } := by
  induction fuel with
  | zero => exact fun _ => rfl
  | succ fuel ih =>
    intro x
    rw [Core.reachTile]
    split
    · rfl
    · dsimp only
      split
      · exact ih _
      · rfl

/-- A command with a tile in progress, with a fault, or with no tile left reaches no tile. -/
def ArrayCmd.settled (x : ArrayCmd) : Prop := x.cur.isSome = true ∨ x.fault.isSome = true ∨ x.stop ≤ x.next

theorem Core.reachTile_settled (k : Core) {x : ArrayCmd} (h : x.settled) (fuel : Nat) : k.reachTile x fuel = x := by
  cases fuel with
  | zero => rfl
  | succ fuel => rw [Core.reachTile, if_pos (by simpa [ArrayCmd.settled, or_assoc] using h)]

/-- A next tile that feeds a row is reached at once (R529). -/
theorem Core.reachTile_fed (k : Core) {x : ArrayCmd} (hcur : x.cur = none) (hfault : x.fault = none)
    (hnext : x.next < x.stop) (hrows : k.fedRows x.cmd (x.cmd.mRowTile x.next) ≠ []) (fuel : Nat) :
    k.reachTile x (fuel + 1)
      = { x with next := x.next + 1,
                 cur := some (newTile k.array x.next (k.fedRows x.cmd (x.cmd.mRowTile x.next))) } := by
  have hgoes : (x.cur.isSome || x.fault.isSome || decide (x.next ≥ x.stop)) = false := by
    rw [hcur, hfault]
    exact decide_eq_false (by omega)
  have hfeeds : (k.fedRows x.cmd (x.cmd.mRowTile x.next)).isEmpty = false := List.isEmpty_eq_false_iff.2 hrows
  rw [Core.reachTile]
  simp only [hgoes, hfeeds, Bool.false_eq_true, if_false]

/-- The command that a core's array holds once `x` is put on it. -/
def Core.reached (k : Core) (x : ArrayCmd) : ArrayCmd := k.reachTile x (x.stop - x.next + 1)

theorem Core.reached_eq (k : Core) (x : ArrayCmd) :
    k.reached x = { x with next := (k.reached x).next, cur := (k.reached x).cur } := k.reachTile_eq _ x

@[simp] theorem Core.reached_waiting (k : Core) (x : ArrayCmd) : (k.reached x).waiting = x.waiting := by
  rw [Core.reached_eq]

@[simp] theorem Core.reached_drains (k : Core) (x : ArrayCmd) : (k.reached x).drains = x.drains := by
  rw [Core.reached_eq]

theorem Core.reached_settled (k : Core) {x : ArrayCmd} (h : x.settled) : k.reached x = x := k.reachTile_settled h _

/-- Putting a command on a core's array changes the command on it alone. -/
theorem State.core_setArray (s : State) (core : CoreId) (x : ArrayCmd) :
    (s.setArray core x).core core
      = { s.core core with array := { (s.core core).array with cmd := some ((s.core core).reached x) } } :=
  s.core_setCore_self core _

@[simp] theorem State.setArray_cmd (s : State) (core : CoreId) (x : ArrayCmd) :
    ((s.setArray core x).core core).array.cmd = some ((s.core core).reached x) := by rw [State.core_setArray]

/-- A settled command is on the array as it was put there. -/
theorem State.setArray_settled (s : State) (core : CoreId) {x : ArrayCmd} (h : x.settled) :
    ((s.setArray core x).core core).array.cmd = some x := by rw [State.setArray_cmd, Core.reached_settled _ h]

theorem State.readScratch_setArray (s : State) (core : CoreId) (x : ArrayCmd) (o n : Nat) :
    ((s.setArray core x).core core).readScratch o n = (s.core core).readScratch o n := by rw [State.core_setArray]; rfl

@[simp] theorem State.setArray_scratch (s : State) (core : CoreId) (x : ArrayCmd) :
    ((s.setArray core x).core core).scratch = (s.core core).scratch := by rw [State.core_setArray]

theorem State.setArray_sameContexts (s : State) (core : CoreId) (x : ArrayCmd) : s.SameContexts (s.setArray core x) :=
  .setCore rfl

/-- A core set with the command it had. -/
theorem State.setArray_setCore (s : State) (core : CoreId) (k : Core) (x : ArrayCmd) :
    ((s.setCore core k).setArray core x).core core
      = { k with array := { k.array with cmd := some (k.reached x) } } := by
  rw [State.core_setArray, State.core_setCore_self]

/-! ## The end of a command -/

/-- A tile of the command is in progress, waits for its commit point, or drains. -/
def ArrayCmd.working (x : ArrayCmd) : Prop := x.cur.isSome = true ∨ x.waiting ≠ [] ∨ x.drains ≠ []

theorem State.finishArray_working {s : State} {core : CoreId} {x : ArrayCmd} (hx : (s.core core).array.cmd = some x)
    (h : x.working) : s.finishArray core = s := by
  have hnot : (x.cur.isNone && x.waiting.isEmpty && x.drains.isEmpty) = false := by
    rcases h with h | h | h
    · simp [Option.isSome_iff_ne_none.1 h]
    · simp [h]
    · simp [h]
  rw [State.finishArray, hx]
  simp [hnot]

theorem State.endRun_stream {s : State} {t : Thread} {st : Stream} {r : Running} (h : (s.stream t st).cur = some r)
    (status : BitVec 8) (tile : Nat) (flags : BitVec 5) :
    ((s.endRun t st status tile flags).stream t st).cur
      = some { r with ended := true, status := status, tile := BitVec.ofNat 32 tile, flags := flags } := by
  simp [State.endRun, h]

/-- The status and the tile that a command ends with: its fault's, else OK. -/
def ArrayCmd.outcome (x : ArrayCmd) : BitVec 8 × Nat := x.fault.getD (stOk, 0)

/-- A command's outcome on its stream, if a command of it is still in flight there. -/
def State.reportArray (s : State) (x : ArrayCmd) : State :=
  if (s.stream x.thread .matrix).cur.isNone then s
  else (s.endRun x.thread .matrix x.outcome.1 x.outcome.2 x.flags).writeExc x.thread .matrix x.exc

theorem State.reportArray_stream {s : State} {x : ArrayCmd} {r : Running}
    (h : (s.stream x.thread .matrix).cur = some r) :
    ((s.reportArray x).stream x.thread .matrix).cur = some { r with
      ended := true, status := x.outcome.1, tile := BitVec.ofNat 32 x.outcome.2, flags := x.flags } := by
  rw [State.reportArray, if_neg (by simp [h]), (State.writeExc_sameContexts ..).stream, State.endRun_stream h]

/-- A core whose array has let its command go. -/
def Core.freed (k : Core) : Core := { k with array := { k.array with cmd := none, held := none } }

/-- A command with nothing left to do reports its outcome and leaves the array (R82, R99, R103). -/
theorem State.finishArray_done {s : State} {core : CoreId} {x : ArrayCmd} (hx : (s.core core).array.cmd = some x)
    (hcur : x.cur = none) (hwaiting : x.waiting = []) (hdrains : x.drains = [])
    (hover : x.fault.isSome = true ∨ x.stop ≤ x.next) :
    s.finishArray core = (s.reportArray x).setCore core ((s.reportArray x).core core).freed := by
  have hdone : (x.cur.isNone && x.waiting.isEmpty && x.drains.isEmpty
      && (x.fault.isSome || decide (x.next ≥ x.stop))) = true := by
    simpa [hcur, hwaiting, hdrains] using hover
  rw [State.finishArray, hx]
  simp only [hdone, if_true]
  rfl

theorem State.finishArray_ends {s : State} {core : CoreId} {x : ArrayCmd} (hx : (s.core core).array.cmd = some x)
    (hcur : x.cur = none) (hwaiting : x.waiting = []) (hdrains : x.drains = [])
    (hover : x.fault.isSome = true ∨ x.stop ≤ x.next) :
    ((s.finishArray core).core core).array.cmd = none
      ∧ ∀ r, (s.stream x.thread .matrix).cur = some r →
        ((s.finishArray core).stream x.thread .matrix).cur = some { r with
          ended := true, status := x.outcome.1, tile := BitVec.ofNat 32 x.outcome.2, flags := x.flags } := by
  rw [State.finishArray_done hx hcur hwaiting hdrains hover]
  refine ⟨by rw [State.core_setCore_self]; rfl, fun r hr => ?_⟩
  have hfreed : (s.reportArray x).SameContexts ((s.reportArray x).setCore core ((s.reportArray x).core core).freed) :=
    .setCore rfl
  rw [hfreed.stream, State.reportArray_stream hr]

/-! ## The tail of a tile -/

/-- The drain-out of a tile that had passes, as its commit point starts it (R80, R81). -/
def ArrayState.drainOf (a : ArrayState) (c : Cmd) (t : TileRun) : DrainRun where
  index := t.index
  start := Sparse.get 0 a.rowReadAt (t.rows.headD 0)
  interval := drainInterval (c.mNValid (c.mColTile t.index)) (drainSize c.mDrain)
  rows := t.rows
  done := []
  acc := t.acc
  rowScales := t.rowScales
  colScales := t.colScales
  odd := []

/-- A row of a raw drain: the accumulators of its columns modulo 2^48, six bytes each (R82). -/
def rawRow (acc : Sparse Int) (m n : Nat) : List Byte :=
  (List.range n).flatMap (fun k => leBytes 6 (Sparse.get 0 acc (m * 144 + k) % (2 : Int) ^ 48).toNat)

theorem rawRow_length (acc : Sparse Int) (m n : Nat) : (rawRow acc m n).length = 6 * n := by
  simp only [rawRow, List.length_flatMap, leBytes_length, List.map_const', List.length_range, List.sum_replicate_nat,
    Nat.mul_comm]

theorem foldl_keep {α β : Type} (a : α) (l : List β) : l.foldl (fun a _ => a) a = a := by
  induction l with
  | nil => rfl
  | cons _ _ ih => exact ih

/-- The marked bytes of a row's raw elements, none of them poisoned. -/
theorem rawRow_marked (acc : Sparse Int) (m n : Nat) :
    (((upTo n).map (fun k => ({ bits := unsigned 48 (Sparse.get 0 acc (m * 144 + k)) } : Elem))).zipIdx).flatMap
        (fun e => (leBytes 6 e.1.bits).map (fun b => (b, false)))
      = (rawRow acc m n).map (fun b => (b, false)) := by
  have hfst : ∀ (l : List Elem), l.zipIdx.flatMap (fun e => (leBytes 6 e.1.bits).map (fun b => (b, false)))
      = (l.flatMap (fun e => leBytes 6 e.bits)).map (fun b => (b, false)) := by
    intro l
    conv => rhs; rw [← List.zipIdx_map_fst 0 l, List.flatMap_map, List.map_flatMap]
  rw [hfst, List.flatMap_map]
  rfl

/-- A state once clean bytes stand in a core's scratch, `n` free values later. -/
def State.rowWritten (s : State) (core : CoreId) (o n : Nat) (bs : List Byte) : State :=
  { s.putCore core (fun k => k.writeMarked o (bs.map (fun b => (b, false)))) with freeCount := s.freeCount + n }

theorem State.core_rowWritten (s : State) (core : CoreId) (o n : Nat) (bs : List Byte) :
    (s.rowWritten core o n bs).core core = (s.core core).writeMarked o (bs.map (fun b => (b, false))) :=
  s.core_setCore_self core _

section RowWritten

variable {o : Nat} {bs : List Byte} (hend : o + bs.length ≤ generalEnd)
include hend

theorem rowWritten_open : ∀ i, i < (bs.map (fun b => (b, false))).length → scratchOpen (o + i) := by
  intro i hi
  rw [List.length_map] at hi
  exact scratchOpen_of_general (by omega)

/-- The bytes stand in scratch. -/
theorem State.readScratch_rowWritten (s : State) (core : CoreId) (n : Nat) :
    ((s.rowWritten core o n bs).core core).readScratch o bs.length = bs := by
  have hread := readScratch_writeMarked (s.core core) o _ (rowWritten_open hend)
  rw [List.length_map, List.map_map] at hread
  rw [State.core_rowWritten, hread]
  exact List.map_id bs

/-- Nothing else in scratch changes. -/
theorem State.read_rowWritten_other (s : State) (core : CoreId) (n : Nat) {a : Nat} (ha : a < o ∨ o + bs.length ≤ a) :
    Memory.read ((s.rowWritten core o n bs).core core).scratch a = Memory.read (s.core core).scratch a := by
  rw [State.core_rowWritten, read_writeMarked _ _ _ _ (rowWritten_open hend), if_neg (by rw [List.length_map]; omega)]

end RowWritten

section Tail

variable {s : State} {core : CoreId} {x : ArrayCmd} (hcore : coreExists core = true) (hlive : s.live = true)
  (hx : (s.core core).array.cmd = some x)
include hcore hlive hx

/-- At its commit point a tile without fault or skew goes to drain (R80). -/
theorem exec_tileCommitPoint {t : TileRun} {rest : List TileRun} (hwaiting : x.waiting = t :: rest)
    (hfault : t.fault = none) (hpass : 0 < x.cmd.mTK)
    (hskew : tileSkew (fun h => Sparse.get false x.firstPass h) (s.core core) x.cmd t.rows t.index = none) :
    exec (.tileCommitPoint core) s = .next ((s.setCore core (s.core core)).setArray core
      { x with waiting := rest, drains := x.drains ++ [(s.core core).array.drainOf x.cmd t] }) := by
  have hcommit : x.committing = some (t, { x with waiting := rest }) := by rw [ArrayCmd.committing, hwaiting]
  have hnoPass : decide (x.cmd.mTK = 0) = false := decide_eq_false (by omega)
  change execTileCommitPoint core s = _
  rw [execTileCommitPoint, onCore_exists hcore]
  simp only [State.arrayCmd_live hlive hx, hcommit, hnoPass, Bool.false_and, Bool.false_eq_true, if_false, hfault, hskew]
  rfl

/-- A raw drain writes the accumulators of its next row to scratch (R81, R82). -/
theorem exec_drainOutRowRead {d : DrainRun} {rest : List DrainRun} {m n o : Nat} (hdrains : x.drains = d :: rest)
    (hnext : d.nextRow = some m) (hraw : x.cmd.mDrain = 0) (hn : n = x.cmd.mNValid (x.cmd.mColTile d.index))
    (ho : o = x.cmd.mOut + (288 * x.cmd.mRowTile d.index + m) * x.cmd.mPitch 6
      + x.cmd.mColTile d.index * x.cmd.mNeff * 6) :
    ∃ y, exec (.drainOutRowRead core []) s = .next ((s.rowWritten core o n (rawRow d.acc m n)).setArray core y)
      ∧ ∃ rest', y.drains = { d with done := d.done ++ [m] } :: rest' := by
  have htake : takeFirst (fun d => (DrainRun.nextRow d).isSome) x.drains = some (d, rest) := by
    rw [hdrains, takeFirst, if_pos (by rw [hnext]; rfl)]
  have helement : ∀ k, x.element d m k = { bits := unsigned 48 (Sparse.get 0 d.acc (m * 144 + k)) } := by
    intro k; rw [ArrayCmd.element]; exact if_pos hraw
  apply Exists.intro
  constructor
  · change execDrainOutRowRead core [] s = _
    rw [execDrainOutRowRead, onCore_exists hcore]
    simp only [State.arrayCmd_live hlive hx, htake, hnext, hraw, drainSize, ← ho, ← hn, List.contains_nil,
      Bool.false_eq_true, if_false, helement, List.filter_nil, List.foldl_nil]
    rw [hdrains]
    dsimp only
    rw [rawRow_marked]
    rfl
  · dsimp only
    rw [List.map_cons, if_pos rfl, foldl_keep]
    exact ⟨_, rfl⟩

/-- A tile whose rows are all read becomes visible (R81). -/
theorem exec_tileVisible {d : DrainRun} {rest : List DrainRun} (hdrains : x.drains = d :: rest)
    (hnext : d.nextRow = none) (hcollects : x.collects = false) :
    exec (.tileVisible core) s
      = .next ((s.setArray core { x with drains := rest, visible := x.visible + 1 }).finishArray core) := by
  change execTileVisible core s = _
  rw [execTileVisible, onCore_exists hcore]
  simp only [State.arrayCmd_live hlive hx, hdrains, hnext, hcollects, Option.isSome_none, Bool.false_eq_true, if_false]

/-- A pre-emption between two tiles gives up the tiles not started (R99, R105). -/
theorem exec_preemptionTakesEffect {t : Nat} (hpreempt : (s.context x.thread).preempt.isSome = true)
    (hfault : x.fault = none) (hcur : x.cur = none) (hwaiting : x.waiting = []) (hnot : x.notStarted = some t) :
    exec (.preemptionTakesEffect core) s = .next ((s.setArray core
      { x with cur := none, waiting := [], next := t, stop := t, fault := some (stPreempted, t) }).finishArray core) := by
  have hasked : (s.context x.thread).preempt.isNone = false := by simpa using hpreempt
  change execPreemptionTakesEffect core s = _
  rw [execPreemptionTakesEffect, onCore_exists hcore]
  simp only [State.arrayCmd_live hlive hx, hcur, hwaiting, hnot, hasked, hfault, Option.isSome_none, List.any_nil,
    List.filter_nil, Bool.or_false, Bool.false_eq_true, if_false]

end Tail

/-- Settles O19: the commit point, the drain-out of a row, the visible tile and the pre-emption by the command that each
leaves on the array. -/
theorem tilesCommitDrainAndBecomeVisible : Obligations.TilesCommitDrainAndBecomeVisible := by
  unfold Obligations.TilesCommitDrainAndBecomeVisible
  intro s core x hcore hlive hx hfault
  refine ⟨?_, ?_, ?_, ?_⟩
  · intro t rest hwaiting hclean hpass hskew
    exact ⟨_, _, _, exec_tileCommitPoint hcore hlive hx hwaiting hclean hpass hskew, State.setArray_cmd ..,
      Core.reached_waiting .., Core.reached_drains .., rfl, rfl, rfl, rfl, rfl, rfl, rfl⟩
  · intro d rest m o n hdrains hnext hraw hn ho hend
    obtain ⟨y, hexec, rest', hy⟩ := exec_drainOutRowRead hcore hlive hx hdrains hnext hraw hn ho
    have hlen := rawRow_length d.acc m n
    have hgeneral : o + (rawRow d.acc m n).length ≤ generalEnd := by omega
    refine ⟨_, _, _, rest', hexec, State.setArray_cmd .., (Core.reached_drains ..).trans hy, rfl, rfl, rfl, ?_, ?_⟩
    · have hread := s.readScratch_rowWritten hgeneral core n
      rw [hlen] at hread
      rw [State.readScratch_setArray, hread]
      rfl
    · intro a ha
      rw [State.setArray_scratch, State.read_rowWritten_other hgeneral _ _ _ (by omega)]
  · intro d rest hdrains hnext hcollects
    refine ⟨_, exec_tileVisible hcore hlive hx hdrains hnext hcollects, ?_, ?_⟩
    · intro y hy
      have hcur : x.cur.isSome = true := by rw [hy]; rfl
      have hcmd := s.setArray_settled core (x := { x with drains := rest, visible := x.visible + 1 }) (.inl hcur)
      rw [State.finishArray_working hcmd (.inl hcur)]
      exact ⟨_, hcmd, rfl, rfl⟩
    · intro hcur hwaiting hrest hstop
      have hcmd := s.setArray_settled core (x := { x with drains := rest, visible := x.visible + 1 }) (.inr (.inr hstop))
      obtain ⟨hfree, hends⟩ := State.finishArray_ends hcmd hcur hwaiting hrest (.inr hstop)
      refine ⟨hfree, fun r hr _ => ⟨_, hends r ?_, rfl, ?_, rfl⟩⟩
      · rw [(s.setArray_sameContexts core _).stream]; exact hr
      · simp [ArrayCmd.outcome, hfault]
  · intro t hpreempt hcur hwaiting hnot _
    have hcmd := s.setArray_settled core
      (x := { x with cur := none, waiting := [], next := t, stop := t, fault := some (stPreempted, t) }) (.inr (.inl rfl))
    refine ⟨_, exec_preemptionTakesEffect hcore hlive hx hpreempt hfault hcur hwaiting hnot, ?_, ?_⟩
    · intro hdrains
      rw [State.finishArray_working hcmd (.inr (.inr hdrains))]
      exact ⟨_, hcmd, rfl, rfl, rfl, rfl⟩
    · intro hdrains
      obtain ⟨hfree, hends⟩ := State.finishArray_ends hcmd rfl rfl hdrains (.inl rfl)
      refine ⟨hfree, fun r hr => ⟨_, hends r ?_, rfl, rfl, rfl⟩⟩
      rw [(s.setArray_sameContexts core _).stream]; exact hr

/-! ## A matrix command issues -/

/-- The fed rows of a row tile are the same while the scratch that masks lie in is (R94, R241). -/
theorem Core.fedRows_congr {k k' : Core} {c : Cmd} {tm : Nat}
    (hregions : ∀ r ∈ c.mRegions, 0 < r.2 → r.1 + r.2 ≤ generalEnd) (htm : tm < c.mTM)
    (hsame : ∀ o, o < generalEnd → Memory.read k'.scratch o = Memory.read k.scratch o) :
    k'.fedRows c tm = k.fedRows c tm := by
  by_cases hmask : c.mMask = true
  · have hregion : (c.mMaskAt 0, (c.mTM - 1) * 64 + 36) ∈ c.mRegions := by
      have hrows : 0 < c.mTM := by omega
      simp [Cmd.mRegions, hmask, hrows]
    have hend := hregions _ hregion (by omega)
    have hat : c.mMaskAt tm = c.mMaskAt 0 + tm * 64 := by simp [Cmd.mMaskAt]
    have hread : k'.readScratch (c.mMaskAt tm) 36 = k.readScratch (c.mMaskAt tm) 36 :=
      readScratch_congr fun i hi => hsame _ (by rw [hat]; dsimp only at hend; omega)
    simp only [Core.fedRows, hread]
  · simp [Core.fedRows, hmask]

/-- A command that has just been put on an array: none of its tiles has started. -/
structure ArrayCmd.Unstarted (x : ArrayCmd) (t : Thread) (cmd : Cmd) (seq : Word) : Prop where
  thread : x.thread = t
  command : x.cmd = cmd
  seq : x.seq = seq
  first : x.first = cmd.mStart
  next : x.next = cmd.mStart
  stop : x.stop = cmd.mStop
  cur : x.cur = none
  waiting : x.waiting = []
  drains : x.drains = []
  visible : x.visible = 0
  fault : x.fault = none

/-- A start tile within the command's tiles is before its last one (R72, R209). -/
theorem mStart_lt_mStop {c : Cmd} (h : c.mStart < c.mTM * c.mTN) : c.mStart < c.mStop := by
  unfold Cmd.mStop
  split
  · exact h
  · omega

section Taken

variable (s : State) (t : Thread) (q : QEntry) (cmd : Cmd) (again : Option Running)

/-- A matrix command in flight with its first-exception record cleared. -/
def State.matrixTaken : State := (s.startMatrix t q cmd again).writeExc t .matrix none

theorem State.matrixTaken_state :
    s.matrixTaken t q cmd again = { s with cores := (s.matrixTaken t q cmd again).cores } := by
  cases again <;> rfl

/-- Taking a matrix command into flight changes its stream alone of its context, whose count stays. -/
theorem State.matrixTaken_context : ∃ y r, (s.matrixTaken t q cmd again).context t = (s.context t).setStream .matrix y
    ∧ y.cur = some r ∧ r.ended = again.elim false Running.ended ∧ y.count = (s.stream t .matrix).count := by
  have hcontext : (s.matrixTaken t q cmd again).context t = (s.startMatrix t q cmd again).context t :=
    (State.writeExc_sameContexts ..).context t
  rw [hcontext]
  cases again with
  | none =>
    refine ⟨(s.stream t .matrix).took (s.running0 t .matrix q cmd), _, ?_, rfl, rfl, rfl⟩
    rw [State.startMatrix, State.issueOpen, startRun_context, if_pos rfl]
  | some r =>
    refine ⟨{ s.stream t .matrix with cur := some r, reissue := none }, _, ?_, rfl, rfl, rfl⟩
    rw [State.startMatrix, State.context_setStream, if_pos rfl]

theorem State.matrixTaken_otherCore {c : CoreId} (hc : c ≠ threadCore t) :
    (s.matrixTaken t q cmd again).core c = s.core c := by
  cases again <;> simp [State.matrixTaken, State.writeExc, State.startMatrix, State.issueOpen, State.startRun,
    State.setStream, State.setContext, State.core_setCore, hc]

/-- The first-exception record lies outside the general area, which stays as it was. -/
theorem State.matrixTaken_read {o : Nat} (ho : o < generalEnd) :
    Memory.read ((s.matrixTaken t q cmd again).core (threadCore t)).scratch o
      = Memory.read (s.core (threadCore t)).scratch o := by
  have hopen : ∀ i, i < (excBytes none).length → scratchOpen (ctxArea (threadCtx t) + 0x60 + i) := by
    intro i hi
    rw [excBytes_length] at hi
    rw [Nat.add_assoc]
    exact ctxArea_open (threadCtx_lt t) (by omega)
  have hstart : ((s.startMatrix t q cmd again).core (threadCore t)).scratch = (s.core (threadCore t)).scratch := by
    cases again with
    | none => rw [State.startMatrix, State.issueOpen, startRun_core]
    | some r => simp [State.startMatrix, State.setStream, State.setContext]
  have hbelow : o < ctxArea (threadCtx t) + 0x60 := by unfold generalEnd at ho; unfold ctxArea; omega
  rw [State.matrixTaken, State.writeExc, State.core_setCore_self]
  simp only [reduceCtorEq, if_false]
  rw [writeScratch_scratch _ _ _ _ hopen, Memory.read_writeBytes, dif_neg (by omega), hstart]

end Taken

section Ready

variable {s : State} {t : Thread} {op : Nat} {q : QEntry} {cmd : Cmd} {again : Option Running}
  (h : s.MatrixReady t op q cmd again)
include h

/-- A ready command's output handle is absent or good, and no extent passes its descriptor's maximum. -/
theorem State.MatrixReady.checked : ∃ d,
    (if cmd.mHandle = 0 then .ok (parseDesc 0 []) else s.checkHandle (s.threadPart t) cmd.mHandle) = Checked.ok d
      ∧ (if cmd.mHandle = 0 then [] else [(0, cmd.mN, d.maxExtent 0), (1, cmd.mM, d.maxExtent 1)].filter
          (fun x => decide (x.1 < d.rank ∧ x.2.1 > x.2.2))) = [] := by
  by_cases h0 : cmd.mHandle = 0
  · exact ⟨_, if_pos h0, if_pos h0⟩
  · obtain ⟨d, hd, hN, hM⟩ := h.handle.resolve_left h0
    refine ⟨d, by rw [if_neg h0, hd], ?_⟩
    rw [if_neg h0, List.filter_eq_nil_iff]
    simpa using ⟨hN, hM⟩

theorem State.MatrixReady.inArea : cmd.mInArea = true := by
  rw [Cmd.mInArea, List.all_eq_true]
  intro r hr
  have := h.regions r hr
  rw [decide_eq_true_eq]
  omega

/-- A ready command passes every check and is put on its core's array. -/
theorem State.MatrixReady.issueMatrix : ∃ x, x.Unstarted t cmd (again.elim (s.stream t .matrix).count Running.seq)
    ∧ s.issueMatrix t op
        = ((s.matrixTaken t q cmd again).setArray (threadCore t) x).finishArray (threadCore t) := by
  obtain ⟨d, hd, hextents⟩ := h.checked
  have hslots : cmd.mSlots.any (fun n => decide (n > 23)) = false := by simpa using h.slots
  have hdepth : ¬ cmd.mTK > 8 := Nat.not_lt.2 h.depth
  have htiles : (cmd.mAcc && decide (cmd.mTM * cmd.mTN > 1)) = false := by
    have := h.acc
    grind
  have hacc : ¬ (cmd.mAcc = true ∧ cmd.mK = 0 ∧ (!cmd.mCombine) = true) := by
    have := h.acc
    grind
  obtain ⟨hM, hN, hstart⟩ := h.full
  have hfull : ¬ (cmd.mM = 0 ∨ cmd.mN = 0 ∨ cmd.mStart ≥ cmd.mTM * cmd.mTN) := by omega
  obtain ⟨y, r, hcontext, -, -, hcount⟩ := s.matrixTaken_context t q cmd again
  have hseq : ((s.matrixTaken t q cmd again).stream t .matrix).count = (s.stream t .matrix).count := by
    rw [State.stream, hcontext, Context.stream_setStream, if_pos rfl, hcount]
  rw [State.issueMatrix, h.head]
  apply Exists.intro
  constructor
  rotate_left
  · simp only [h.idle, h.signal, h.reads, hd, hslots, h.heads, h.formats, hextents, hdepth, htiles, h.inArea, hfull, hacc,
      h.skew, Option.isSome_none, Bool.not_true, Bool.or_false, Bool.false_eq_true, if_false, List.isEmpty_nil]
    rw [if_neg]
    · rfl
    · cases again <;> simpa using h.native
  · refine ⟨rfl, rfl, ?_, rfl, rfl, rfl, rfl, rfl, rfl, rfl, rfl⟩
    cases again with
    | none => exact hseq
    | some r => rfl

/-- MATMUL and MCOMBINE issue on their thread (R209). -/
theorem exec_matrixCommand {i : Instr} (hi : (i, op) ∈ [(Instr.matmul t, 0x30), (Instr.mcombine t, 0x31)]) :
    exec i s = .next (s.issueMatrix t op) := by
  have hthread : exec i s = onThread t s (fun s => s.issueMatrix t op) := by
    simp only [List.mem_cons, Prod.mk.injEq, List.not_mem_nil, or_false] at hi
    rcases hi with ⟨rfl, rfl⟩ | ⟨rfl, rfl⟩ <;> rfl
  rw [hthread, onThread, onCore_exists h.core]

/-- The array holds the ready command with its start tile in progress (R209, R529). -/
theorem State.MatrixReady.reached {x : ArrayCmd} {seq : Word} (hx : x.Unstarted t cmd seq) :
    ((s.matrixTaken t q cmd again).core (threadCore t)).reached x = { x with
      next := cmd.mStart + 1
      cur := some (newTile ((s.matrixTaken t q cmd again).core (threadCore t)).array cmd.mStart
        ((s.core (threadCore t)).fedRows cmd (cmd.mRowTile cmd.mStart))) } := by
  obtain ⟨-, -, hstart⟩ := h.full
  have hrow : cmd.mRowTile cmd.mStart < cmd.mTM :=
    Nat.mod_lt _ (Nat.pos_of_ne_zero fun h0 => by rw [h0, Nat.zero_mul] at hstart; omega)
  have hrows : ((s.matrixTaken t q cmd again).core (threadCore t)).fedRows cmd (cmd.mRowTile cmd.mStart)
      = (s.core (threadCore t)).fedRows cmd (cmd.mRowTile cmd.mStart) :=
    Core.fedRows_congr h.regions hrow fun o ho => s.matrixTaken_read t q cmd again ho
  have hlt : x.next < x.stop := by rw [hx.next, hx.stop]; exact mStart_lt_mStop hstart
  rw [Core.reached, Core.reachTile_fed _ hx.cur hx.fault hlt (by rw [hx.command, hx.next, hrows]; exact h.fed),
    hx.command, hx.next, hrows]

end Ready

/-- Settles O17: a ready command is put on its core's array, and reaches its start tile there. -/
theorem matrixCommandTakesTheArray : Obligations.MatrixCommandTakesTheArray := by
  unfold Obligations.MatrixCommandTakesTheArray
  intro s t q cmd again row hrow hready
  obtain ⟨x, hx, hissue⟩ := hready.issueMatrix
  obtain ⟨y, r, hcontext, hcur, hended, -⟩ := s.matrixTaken_context t q cmd again
  have hcmd := (s.matrixTaken t q cmd again).setArray_cmd (threadCore t) x
  rw [hready.reached hx] at hcmd
  rw [State.finishArray_working hcmd (.inl rfl)] at hissue
  have hcontexts := (s.matrixTaken t q cmd again).setArray_sameContexts (threadCore t) x
  refine ⟨_, _, _, r, (exec_matrixCommand hready hrow).trans (congrArg _ hissue), ?_, ?_, hcmd, hx.thread, hx.command,
    hx.first, rfl, hx.stop, hx.visible, hx.fault, hx.waiting, hx.drains, rfl, rfl, rfl, rfl, rfl, rfl, rfl, ?_, hended,
    hx.seq, ?_⟩
  · rw [State.setArray, State.setCore, s.matrixTaken_state]
  · intro c hc
    rw [State.setArray, State.core_setCore, if_neg hc, State.matrixTaken_otherCore _ _ _ _ _ hc]
  · rw [hcontexts.stream, State.stream, hcontext, Context.stream_setStream, if_pos rfl, hcur]
  · rw [hcontexts.context, hcontext]
    exact setStream_sameRegs ..

/-! ## Cells of the array -/

/-- A row-by-column key is its row's and its column's alone. -/
theorem cellKey_inj {m m' n n' : Nat} (hn : n < 144) (hn' : n' < 144) :
    m * 144 + n = m' * 144 + n' ↔ m = m' ∧ n = n' := by
  omega

/-- A row of accumulators written over its columns. -/
def setRow (acc : Sparse Int) (m cols : Nat) (new : Nat → Int) : Sparse Int :=
  ((upTo cols).map (fun n => (m * 144 + n, new n))).foldl (fun a v => Sparse.set 0 a v.1 v.2) acc

theorem get_setRow (acc : Sparse Int) (m : Nat) {cols : Nat} (new : Nat → Int) (hcols : cols ≤ 144) {m' n : Nat}
    (hn : n < 144) : Sparse.get 0 (setRow acc m cols new) (m' * 144 + n)
      = if m' = m ∧ n < cols then new n else Sparse.get 0 acc (m' * 144 + n) := by
  split
  · rename_i hin
    refine Sparse.get_foldl_set 0 _ _ ?_ (.inr ⟨(m * 144 + n, new n), ?_, ?_⟩)
    · intro e he hk
      obtain ⟨n', hn', rfl⟩ := List.mem_map.1 he
      have : n' < cols := List.mem_range.1 hn'
      obtain ⟨-, rfl⟩ := (cellKey_inj (by omega) hn).1 hk
      rfl
    · exact List.mem_map_of_mem (List.mem_range.2 hin.2)
    · rw [hin.1]
  · rename_i hout
    refine Sparse.get_foldl_set_other 0 _ _ ?_
    intro e he hk
    obtain ⟨n', hn', rfl⟩ := List.mem_map.1 he
    have : n' < cols := List.mem_range.1 hn'
    obtain ⟨rfl, rfl⟩ := (cellKey_inj (by omega) hn).1 hk
    exact hout ⟨rfl, this⟩

theorem get_setRow_other (acc : Sparse Int) {m m' cols n : Nat} (new : Nat → Int) (hcols : cols ≤ 144) (hm : m' ≠ m)
    (hn : n < 144) : Sparse.get 0 (setRow acc m cols new) (m' * 144 + n) = Sparse.get 0 acc (m' * 144 + n) := by
  rw [get_setRow acc m new hcols hn, if_neg fun h => hm h.1]

/-- A stationary chunk in the cells, rows and columns beyond it zero. -/
theorem get_cells (rows : Nat) {cols : Nat} (f : Nat → Nat → Int) (hcols : cols ≤ 144) {k n : Nat} (hn : n < 144) :
    Sparse.get 0 (((upTo rows).flatMap (fun k => (upTo cols).map (fun n => (k * 144 + n, f k n)))).foldl
        (fun m v => Sparse.set 0 m v.1 v.2) []) (k * 144 + n)
      = if k < rows ∧ n < cols then f k n else 0 := by
  have hmem : ∀ e : Nat × Int, e ∈ (upTo rows).flatMap (fun k => (upTo cols).map (fun n => (k * 144 + n, f k n))) ↔
      ∃ k' n', k' < rows ∧ n' < cols ∧ (k' * 144 + n', f k' n') = e := by
    intro e
    simp only [upTo, List.mem_flatMap, List.mem_map, List.mem_range]
    exact ⟨fun ⟨k', hk', n', hn', h⟩ => ⟨k', n', hk', hn', h⟩, fun ⟨k', n', hk', hn', h⟩ => ⟨k', hk', n', hn', h⟩⟩
  split
  · rename_i hin
    refine Sparse.get_foldl_set 0 _ _ ?_ (.inr ⟨_, (hmem _).2 ⟨k, n, hin.1, hin.2, rfl⟩, rfl⟩)
    intro e he hk
    obtain ⟨k', n', _, hn', rfl⟩ := (hmem e).1 he
    obtain ⟨rfl, rfl⟩ := (cellKey_inj (by omega) hn).1 hk
    rfl
  · rename_i hout
    refine Sparse.get_foldl_set_other 0 _ _ ?_
    intro e he hk
    obtain ⟨k', n', hk', hn', rfl⟩ := (hmem e).1 he
    obtain ⟨rfl, rfl⟩ := (cellKey_inj (by omega) hn).1 hk
    exact hout ⟨hk', hn'⟩

theorem mNValid_le (c : Cmd) (tn : Nat) : c.mNValid tn ≤ 144 :=
  Nat.le_trans (Nat.min_le_left _ _) (Nat.div_le_self _ _)

/-! ## Steps of a tile without faults -/

/-- No tile that waits for its commit point has faulted. -/
def ArrayCmd.sound (x : ArrayCmd) : Prop := ∀ w ∈ x.waiting, w.fault = none

theorem ArrayCmd.sound.goesOn {x : ArrayCmd} (h : x.sound) (cycle : Nat) : x.goesOn cycle = true :=
  List.all_eq_true.2 fun w hw => by rw [TileRun.goesOn, h w hw]; rfl

theorem TileRun.goesOn_of_sound {t : TileRun} (h : t.fault = none) (cycle : Nat) : t.goesOn cycle = true := by
  rw [TileRun.goesOn, h]; rfl

theorem ArrayCmd.after_of_sound {t : TileRun} (h : t.fault = none) (x : ArrayCmd) (cycle : Nat) :
    x.after t cycle = { x with cur := some t } := by rw [ArrayCmd.after, if_pos (TileRun.goesOn_of_sound h cycle)]

theorem State.logFaults_nil (s : State) (core : CoreId) (x : ArrayCmd) (t : Nat) : s.logFaults core x t [] = s := rfl

/-- A tile with its scales read. -/
def TileRun.withScales (t : TileRun) (scaled : Bool) (rows cols : Sparse ScaleRead) : TileRun :=
  { t with scaled := scaled, rowScales := rows, colScales := cols }

/-- Where scratch is clean the scales of a tile are read without a fault (R91). -/
theorem Core.clean.readScales {k : Core} (h : k.clean) (c : Cmd) (t : TileRun) (cycle : Nat) :
    ∃ scaled rows cols, k.readScales c t cycle = (t.withScales scaled rows cols, []) := by
  have hrow : ∀ tm m, (k.rowScale c tm m).poison = false := by
    intro tm m
    unfold Core.rowScale
    split
    · dsimp only; exact h.scratchPoisoned ..
    · rfl
  have hcol : ∀ tn n, (k.colScale c tn n).poison = false := by
    intro tn n
    unfold Core.colScale
    split
    · dsimp only; exact h.scratchPoisoned ..
    · rfl
  have hgood : ∀ (slot : Nat) (l : List Nat) (f : Nat → ScaleRead), (∀ m, (f m).poison = false) →
      badScale slot (l.map (fun m => (m, f m))) = none := by
    intro slot l f hf
    simp [badScale, hf]
  unfold Core.readScales
  split
  · exact ⟨_, _, _, rfl⟩
  · simp only [hgood _ _ _ (hrow _), hgood _ _ _ (hcol _)]
    exact ⟨_, _, _, rfl⟩

/-- The tile once its scales are read where `reads` asks for it. -/
theorem Core.clean.readScalesIf {k : Core} (h : k.clean) (reads : Prop) [Decidable reads] (c : Cmd) (t : TileRun)
    (cycle : Nat) : ∃ scaled rows cols, (if reads then k.readScales c t cycle else (t, [])) = (t.withScales scaled rows cols, []) := by
  split
  · exact h.readScales c t cycle
  · exact ⟨_, _, _, rfl⟩

/-! ## A pass -/

/-- The products of A-row `m` of a chunk with column `n` of the cells (R68). -/
def Core.products (k : Core) (c : Cmd) (index kc m n : Nat) : Int :=
  ((List.range (min c.mKeff (c.mK - kc * c.mKeff))).map (fun i =>
    intOf c.mAFmt (getElem c.mAFmt (k.readScratch (c.mStream (c.mRowTile index) kc + 32 + 72 * m) 72) i)
      * Sparse.get 0 k.array.stationary (i * 144 + n))).sum

/-- Products taken one after another add up. -/
theorem foldl_products (f g : Nat → Int) (n : Nat) :
    ((upTo n).map f).zipIdx.foldl (fun v a => v + a.1 * g a.2) 0 = ((List.range n).map (fun i => f i * g i)).sum := by
  induction n with
  | zero => rfl
  | succ n ih =>
    rw [upTo, List.range_succ, List.map_append, List.zipIdx_append, List.foldl_append, List.map_append, List.sum_append]
    rw [upTo] at ih
    rw [ih]
    simp

/-- What a pass leaves in the accumulator of row `m` and column `n`, where a fresh one starts from nothing (R68, R79). -/
def Core.passSum (k : Core) (c : Cmd) (index kc : Nat) (fresh : Bool) (acc : Sparse Int) (m n : Nat) : Int :=
  (if fresh then 0 else Sparse.get 0 acc (m * 144 + n)) + k.products c index kc m n

/-- A pass's sum rests on its own accumulator alone. -/
theorem Core.passSum_congr (k : Core) (c : Cmd) (index kc : Nat) (fresh : Bool) {acc acc' : Sparse Int} {m n : Nat}
    (h : Sparse.get 0 acc' (m * 144 + n) = Sparse.get 0 acc (m * 144 + n)) :
    k.passSum c index kc fresh acc' m n = k.passSum c index kc fresh acc m n := by rw [Core.passSum, h, Core.passSum]

section Pass

variable {k : Core} (hclean : k.clean) (c : Cmd) (index kc : Nat) (fresh : Bool)
include hclean

/-- A fed row adds its products where no fault is and the accumulators hold the sums. -/
theorem Core.clean.feedRow {r : PassRun} (hfault : r.tile.fault = none) (m cycle : Nat)
    (hfits : ∀ n, n < c.mNValid (c.mColTile index) →
      accFits (k.passSum c index kc fresh r.acc m n) = true) :
    k.feedRow c index kc fresh r m cycle = { r with
      acc := setRow r.acc m (c.mNValid (c.mColTile index)) (k.passSum c index kc fresh r.acc m) } := by
  have hnone : ((upTo (c.mNValid (c.mColTile index))).map (fun n =>
      (m * 144 + n, k.passSum c index kc fresh r.acc m n))).any (fun v => !accFits v.2) = false := by
    simpa [upTo] using hfits
  have hsum : ∀ n, ((upTo (min c.mKeff (c.mK - kc * c.mKeff))).map (fun i =>
      intOf c.mAFmt (getElem c.mAFmt (k.readScratch (c.mStream (c.mRowTile index) kc + 32 + 72 * m) 72) i))).zipIdx.foldl
        (fun v a => v + a.1 * Sparse.get 0 k.array.stationary (a.2 * 144 + n)) 0 = k.products c index kc m n :=
    fun n => foldl_products _ (fun i => Sparse.get 0 k.array.stationary (i * 144 + n)) _
  rw [Core.feedRow]
  simp only [TileRun.goesOn_of_sound hfault, hclean.scratchPoisoned, Bool.not_true, Bool.false_eq_true, if_false, hsum]
  exact (congrArg (fun b => if b = true then _ else _) hnone).trans (if_neg Bool.false_ne_true)

/-- A pass over distinct rows adds each row's products to its own accumulators. -/
theorem Core.clean.feedRows (S : Nat) (rows : List Nat) : ∀ (first : Nat) (r : PassRun),
    r.tile.fault = none → rows.Nodup → (∀ m ∈ rows, ∀ n, n < c.mNValid (c.mColTile index) →
      accFits (k.passSum c index kc fresh r.acc m n) = true) →
    ∃ acc, (rows.zipIdx first).foldl (fun r m => k.feedRow c index kc fresh r m.1 (S + m.2)) r = { r with acc := acc }
      ∧ (∀ m ∈ rows, ∀ n, n < c.mNValid (c.mColTile index) →
          Sparse.get 0 acc (m * 144 + n) = k.passSum c index kc fresh r.acc m n)
      ∧ ∀ m, m ∉ rows → ∀ n, n < 144 → Sparse.get 0 acc (m * 144 + n) = Sparse.get 0 r.acc (m * 144 + n) := by
  have hcols := mNValid_le c (c.mColTile index)
  induction rows with
  | nil => exact fun _ r _ _ _ => ⟨r.acc, rfl, by simp, fun _ _ _ _ => rfl⟩
  | cons m rows ih =>
    intro first r hfault hnodup hfits
    obtain ⟨hm, hrows⟩ := List.nodup_cons.1 hnodup
    have hothers : ∀ m' ∈ rows, ∀ n, n < c.mNValid (c.mColTile index) →
        k.passSum c index kc fresh (setRow r.acc m (c.mNValid (c.mColTile index)) (k.passSum c index kc fresh r.acc m)) m' n
          = k.passSum c index kc fresh r.acc m' n := by
      intro m' hm' n hn
      have hne : m' ≠ m := fun h => hm (h ▸ hm')
      exact k.passSum_congr c index kc fresh (get_setRow_other _ _ hcols hne (by omega))
    rw [List.zipIdx_cons, List.foldl_cons, hclean.feedRow c index kc fresh hfault m _ (hfits m List.mem_cons_self)]
    obtain ⟨acc, hfold, hin, hout⟩ := ih (first + 1) { r with
        acc := setRow r.acc m (c.mNValid (c.mColTile index)) (k.passSum c index kc fresh r.acc m) }
      hfault hrows (fun m' hm' n hn => by
        rw [hothers m' hm' n hn]; exact hfits m' (List.mem_cons_of_mem _ hm') n hn)
    refine ⟨acc, hfold, fun m' hm' n hn => ?_, fun m' hm' n hn => ?_⟩
    · rcases List.mem_cons.1 hm' with rfl | hm'
      · rw [hout m' hm n (by omega), get_setRow _ _ _ hcols (by omega), if_pos ⟨rfl, hn⟩]
      · rw [hin m' hm' n hn, hothers m' hm' n hn]
    · rw [List.mem_cons, not_or] at hm'
      rw [hout m' hm'.2 n hn, get_setRow_other _ _ hcols hm'.1 hn]

end Pass

theorem accFits_of_range {v : Int} (h : -(2 : Int) ^ 47 ≤ v ∧ v < (2 : Int) ^ 47) : accFits v = true := decide_eq_true h

/-- Putting a working command on an array, with no fault to log, does not end it. -/
theorem State.setArray_goesOn (s : State) (core : CoreId) {x : ArrayCmd} (hx : x.cur.isSome = true ∨ x.waiting ≠ [])
    (y : ArrayCmd) (t : Nat) :
    ((s.setArray core x).logFaults core y t []).finishArray core = s.setArray core x := by
  rw [State.logFaults_nil]
  refine State.finishArray_working (s.setArray_cmd core x) ?_
  rcases hx with hcur | hwaiting
  · rw [Core.reached_settled _ (.inl hcur)]
    exact .inl hcur
  · exact .inr (.inl (by rwa [Core.reached_waiting]))

/-- A pass starts afresh: it is the first of a tile without preloads. -/
def TileRun.fresh (t : TileRun) (c : Cmd) : Bool := decide (t.passes = 0) && decide (c.mPreloads = 0)

/-- A tile after a pass issued at cycle `S` (R79, R80). -/
def TileRun.passed (t : TileRun) (acc : Sparse Int) (S : Nat) : TileRun :=
  { t with acc := acc, passes := t.passes + 1, issueAt := S, commitAt := S + t.rows.length + 148 }

/-- The command after its tile's pass: the tile waits for its commit point after its last pass, and goes on before it. -/
def ArrayCmd.passed (x : ArrayCmd) (t : TileRun) : ArrayCmd :=
  if t.passes ≥ x.cmd.mTK then x.issued t else { x with cur := some t }

theorem ArrayCmd.passed_working (x : ArrayCmd) (t : TileRun) :
    (x.passed t).cur.isSome = true ∨ (x.passed t).waiting ≠ [] := by
  unfold ArrayCmd.passed
  split
  · exact .inr (by simp [ArrayCmd.issued])
  · exact .inl rfl

section Pass

variable {s : State} {core : CoreId} (hclean : (s.core core).clean) {x : ArrayCmd} {t : TileRun}
  (hfault : t.fault = none) (hnodup : t.rows.Nodup)
  (hfits : ∀ m ∈ t.rows, ∀ n, n < x.cmd.mNValid (x.cmd.mColTile t.index) →
    accFits ((s.core core).passSum x.cmd t.index t.passes (t.fresh x.cmd) t.acc m n) = true) (S : Nat)
include hclean hfault hnodup hfits

/-- A clean pass of a tile whose sums fit adds its products to the accumulators, and changes the array and its command
alone (R68, R79). -/
theorem State.runPass_clean : ∃ a t' acc, s.runPass core x t S .none
      = (s.setCore core { s.core core with array := a }).setArray core (x.passed (t'.passed acc S))
    ∧ (∃ scaled rows cols, t' = t.withScales scaled rows cols)
    ∧ ∀ m ∈ t.rows, ∀ n, n < x.cmd.mNValid (x.cmd.mColTile t.index) → Sparse.get 0 acc (m * 144 + n)
          = (s.core core).passSum x.cmd t.index t.passes (t.fresh x.cmd) t.acc m n := by
  obtain ⟨scaled, rows, cols, hread⟩ := hclean.readScalesIf (decide (t.passes + 1 ≥ x.cmd.mTK) = true) x.cmd t S
  have hbefore : ∀ m n, (s.core core).passSum x.cmd t.index t.passes (t.fresh x.cmd)
        (if t.fresh x.cmd = true then [] else t.acc) m n
      = (s.core core).passSum x.cmd t.index t.passes (t.fresh x.cmd) t.acc m n := by
    intro m n
    cases h : t.fresh x.cmd <;> rfl
  obtain ⟨acc, hfold, hin, -⟩ := hclean.feedRows x.cmd t.index t.passes (t.fresh x.cmd) S t.rows 0
    ⟨t.withScales scaled rows cols, if t.fresh x.cmd = true then [] else t.acc, []⟩
    hfault hnodup (fun m hm n hn => by rw [hbefore]; exact hfits m hm n hn)
  have hfresh : (decide (t.passes = 0) && decide (x.cmd.mPreloads = 0)) = t.fresh x.cmd := rfl
  have hrows : (t.withScales scaled rows cols).rows = t.rows := rfl
  have hindex : (t.withScales scaled rows cols).index = t.index := rfl
  have hacc : (t.withScales scaled rows cols).acc = t.acc := rfl
  have hchunk : (t.withScales scaled rows cols).chunk = t.passes := rfl
  have hsound : ((t.withScales scaled rows cols).passed acc S).fault = none := hfault
  have hnext : (if decide (t.passes + 1 ≥ x.cmd.mTK) = true then x.issued ((t.withScales scaled rows cols).passed acc S)
      else x.after ((t.withScales scaled rows cols).passed acc S) (S + t.rows.length))
      = x.passed ((t.withScales scaled rows cols).passed acc S) := by
    rw [ArrayCmd.after_of_sound hsound, ArrayCmd.passed]
    simp only [decide_eq_true_eq]
    rfl
  unfold State.runPass
  simp only [hread, hfresh, hrows, hindex, hacc, hchunk, reduceCtorEq, false_and, if_false, List.append_nil,
    List.foldl_nil, hfold]
  apply Exists.intro
  refine ⟨t.withScales scaled rows cols, acc, ?_, ⟨scaled, rows, cols, rfl⟩, fun m hm n hn => ?_⟩
  · rw [← State.setArray_goesOn _ core (x.passed_working _) x t.index, ← hnext]
    rfl
  · rw [← hbefore]; exact hin m hm n hn

theorem State.runPass_accumulates : ∃ t', t'.index = t.index ∧ t'.passes = t.passes + 1 ∧ t'.issueAt = S ∧ t'.fault = none
    ∧ (∀ m ∈ t.rows, ∀ n, n < x.cmd.mNValid (x.cmd.mColTile t.index) → Sparse.get 0 t'.acc (m * 144 + n)
        = (s.core core).passSum x.cmd t.index t.passes (t.fresh x.cmd) t.acc m n)
    ∧ ∃ x', ((s.runPass core x t S .none).core core).array.cmd = some x'
        ∧ (if t.passes + 1 < x.cmd.mTK then x'.cur = some t' else x'.waiting = x.waiting ++ [t']) := by
  obtain ⟨a, _, acc, hrun, ⟨scaled, rows, cols, rfl⟩, hacc⟩ := State.runPass_clean hclean hfault hnodup hfits S
  refine ⟨(t.withScales scaled rows cols).passed acc S, rfl, rfl, rfl, hfault, hacc, _,
    by rw [hrun, State.setArray_cmd], ?_⟩
  have hpasses : ((t.withScales scaled rows cols).passed acc S).passes = t.passes + 1 := rfl
  split
  · rename_i hlt
    have hgoes : x.passed ((t.withScales scaled rows cols).passed acc S)
        = { x with cur := some ((t.withScales scaled rows cols).passed acc S) } := if_neg (by omega)
    rw [Core.reached_settled _ (.inl (by rw [hgoes]; rfl)), hgoes]
  · rename_i hlast
    rw [Core.reached_waiting, ArrayCmd.passed, if_pos (by omega), ArrayCmd.issued]

end Pass

/-! ## The commands of a tile in progress -/

/-- A core whose cells hold chunk `kc` of column tile `tn`, zeros beyond it (R76, R77). -/
def Core.withChunk (k : Core) (c : Cmd) (tn kc : Nat) : Core :=
  { k with array := { k.array with
      stationary := ((upTo (min c.mKeff (c.mK - kc * c.mKeff))).flatMap (fun i => (upTo (c.mNValid tn)).map (fun n =>
        (i * 144 + n, intOf c.mBFmt (getElem c.mBFmt (k.readScratch (c.mStat tn kc + 32 + 72 * i) 72) n))))).foldl
          (fun m v => Sparse.set 0 m v.1 v.2) []
      held := some (tn, kc) } }

/-- A tile whose next chunk loads from cycle `start` on. -/
def TileRun.loads (t : TileRun) (start : Nat) : TileRun := { t with loaded := some t.passes, loadDone := start + 144 }

/-- A tile whose next preload row has been read at `cycle`. -/
def TileRun.preloaded (t : TileRun) (acc : Sparse Int) (cycle : Nat) : TileRun :=
  { t with acc := acc, preloadAt := t.preloadAt + 1, preloadAtCycle := cycle, commitAt := cycle + 1 }

/-- The cycle at which the tile's next preload row, row `m`, is read (R529). -/
def ArrayState.preloadCycle (a : ArrayState) (c : Cmd) (t : TileRun) (m : Nat) : Nat :=
  max (if t.preloadAt = 0 then t.preloadAtCycle
    else t.preloadAtCycle + drainInterval (c.mNValid (c.mColTile t.index)) 6) (Sparse.get 0 a.rowReadAt m + 1)

/-- The accumulators of row `m` of the tile once preload tile `i`'s row is added (R87). -/
def Core.preloadSum (k : Core) (c : Cmd) (t : TileRun) (i m n : Nat) : Int :=
  (if i = 0 then 0 else Sparse.get 0 t.acc (m * 144 + n))
    + signed 48 (field (k.readScratch (c.mPreload i (288 * c.mRowTile t.index + m) + c.mColTile t.index * c.mNeff * 6)
        (6 * c.mNValid (c.mColTile t.index))) (6 * n) 6)

section Tile

variable {s : State} {core : CoreId} {x : ArrayCmd} {t : TileRun} (hcore : coreExists core = true) (hlive : s.live = true)
  (hx : (s.core core).array.cmd = some x) (hcur : x.cur = some t) (hsound : x.sound)
include hcore hlive hx hcur hsound

/-- A load that the next pass needs fills the cells in 144 cycles (R76, R77). -/
theorem exec_stationaryLoad (hclean : (s.core core).clean) (hfault : t.fault = none) (hleft : t.passes < x.cmd.mTK)
    (hneeds : (s.core core).array.needsLoad x.cmd t = true)
    (hbar : t.passes = 0 → (s.context x.thread).preempt = none) :
    exec (.stationaryLoad core .none) s = .next ((s.setCore core
      ((s.core core).withChunk x.cmd (x.cmd.mColTile t.index) t.passes)).setArray core
        { x with cur := some (t.loads (s.core core).array.freeAt) }) := by
  have hpass : decide (t.passes ≥ x.cmd.mTK) = false := decide_eq_false (by omega)
  have hbarred : (decide (t.passes = 0) && s.tileBarred x) = false := by
    rw [Bool.and_eq_false_iff, decide_eq_false_iff_not, State.tileBarred, Option.isSome_eq_false_iff,
      Option.isNone_iff_eq_none]
    exact Classical.or_iff_not_imp_left.2 fun h => hbar (Classical.not_not.1 h)
  have hpoison : ∀ (rows : List Nat) (base : Nat),
      rows.find? (fun i => (s.core core).scratchPoisoned (base + 72 * i) 72) = none := by
    intro rows base
    simp [hclean.scratchPoisoned]
  have hloaded : (t.loads (s.core core).array.freeAt).fault = none := hfault
  change execStationaryLoad core .none s = _
  rw [execStationaryLoad, onCore_exists hcore]
  simp only [State.arrayCmd_live hlive hx, hcur, hpass, hneeds, hsound.goesOn, hbarred, hpoison, Bool.not_true,
    Bool.or_false, Bool.false_eq_true, if_false, reduceCtorEq, Option.toList_none, List.map_nil, List.append_nil,
    List.isEmpty_nil, List.foldl_nil]
  rw [← State.setArray_goesOn _ core (x := { x with cur := some (t.loads (s.core core).array.freeAt) }) (.inl rfl) x
    t.index, ← ArrayCmd.after_of_sound hloaded x ((s.core core).array.freeAt + 144)]
  rfl

/-- A first pass that nothing holds back runs (R83, R98, R99, R423, R529). -/
theorem exec_tileFirstPassIssue {cycle : Nat} (hfirst : t.passes = 0) (hpass : 0 < x.cmd.mTK)
    (hpreloads : t.preloadsLeft x.cmd = false) (hloaded : (s.core core).array.needsLoad x.cmd t = false)
    (hcycle : (if t.loaded.isSome then t.loadDone else (s.core core).array.freeAt) ≤ cycle)
    (hafter : x.cmd.mPreloads = 0 ∨ t.preloadAtCycle < cycle)
    (hread : ∀ v ∈ t.rows.zipIdx, Sparse.get 0 (s.core core).array.rowReadAt v.1 < cycle + v.2 + 148)
    (hslot : slotOpen (depthDuty (s.depth (coreDie core) (s.partOfCore core))) cycle = true)
    (hheld : s.tileHeld core x = false) (hbar : (s.context x.thread).preempt = none) :
    exec (.tileFirstPassIssue core cycle .none) s = .next (s.runPass core x t cycle .none) := by
  have hbarred : s.tileBarred x = false := by rw [State.tileBarred, hbar]; rfl
  have hrows : t.rows.zipIdx.all
      (fun v => decide (cycle + v.2 + 148 > Sparse.get 0 (s.core core).array.rowReadAt v.1)) = true := by
    rw [List.all_eq_true]
    exact fun v hv => decide_eq_true (hread v hv)
  change execTileFirstPassIssue core cycle .none s = _
  rw [execTileFirstPassIssue, onCore_exists hcore]
  simp only [State.arrayCmd_live hlive hx, hcur]
  rw [if_pos]
  simp [hfirst, hpass, hpreloads, hloaded, hcycle, hafter, hrows, hslot, hheld, hsound.goesOn, hbarred]

/-- A further pass whose chunk is loaded runs in the cycle after its load (R77, R79). -/
theorem exec_passIssue (hlater : 0 < t.passes) (hleft : t.passes < x.cmd.mTK) (hloaded : t.loaded = some t.passes) :
    exec (.passIssue core .none) s = .next (s.runPass core x t t.loadDone .none) := by
  change execPassIssue core .none s = _
  rw [execPassIssue, onCore_exists hcore]
  simp only [State.arrayCmd_live hlive hx, hcur]
  rw [if_pos]
  simp [hlater, hleft, hloaded, hsound.goesOn, TileRun.chunk]

/-- A preload row that no drain-out still reads is added to its row's accumulators (R87, R529). -/
theorem exec_preloadRead (hclean : (s.core core).clean) {i m : Nat} (hleft : t.preloadsLeft x.cmd = true)
    (hi : i = t.preloadAt / t.rows.length) (hm : m = t.rows.getD (t.preloadAt % t.rows.length) 0)
    (hdrain : x.drainPending m = false) (hbar : (s.context x.thread).preempt = none)
    (hfits : ∀ n, n < x.cmd.mNValid (x.cmd.mColTile t.index) → accFits ((s.core core).preloadSum x.cmd t i m n) = true) :
    ∃ scaled rows cols t', t' = (t.withScales scaled rows cols).preloaded
        (setRow t.acc m (x.cmd.mNValid (x.cmd.mColTile t.index)) ((s.core core).preloadSum x.cmd t i m))
        ((s.core core).array.preloadCycle x.cmd t m)
      ∧ exec (.preloadRead core false) s = .next (s.setArray core
          (if x.cmd.mTK = 0 ∧ t'.preloadsLeft x.cmd = false then x.issued t' else { x with cur := some t' })) := by
  have hbarred : s.tileBarred x = false := by rw [State.tileBarred, hbar]; rfl
  have hnone : ((upTo (x.cmd.mNValid (x.cmd.mColTile t.index))).map (fun n =>
      (m * 144 + n, (s.core core).preloadSum x.cmd t i m n))).any (fun v => !accFits v.2) = false := by
    simpa [upTo] using hfits
  obtain ⟨scaled, rows, cols, hread⟩ := hclean.readScalesIf (x.cmd.mTK = 0 ∧ t.preloadAt = 0) x.cmd t
    ((s.core core).array.preloadCycle x.cmd t m)
  rw [ArrayState.preloadCycle] at hread
  simp only [Core.preloadSum] at hnone
  have hindex : (t.withScales scaled rows cols).index = t.index := rfl
  have hacc : (t.withScales scaled rows cols).acc = t.acc := rfl
  have hat : (t.withScales scaled rows cols).preloadAt = t.preloadAt := rfl
  refine ⟨scaled, rows, cols, _, rfl, ?_⟩
  change execPreloadRead core false s = _
  rw [execPreloadRead, onCore_exists hcore]
  simp only [State.arrayCmd_live hlive hx, hcur, ← hi, ← hm, hleft, hdrain, hsound.goesOn, hbarred, hread, hindex, hacc,
    hat, hclean.scratchPoisoned, hnone, Bool.not_true, Bool.or_false, Bool.false_eq_true, if_false, false_and,
    List.isEmpty_nil, Bool.not_eq_true', apply_ite (s.setArray core)]
  rfl

end Tile

/-- A preload row read adds to its own row's accumulators and leaves the others (R87, R529). -/
theorem preloadRead_accumulates {s : State} {core : CoreId} {x : ArrayCmd} {t t' : TileRun} {m : Nat} {new : Nat → Int}
    {scaled : Bool} {rows cols : Sparse ScaleRead} {cycle : Nat}
    (ht' : t' = (t.withScales scaled rows cols).preloaded
      (setRow t.acc m (x.cmd.mNValid (x.cmd.mColTile t.index)) new) cycle) :
    t'.index = t.index ∧ t'.preloadAt = t.preloadAt + 1 ∧ t'.passes = t.passes
      ∧ (∀ n, n < x.cmd.mNValid (x.cmd.mColTile t.index) → Sparse.get 0 t'.acc (m * 144 + n) = new n)
      ∧ (∀ m' n, m' ≠ m → n < 144 → Sparse.get 0 t'.acc (m' * 144 + n) = Sparse.get 0 t.acc (m' * 144 + n))
      ∧ ∃ x', ((s.setArray core (if x.cmd.mTK = 0 ∧ t'.preloadsLeft x.cmd = false then x.issued t'
          else { x with cur := some t' })).core core).array.cmd = some x'
        ∧ (x'.cur = some t' ∨ (x.cmd.mTK = 0 ∧ x'.waiting = x.waiting ++ [t'])) := by
  have hcols := mNValid_le x.cmd (x.cmd.mColTile t.index)
  subst ht'
  refine ⟨rfl, rfl, rfl, fun n hn => ?_, fun m' n hm' hn => get_setRow_other _ _ hcols hm' hn, _,
    State.setArray_cmd .., ?_⟩
  · exact (get_setRow _ _ _ hcols (by omega)).trans (if_pos ⟨rfl, hn⟩)
  · split
    · rename_i hlast
      exact .inr ⟨hlast.1, by rw [Core.reached_waiting, ArrayCmd.issued]⟩
    · exact .inl (by rw [Core.reached_settled _ (.inl rfl)])

/-- Settles O18: the cells a load fills, the products a pass adds, and the row a preload read adds. -/
theorem loadsPassesAndPreloadsAccumulate : Obligations.LoadsPassesAndPreloadsAccumulate := by
  unfold Obligations.LoadsPassesAndPreloadsAccumulate
  rintro s core x t _ _ _ _ cell hcore hlive hx hcur rfl rfl rfl rfl - hfault hsound hclean
  refine ⟨?_, ?_, ?_⟩
  · intro hleft hneeds hbar
    refine ⟨_, _, t.loads (s.core core).array.freeAt,
      exec_stationaryLoad hcore hlive hx hcur hsound hclean hfault hleft hneeds hbar, State.setArray_settled _ core (.inl rfl), rfl, rfl, rfl, ?_, rfl, rfl, ?_, rfl, ?_⟩
    · rw [State.setArray_setCore]; rfl
    · intro k n hn
      rw [State.setArray_setCore]
      exact get_cells _ _ (mNValid_le _ _) hn
    · rw [State.setArray_setCore]; rfl
  · intro hcell new hnodup _ hnew hrange
    have hsum : ∀ m n, new m n
        = (s.core core).passSum x.cmd t.index t.passes (t.fresh x.cmd) t.acc m n := by
      intro m n
      rw [hnew]
      simp only [Core.passSum, TileRun.fresh, Core.products, hcell, Bool.and_eq_true, decide_eq_true_eq]
    have hpass := State.runPass_accumulates hclean hfault hnodup
      (fun m hm n hn => by rw [← hsum]; exact accFits_of_range (hrange m hm n hn))
    simp only [← hsum] at hpass
    constructor
    · intro cycle hfirst hchunks hpreloads hloaded hcycle hafter hread hslot hheld hbar
      obtain ⟨t', hindex, hpasses, hissue, hgood, hacc, hend⟩ := hpass cycle
      rw [hfirst, Nat.zero_add] at hpasses hend
      exact ⟨_, t', exec_tileFirstPassIssue hcore hlive hx hcur hsound hfirst hchunks hpreloads hloaded hcycle hafter
        hread hslot hheld hbar, hindex, hpasses, hissue, hgood, hacc, hend⟩
    · intro hlater hleft hloaded
      obtain ⟨t', hindex, hpasses, hissue, hgood, hacc, hend⟩ := hpass t.loadDone
      exact ⟨_, t', exec_passIssue hcore hlive hx hcur hsound hlater hleft hloaded, hindex, hpasses, hissue, hgood,
        hacc, hend⟩
  · intro i m hleft hi hm hdrain _ hbar new hnew hrange
    have hsum : (s.core core).preloadSum x.cmd t i m = new := funext fun n => (hnew n).symm
    obtain ⟨scaled, rows, cols, t', ht', hexec⟩ := exec_preloadRead hcore hlive hx hcur hsound hclean hleft hi hm
      hdrain hbar (fun n hn => by rw [hsum]; exact accFits_of_range (hrange n hn))
    rw [hsum] at ht'
    exact ⟨_, t', hexec, preloadRead_accumulates ht'⟩

end Sys2Proof.Machine

namespace Sys2Proof.Machine

/-! # Loads of the move engine (R125, R126, R215, R239, R242)

Every load lands its bytes. That the slot of MLOAD_S then holds the entries that were read needs lines of host memory to be
whole, which O20 does not ask. -/

/-! ## Issue -/

section Issue

variable {s : State} {t : Thread} {op : Nat} {q : QEntry} {cmd : Cmd} {needScale : Bool} {fmtOk : Nat → Bool} {d : Desc}

/-- A ready move command passes every check and does its work. -/
theorem State.MoveReady.issueMove {b : MBlk} (hb : b = mblkOf (s.context t) cmd) {region : MBlk → Desc → Nat × Nat}
    {slots : MBlk → List Nat} (h : s.MoveReady t op q cmd needScale fmtOk (region b d) d) (hslots : ∀ n ∈ slots b, n ≤ 23)
    (k : QEntry → Cmd → MBlk → Desc → State → State) :
    s.issueMove t op needScale fmtOk region k slots = k q cmd b d s := by
  have hslots' : (slots b).any (fun n => decide (n > 23)) = false := by simpa using hslots
  have hroom : ¬ ((region b d).2 > 0 ∧ (region b d).1 + (region b d).2 > generalEnd) :=
    fun hout => absurd (h.room hout.1) (by omega)
  have hranges := h.ranges
  have hhandle := h.handle
  rw [State.issueMove, h.issues.issuable]
  rw [← hb] at hranges hhandle
  simp only [← hb, h.issues.signal, hranges, hhandle, hslots', h.format, h.shape, hroom, Bool.not_true, Bool.false_eq_true,
    if_false]

/-- A move whose memory can be read does its work and uses its host lines up. -/
theorem State.Readable.moveRead {ranges : List (Nat × Nat)} (h : s.Readable (s.threadPart t) ranges)
    (k : State → State) : s.moveRead t q cmd ranges k = (k s).dropHost (s.threadPart t) ranges := by
  simp only [State.moveRead, h.lower, h.ready, Bool.not_true, Bool.false_eq_true, if_false]

end Issue

/-- Only the link ports differ. -/
def State.PortsOnly (s u : State) : Prop := u = { s with rcl := u.rcl }

theorem State.PortsOnly.foldl {α : Type} {s : State} {f : State → α → State}
    (hf : ∀ u a, s.PortsOnly u → s.PortsOnly (f u a)) (l : List α) {u : State} (hu : s.PortsOnly u) :
    s.PortsOnly (l.foldl f u) :=
  List.foldlRecOn (motive := s.PortsOnly) l f hu fun u hu a _ => hf u a hu

/-- Using host lines up changes the link ports alone. -/
theorem State.dropHost_portsOnly (s : State) (p : Part) (ranges : List (Nat × Nat)) : s.PortsOnly (s.dropHost p ranges) := by
  refine .foldl (fun u r hu => .foldl (fun u va hu => ?_) _ hu) _ rfl
  split
  · rw [State.PortsOnly] at hu ⊢
    rw [hu]
    rfl
  · exact hu

/-! ## Landing -/

/-- A write to scratch leaves a core's contexts as they were. -/
theorem writeMarked_contexts (c : Core) (o : Nat) (bs : List (Byte × Bool)) : (c.writeMarked o bs).contexts = c.contexts :=
  List.foldlRecOn (motive := fun k : Core => k.contexts = c.contexts) _ _ rfl fun _ hk _ _ => hk

/-- The state after a load: the command has ended OK, its bytes stand in scratch, its host lines are used up. -/
def State.lands (s : State) (t : Thread) (q : QEntry) (cmd : Cmd) (off : Nat) (bs : List (Byte × Bool))
    (ranges : List (Nat × Nat)) : State :=
  ((s.issueDone t .move q cmd stOk).putCore (threadCore t) (fun c => c.writeMarked off bs)).dropHost (s.threadPart t) ranges

/-- Bytes that land where scratch is open are all that a load changes beside its stream. -/
theorem State.lands_landed (s : State) (t : Thread) (q : QEntry) (cmd : Cmd) {off : Nat} {bs : List (Byte × Bool)}
    (ranges : List (Nat × Nat)) (hopen : ∀ i, i < bs.length → scratchOpen (off + i)) :
    s.Landed (s.lands t q cmd off bs ranges) t q cmd off bs := by
  let w := s.issueDone t .move q cmd stOk
  have hcores : (s.lands t q cmd off bs ranges).cores = (w.putCore (threadCore t) (fun c => c.writeMarked off bs)).cores := by
    rw [State.lands, State.dropHost_portsOnly]
  have hcore : ∀ c, (s.lands t q cmd off bs ranges).core c
      = if c = threadCore t then (w.core (threadCore t)).writeMarked off bs else w.core c := by
    intro c
    rw [State.core, hcores]
    exact State.core_setCore ..
  have hscratch : (w.core (threadCore t)).scratch = (s.core (threadCore t)).scratch := by
    simp only [w, State.issueDone]
    rw [startRun_core]
  have hread : ∀ x, Memory.read ((s.lands t q cmd off bs ranges).core (threadCore t)).scratch x
      = if off ≤ x ∧ x < off + bs.length then (bs.getD (x - off) (0, false)).1
        else Memory.read (s.core (threadCore t)).scratch x := by
    intro x
    rw [hcore, if_pos rfl, read_writeMarked _ _ _ _ hopen, hscratch]
  have hcontexts : w.SameContexts (s.lands t q cmd off bs ranges) :=
    (State.SameContexts.setCore (writeMarked_contexts ..)).trans (.of_cores hcores)
  refine ⟨fun i hi => ?_, fun x hx => ?_, ?_, fun c hc => ?_, ?_, ?_⟩
  · rw [hread, if_pos (by omega), Nat.add_sub_cancel_left]
  · rw [hread, if_neg (by omega)]
  · rw [hcontexts.stream]
    exact State.issueDone_stream ..
  · rw [hcore, if_neg hc]
    simp [w, State.issueDone, State.startRun, State.setStream, State.setContext, State.core_setCore, hc]
  · rw [hcontexts.context]
    simp only [w, State.issueDone]
    rw [startRun_context, if_pos rfl]
    exact setStream_sameRegs ..
  · rw [State.lands, State.dropHost_portsOnly]
    exact ⟨rfl, rfl, rfl, rfl⟩

theorem fst_getD (bs : List (Byte × Bool)) (i : Nat) : (bs.getD i (0, false)).1 = (bs.map Prod.fst).getD i 0 := by
  rw [List.getD_eq_getElem?_getD, List.getD_eq_getElem?_getD, List.getElem?_map]
  cases bs[i]? <;> rfl

/-- What has landed where scratch is open is read back. -/
theorem State.Landed.readScratch {s u : State} {t : Thread} {q : QEntry} {cmd : Cmd} {off : Nat} {bs : List (Byte × Bool)}
    (h : s.Landed u t q cmd off bs) (hopen : ∀ i, i < bs.length → scratchOpen (off + i)) {k n : Nat}
    (hn : k + n ≤ bs.length) :
    (u.core (threadCore t)).readScratch (off + k) n = ((bs.map Prod.fst).drop k).take n := by
  have hlen : (((bs.map Prod.fst).drop k).take n).length = n := by
    rw [List.length_take, List.length_drop, List.length_map]
    omega
  have hreadlen : ((u.core (threadCore t)).readScratch (off + k) n).length = n := by
    rw [Core.readScratch, List.length_map, upTo, List.length_range]
  refine List.ext_getElem (hreadlen.trans hlen.symm) fun i hi hi' => ?_
  rw [hreadlen] at hi
  have hin : k + i < bs.length := by omega
  obtain ⟨hhole, hend⟩ := hopen (k + i) hin
  have hbyte := h.bytes (k + i) hin
  rw [← Nat.add_assoc] at hhole hend hbyte
  have hshown : (scratchHole (off + k + i) || decide (off + k + i ≥ 0x200000)) = false := by
    rw [hhole, Bool.false_or, decide_eq_false_iff_not]
    omega
  simp only [Core.readScratch, upTo, List.getElem_map, List.getElem_range, List.getElem_take, List.getElem_drop]
  rw [hshown, if_neg Bool.false_ne_true, hbyte, List.getD_eq_getElem?_getD, List.getElem?_eq_getElem hin, Option.getD_some]

/-! ## Rows of elements -/

/-- Blocks of one length put together. -/
theorem length_flatMap_of_length {α β : Type} {f : α → List β} {k : Nat} {l : List α} (h : ∀ x ∈ l, (f x).length = k) :
    (l.flatMap f).length = l.length * k := by
  induction l with
  | nil => rw [List.flatMap_nil, List.length_nil, List.length_nil, Nat.zero_mul]
  | cons x l ih =>
    rw [List.flatMap_cons, List.length_append, h x List.mem_cons_self, ih fun y hy => h y (List.mem_cons_of_mem x hy),
      List.length_cons, Nat.succ_mul, Nat.add_comm]

/-- Block `i` of a list that is put together from blocks of one length. -/
theorem drop_take_flatMap {α β : Type} {f : α → List β} {k : Nat} {l : List α} (hlen : ∀ x ∈ l, (f x).length = k)
    {i : Nat} (hi : i < l.length) : ((l.flatMap f).drop (i * k)).take k = f l[i] := by
  have hbefore : ((l.take i).flatMap f).length = i * k := by
    rw [length_flatMap_of_length fun x hx => hlen x (List.mem_of_mem_take hx), List.length_take,
      Nat.min_eq_left (Nat.le_of_lt hi)]
  have hsplit : l.flatMap f = (l.take i).flatMap f ++ (f l[i] ++ (l.drop (i + 1)).flatMap f) := by
    rw [← List.flatMap_cons, List.getElem_cons_drop, ← List.flatMap_append, List.take_append_drop]
  rw [hsplit, ← hbefore, List.drop_left, ← hlen l[i] (List.getElem_mem hi), List.take_left]

/-- Bits of the defined formats: packed pairs of 4 or 12 bits, else whole bytes (Table 2.1). -/
theorem fmtBits_cases {f : Nat} (h : f < 15) :
    fmtBits f = 4 ∨ fmtBits f = 12 ∨ ∃ k, 0 < k ∧ fmtBits f = 8 * k := by
  have hall : ∀ f < 15, fmtBits f = 4 ∨ fmtBits f = 12 ∨ (0 < fmtBits f / 8 ∧ fmtBits f = 8 * (fmtBits f / 8)) := by decide
  exact (hall f h).imp_right (.imp_right fun hk => ⟨_, hk⟩)

theorem packRow_length (f : Nat) (xs : List Nat) : (packRow f xs).length = rowBytes f xs.length := by
  unfold packRow rowBytes
  split
  · rw [length_flatMap_of_length (fun _ _ => leBytes_length ..), upTo, List.length_range, Nat.mul_one]
  · split
    · rw [length_flatMap_of_length (fun _ _ => leBytes_length ..), upTo, List.length_range]
    · exact length_flatMap_of_length fun _ _ => leBytes_length ..

theorem getElem_packRow {f : Nat} (hf : f < 15) {xs : List Nat} {j : Nat} (hj : j < xs.length) :
    getElem f (packRow f xs) j = xs.getD j 0 % 2 ^ fmtBits f := by
  have hpair : j / 2 < (upTo (ceilDiv xs.length 2)).length := by
    rw [upTo, List.length_range, ceilDiv]
    omega
  have hat : j % 2 = 0 ∧ 2 * (j / 2) = j ∨ j % 2 = 1 ∧ 2 * (j / 2) + 1 = j := by omega
  rcases fmtBits_cases hf with hb | hb | ⟨k, hk, hb⟩
  · have hblock := drop_take_flatMap (k := 1) (l := upTo (ceilDiv xs.length 2))
      (f := fun i => leBytes 1 (xs.getD (2 * i) 0 % 16 + 16 * (xs.getD (2 * i + 1) 0 % 16))) (by simp) hpair
    simp only [upTo, List.getElem_range, Nat.mul_one] at hblock
    simp only [getElem, packRow, hb, if_true, field, upTo, hblock, leNat_leBytes]
    rcases hat with ⟨hj, hat⟩ | ⟨hj, hat⟩ <;> rw [hj, hat] <;> omega
  · have hblock := drop_take_flatMap (k := 3) (l := upTo (ceilDiv xs.length 2))
      (f := fun i => leBytes 3 (xs.getD (2 * i) 0 % 4096 + 4096 * (xs.getD (2 * i + 1) 0 % 4096))) (by simp) hpair
    simp only [upTo, List.getElem_range, Nat.mul_comm _ 3] at hblock
    simp only [getElem, packRow, hb, Nat.reduceEqDiff, if_true, if_false, field, upTo, hblock, leNat_leBytes]
    rcases hat with ⟨hj, hat⟩ | ⟨hj, hat⟩ <;> simp only [hj, hat] <;> omega
  · have hblock := drop_take_flatMap (k := k) (l := xs) (f := fun x => leBytes k x) (by simp) hj
    have hne : 8 * k ≠ 4 ∧ 8 * k ≠ 12 := by omega
    simp only [getElem, packRow, hb, hne, if_false, field, Nat.mul_div_cancel_left k (by decide : 0 < 8), hblock, leNat_leBytes]
    simp [hj, Nat.pow_mul]

theorem rowBytes_mono (f : Nat) {m n : Nat} (h : m ≤ n) : rowBytes f m ≤ rowBytes f n := by
  unfold rowBytes ceilDiv
  split
  · omega
  · split
    · omega
    · exact Nat.mul_le_mul_right _ h

theorem rowBytes_le_rowPitch (f cols : Nat) : rowBytes f cols ≤ rowPitch f cols := by
  unfold rowPitch ceilDiv
  omega

/-- A tile's format has at most 16 bits, and a tile's row at most 144 columns. -/
theorem rowBytes_tile {f n : Nat} (hf : tileFmt f = true) (hn : n ≤ 144) : rowBytes f n ≤ 288 := by
  have hwidest : ∀ f < 12, rowBytes f 144 ≤ 288 := by decide
  exact Nat.le_trans (rowBytes_mono f hn) (hwidest f (of_decide_eq_true hf))

@[simp] theorem padTo_length (n : Nat) (l : List (Byte × Bool)) : (padTo n l).length = max n l.length := by
  rw [padTo, List.length_append, List.length_replicate]
  omega

@[simp] theorem map_fst_packRowP (f : Nat) (xs : List (Nat × Bool)) :
    (packRowP f xs).map Prod.fst = packRow f (xs.map Prod.fst) := by
  simp only [packRowP, List.map_map]
  exact List.zipIdx_map_fst 0 _

@[simp] theorem packRowP_length (f : Nat) (xs : List (Nat × Bool)) : (packRowP f xs).length = rowBytes f xs.length := by
  simp [packRowP, packRow_length]

/-- A row of a loaded block: the elements given, zeros up to `width` elements, zero bytes up to `pitch` bytes. -/
def paddedRow (f width pitch : Nat) (xs : List (Nat × Bool)) : List (Byte × Bool) :=
  padTo pitch (packRowP f (xs ++ List.replicate (width - xs.length) (0, false)))

theorem paddedRow_length (f width pitch : Nat) (xs : List (Nat × Bool)) :
    (paddedRow f width pitch xs).length = max pitch (rowBytes f (max width xs.length)) := by
  have hwidth : xs.length + (width - xs.length) = max width xs.length := by omega
  simp [paddedRow, hwidth]

/-- An element of a padded row: the one given, or zero after them. -/
theorem getElem_paddedRow {f width pitch : Nat} {xs : List (Nat × Bool)} {j : Nat} (hf : f < 15) (hj : j < width)
    (hxs : xs.length ≤ width) (hfits : ∀ x ∈ xs, x.1 < 2 ^ fmtBits f) :
    getElem f (((paddedRow f width pitch xs).map Prod.fst).take (rowBytes f width)) j
      = if j < xs.length then (xs.getD j (0, false)).1 else 0 := by
  let row := (xs ++ List.replicate (width - xs.length) (0, false)).map Prod.fst
  have hrow : row.length = width := by simp [row, hxs]
  have htake : ((paddedRow f width pitch xs).map Prod.fst).take (rowBytes f width) = packRow f row := by
    rw [paddedRow, padTo, List.map_append, map_fst_packRowP, List.take_left' (by rw [packRow_length, hrow])]
  rw [htake, getElem_packRow hf (by rw [hrow]; exact hj)]
  split
  · rename_i hin
    have helem : row.getD j 0 = xs[j].1 := by simp [row, List.getD_eq_getElem?_getD, List.getElem?_append, hin]
    rw [helem, Nat.mod_eq_of_lt (hfits _ (List.getElem_mem hin))]
    simp [List.getD_eq_getElem?_getD, hin]
  · rename_i hout
    have hzero : row.getD j 0 = 0 := by
      have hpast : (xs.map Prod.fst).length ≤ j := by
        rw [List.length_map]
        exact Nat.le_of_not_lt hout
      have hsplit : row = xs.map Prod.fst ++ List.replicate (width - xs.length) 0 :=
        List.map_append.trans (congrArg _ List.map_replicate)
      rw [hsplit, List.getD_eq_getElem?_getD, List.getElem?_append_right hpast, List.getElem?_replicate]
      split <;> rfl
    rw [hzero, Nat.zero_mod]

/-! ## Loaded blocks -/

@[simp] theorem State.rowElems_length (s : State) (p : Part) (f addr j n : Nat) : (s.rowElems p f addr j n).length = n := by
  simp [State.rowElems, upTo]

/-- The in-bounds elements of row `i` of a block. -/
def State.blockElems (s : State) (p : Part) (d : Desc) (b : MBlk) (i : Nat) : List (Nat × Bool) :=
  if i < (d.part b b.rows b.cols).1 then
    s.rowElems p d.fmt (d.blockRow b i) (b.o.getD 0 0) (d.part b b.rows b.cols).2
  else []

theorem State.loadBlock_eq (s : State) (p : Part) (d : Desc) (b : MBlk) (rows width pitch : Nat) :
    s.loadBlock p d b rows width pitch = (upTo rows).flatMap (fun i => paddedRow d.fmt width pitch (s.blockElems p d b i)) :=
  rfl

theorem State.blockElems_length_le (s : State) (p : Part) (d : Desc) (b : MBlk) (i : Nat) :
    (s.blockElems p d b i).length ≤ (d.part b b.rows b.cols).2 := by
  unfold State.blockElems
  split <;> simp

/-- Row `k` of a transposed block: the in-bounds elements of the tensor's column `k` (R242). -/
def State.columnElems (s : State) (p : Part) (d : Desc) (b : MBlk) (k : Nat) : List (Nat × Bool) :=
  let n0 := if d.outerIn b.o then inBounds (b.o.getD 0 0) b.rows (d.extent 0) else 0
  let n1 := if d.outerIn b.o then inBounds (b.o.getD 1 0) b.cols (d.extent 1) else 0
  if k < n0 then
    ((upTo n1).map (fun j => s.rowElems p d.fmt (d.blockRow b j) (b.o.getD 0 0) n0)).map (fun l => l.getD k (0, false))
  else []

theorem State.loadTransposed_eq (s : State) (p : Part) (d : Desc) (b : MBlk) (rows width : Nat) :
    s.loadTransposed p d b rows width = (upTo rows).flatMap (fun k => paddedRow d.fmt width 72 (s.columnElems p d b k)) :=
  rfl

theorem inBounds_le (o n e : Nat) : inBounds o n e ≤ n := by
  unfold inBounds
  split <;> omega

theorem Desc.part_le (d : Desc) (b : MBlk) (rows cols : Nat) : (d.part b rows cols).2 ≤ cols := by
  unfold Desc.part
  split
  · exact inBounds_le ..
  · exact Nat.zero_le _

theorem State.columnElems_length_le (s : State) (p : Part) (d : Desc) (b : MBlk) (k : Nat) :
    (s.columnElems p d b k).length ≤ b.cols := by
  unfold State.columnElems
  extract_lets n0 n1
  have hn1 : n1 ≤ b.cols := by
    unfold n1
    split
    · exact inBounds_le ..
    · exact Nat.zero_le _
  split
  · simpa [upTo] using hn1
  · exact Nat.zero_le _

/-- Blocks put together are at most as long as so many of the longest. -/
theorem length_flatMap_upTo_le {α : Type} {f : Nat → List α} {k : Nat} (h : ∀ i, (f i).length ≤ k) (n : Nat) :
    ((upTo n).flatMap f).length ≤ n * k := by
  induction n with
  | zero => exact Nat.zero_le _
  | succ n ih =>
    rw [upTo] at ih ⊢
    rw [List.range_succ, List.flatMap_append, List.flatMap_singleton, List.length_append, Nat.succ_mul]
    exact Nat.add_le_add ih (h n)

/-- What stands in a row of a loaded block: the tensor's element in bounds and zero elsewhere (R239). -/
theorem State.getElem_loadBlock {s : State} {p : Part} {d : Desc} {b : MBlk} {rows width pitch i j : Nat} (hi : i < rows)
    (hj : j < width) (hpitch : rowBytes d.fmt width ≤ pitch) (hf : d.fmt < 15) (hwidth : (d.part b b.rows b.cols).2 ≤ width)
    (hfits : ∀ x ∈ s.rowElems p d.fmt (d.blockRow b i) (b.o.getD 0 0) (d.part b b.rows b.cols).2, x.1 < 2 ^ fmtBits d.fmt) :
    getElem d.fmt ((((s.loadBlock p d b rows width pitch).map Prod.fst).drop (i * pitch)).take (rowBytes d.fmt width)) j
      = if i < (d.part b b.rows b.cols).1 ∧ j < (d.part b b.rows b.cols).2 then
          ((s.rowElems p d.fmt (d.blockRow b i) (b.o.getD 0 0) (d.part b b.rows b.cols).2).getD j (0, false)).1 else 0 := by
  have hlen : ∀ i, (s.blockElems p d b i).length ≤ width := fun i => Nat.le_trans (s.blockElems_length_le p d b i) hwidth
  have hrow := drop_take_flatMap (k := pitch) (l := upTo rows)
    (f := fun i => paddedRow d.fmt width pitch (s.blockElems p d b i))
    (fun i _ => by rw [paddedRow_length, Nat.max_eq_left (hlen i), Nat.max_eq_left hpitch]) (i := i) (by simpa [upTo])
  have hbytes : (((s.loadBlock p d b rows width pitch).map Prod.fst).drop (i * pitch)).take (rowBytes d.fmt width)
      = ((paddedRow d.fmt width pitch (s.blockElems p d b i)).map Prod.fst).take (rowBytes d.fmt width) := by
    simp only [upTo, List.getElem_range] at hrow
    rw [← hrow, ← List.map_drop, State.loadBlock_eq, List.map_take, List.take_take, Nat.min_eq_left hpitch]
    rfl
  rw [hbytes]
  by_cases hin : i < (d.part b b.rows b.cols).1
  · have helems : s.blockElems p d b i
        = s.rowElems p d.fmt (d.blockRow b i) (b.o.getD 0 0) (d.part b b.rows b.cols).2 := if_pos hin
    rw [helems, getElem_paddedRow hf hj (by simpa using hwidth) hfits, State.rowElems_length]
    simp only [hin, true_and]
  · have helems : s.blockElems p d b i = [] := if_neg hin
    rw [helems, getElem_paddedRow hf hj (Nat.zero_le _) (by simp), if_neg (by simp), if_neg fun h => hin h.1]

/-! ## The commands -/

/-- No field of a command that issues is out of range (R195, R240). -/
theorem State.Issues.fieldsOk {s : State} {t : Thread} {op : Nat} {q : QEntry} {cmd : Cmd} (h : s.Issues t .move op q cmd)
    (hop : 0x70 ≤ op ∧ op ≤ 0x78) : s.fieldBad t .move cmd = false := by
  obtain ⟨-, -, -, hcmd, hlegal, -, hopcode⟩ := issuable_inv h.issuable
  have hengine : opcodeEngine cmd.opcode = some (some .move) := by
    rw [hopcode]
    unfold opcodeEngine
    repeat rw [if_neg (by omega)]
    rw [if_pos (by omega)]
  rw [State.illegal, ← hcmd, hengine] at hlegal
  grind

/-- The block of a tile load has at most 144 columns (R240). -/
theorem tileCols_le {s : State} {t : Thread} {op : Nat} {q : QEntry} {cmd : Cmd} (h : s.Issues t .move op q cmd)
    (hop : op = 0x70 ∨ op = 0x71) : (mblkOf (s.context t) cmd).cols ≤ 144 := by
  have hopcode := (issuable_inv h.issuable).2.2.2.2.2.2
  have hfields := h.fieldsOk (by omega)
  have hbad : ∃ x n, (x || decide (cmd.bits 5 15 0 > 144 / n)) = false := by
    rcases hop with rfl | rfl <;> simp only [State.fieldBad, hopcode] at hfields <;> exact ⟨_, _, hfields⟩
  obtain ⟨x, n, hn⟩ := hbad
  exact Nat.le_trans (Nat.le_of_not_lt (of_decide_eq_false (Bool.or_eq_false_iff.1 hn).2)) (Nat.div_le_self ..)

/-- A region of the general area is open, and so are the scale slots after it (Table 6.3). -/
theorem scratchOpen_region {off i n : Nat} (h : off + n ≤ 0x1FB300) (hi : i < n) : scratchOpen (off + i) := by
  have hbelow : ¬ 0x1FB300 ≤ off + i := by omega
  exact ⟨by simp [scratchHole, hbelow], by omega⟩

/-- A step that lands bytes where scratch is open. -/
theorem State.landed_of_exec {s : State} {t : Thread} {q : QEntry} {cmd : Cmd} {off : Nat} {bs : List (Byte × Bool)}
    {i : Instr} (hopen : ∀ i, i < bs.length → scratchOpen (off + i)) (ranges : List (Nat × Nat))
    (hexec : Machine.exec i s = .next (s.lands t q cmd off bs ranges)) :
    ∃ u, Machine.exec i s = .next u ∧ s.Landed u t q cmd off bs :=
  ⟨_, hexec, s.lands_landed t q cmd ranges hopen⟩

@[simp] theorem tileHeader_length (handle axis role fmt chunk : Nat) (transposed : Bool) :
    (tileHeader handle axis role fmt chunk transposed).length = 32 := by simp [tileHeader]

/-! ## Scale tiles -/

/-- The header of a scale tile (Table 4.7). -/
def scaleHeader (d : Desc) (b : MBlk) (count : Nat) : List Byte :=
  leBytes 2 count ++ leBytes 1 0 ++ leBytes 1 b.rows ++ leBytes 2 b.handle ++ leBytes 2 d.scaleHandle
    ++ leBytes 4 b.w6 ++ List.replicate 20 0

/-- A scale tile of `count` entries from `base`: the header, the entries, zeros up to the slot's end. -/
def State.scaleTileBytes (s : State) (p : Part) (d : Desc) (b : MBlk) (base count : Nat) : List (Byte × Bool) :=
  padTo 4640 ((scaleHeader d b count).map (fun x => (x, false)) ++
    (s.readVa p base (16 * count)).zipIdx.map (fun x => (x.1, (s.readLine p ((base + x.2) / 64 * 64)).2)))

@[simp] theorem scaleHeader_length (d : Desc) (b : MBlk) (count : Nat) : (scaleHeader d b count).length = 32 := by
  simp [scaleHeader]

theorem State.readVa_length_le (s : State) (p : Part) (va n : Nat) : (s.readVa p va n).length ≤ n := List.length_take_le ..

theorem State.scaleTileBytes_length (s : State) (p : Part) (d : Desc) (b : MBlk) (base : Nat) {count : Nat}
    (h : count ≤ 288) : (s.scaleTileBytes p d b base count).length = 4640 := by
  have hread := s.readVa_length_le p base (16 * count)
  rw [State.scaleTileBytes, padTo_length, List.length_append, List.length_map, List.length_map, scaleHeader_length,
    List.length_zipIdx]
  omega

theorem State.map_fst_scaleTileBytes (s : State) (p : Part) (d : Desc) (b : MBlk) (base count : Nat) :
    (s.scaleTileBytes p d b base count).map Prod.fst
      = scaleHeader d b count ++ (s.readVa p base (16 * count)
        ++ List.replicate (4640 - (32 + (s.readVa p base (16 * count)).length)) 0) := by
  have hfst : ∀ l : List Byte, l.zipIdx.map (fun x => x.1) = l := fun l => List.zipIdx_map_fst 0 l
  simp [State.scaleTileBytes, padTo, Function.comp_def, hfst]

section Loads

variable {s : State} {t : Thread} {q : QEntry} {cmd : Cmd} {d : Desc} {b : MBlk} (hb : b = mblkOf (s.context t) cmd)
  {rows cols : Nat}
include hb

/-- The tile that a load builds lies below the reserved area, however wide its rows are. -/
theorem tile_open {op : Nat} (hop : op = 0x70 ∨ op = 0x71) (hrows : rows ≤ 288)
    (h : s.MoveReady t op q cmd false tileFmt (b.off, 32 + rows * 72) d) {head : List Byte} (hhead : head.length = 32)
    {f : Nat → List (Nat × Bool)} (hf : ∀ i, (f i).length ≤ b.cols) :
    ∀ i, i < (head.map (fun x => (x, false)) ++ (upTo rows).flatMap
      (fun i => paddedRow d.fmt (576 / fmtBits d.fmt) 72 (f i))).length → scratchOpen (b.off + i) := by
  have hcols : b.cols ≤ 144 := hb ▸ tileCols_le h.issues hop
  have hwide : 576 / fmtBits d.fmt ≤ 144 := by
    have hlt : d.fmt < 12 := by simpa [tileFmt] using h.format
    have hall : ∀ f < 12, 576 / fmtBits f ≤ 144 := by decide
    exact hall _ hlt
  have hlen := length_flatMap_upTo_le (f := fun i => paddedRow d.fmt (576 / fmtBits d.fmt) 72 (f i)) (k := 288)
    (fun i => by
      rw [paddedRow_length]
      exact Nat.max_le.2 ⟨by decide, rowBytes_tile h.format (Nat.max_le.2 ⟨hwide, Nat.le_trans (hf i) hcols⟩)⟩) rows
  have hregion : b.off + (32 + rows * 72) ≤ 0x1E0000 := h.room (Nat.add_pos_left (by decide) _)
  refine fun i hi => scratchOpen_region ?_ hi
  rw [List.length_append, List.length_map, hhead]
  omega

/-- MLOAD lands its block row by row (R239). -/
theorem mload_lands (hpart : d.part b b.rows b.cols = (rows, cols)) (hrows : rows ≠ 0) (hcols : cols ≠ 0)
    (h : s.MoveReady t 0x73 q cmd false anyFmt (b.off, blockBytes d.fmt b.rows b.cols) d)
    (hread : s.Readable (s.threadPart t) (d.blockRanges b rows cols)) :
    ∃ u, Machine.exec (.mload t) s = .next u
      ∧ s.Landed u t q cmd b.off (s.loadBlock (s.threadPart t) d b b.rows b.cols (rowPitch d.fmt b.cols)) := by
  have hlen : (s.loadBlock (s.threadPart t) d b b.rows b.cols (rowPitch d.fmt b.cols)).length
      ≤ blockBytes d.fmt b.rows b.cols := by
    refine length_flatMap_upTo_le (fun i => ?_) b.rows
    have hwidth := Nat.le_trans (s.blockElems_length_le (s.threadPart t) d b i) (d.part_le b b.rows b.cols)
    refine Nat.le_trans (Nat.le_of_eq (paddedRow_length d.fmt b.cols _ (s.blockElems (s.threadPart t) d b i))) ?_
    rw [Nat.max_eq_left hwidth]
    exact Nat.max_le.2 ⟨Nat.le_refl _, rowBytes_le_rowPitch ..⟩
  refine State.landed_of_exec (fun i hi => scratchOpen_region ?_ hi) (d.blockRanges b rows cols) ?_
  · have hregion : b.off + blockBytes d.fmt b.rows b.cols ≤ 0x1E0000 := h.room (Nat.zero_lt_of_lt (Nat.lt_of_lt_of_le hi hlen))
    omega
  · change execMload t s = _
    rw [execMload, h.issues.onThread,
      h.issueMove hb (region := fun b d => (b.off, blockBytes d.fmt b.rows b.cols)) (by simp)]
    simp only [hpart, hrows, hcols, or_self, if_false, hread.moveRead]
    rfl

/-- MLOAD_A builds a stream tile under its header (R125, R239). -/
theorem mloadA_lands (hpart : d.part b b.rows b.cols = (rows, cols)) (hrows : rows ≠ 0) (hcols : cols ≠ 0)
    (h : s.MoveReady t 0x70 q cmd false tileFmt (b.off, 20768) d)
    (hread : s.Readable (s.threadPart t) (d.blockRanges b rows cols)) :
    ∃ u, Machine.exec (.mloadA t) s = .next u
      ∧ s.Landed u t q cmd b.off ((tileHeader b.handle b.w6 0 d.fmt 0 false).map (fun x => (x, false))
        ++ s.loadBlock (s.threadPart t) d b 288 (576 / fmtBits d.fmt) 72) := by
  rw [State.loadBlock_eq]
  refine State.landed_of_exec (tile_open hb (.inl rfl) (Nat.le_refl _) h (tileHeader_length ..) fun i =>
    Nat.le_trans (s.blockElems_length_le _ d b i) (d.part_le ..)) (d.blockRanges b rows cols) ?_
  change execMloadA t s = _
  rw [execMloadA, h.issues.onThread, h.issueMove hb (region := fun b _ => (b.off, 32 + 20736)) (by simp)]
  simp only [hpart, hrows, hcols, or_self, if_false, hread.moveRead]
  rfl

/-- MLOAD_B, not transposed, builds a stationary tile under its header (R125, R240). -/
theorem mloadB_lands (hpart : d.part b b.rows b.cols = (rows, cols)) (hrows : rows ≠ 0) (hcols : cols ≠ 0)
    (h : s.MoveReady t 0x71 q cmd false tileFmt (b.off, 32 + 144 / (bitsOf b.w6 17 16 + 1) * 72) d)
    (hstraight : cmd.bit 1 16 = false) (hread : s.Readable (s.threadPart t) (d.blockRanges b rows cols)) :
    ∃ u, Machine.exec (.mloadB t) s = .next u
      ∧ s.Landed u t q cmd b.off
        ((tileHeader b.handle (b.o.getD 0 0 / (576 / fmtBits d.fmt)) 1 d.fmt (b.w6 % 2 ^ 16) false).map (fun x => (x, false))
          ++ s.loadBlock (s.threadPart t) d b (144 / (bitsOf b.w6 17 16 + 1)) (576 / fmtBits d.fmt) 72) := by
  rw [State.loadBlock_eq]
  refine State.landed_of_exec (tile_open hb (.inr rfl) (Nat.le_trans (Nat.div_le_self ..) (by decide)) h (tileHeader_length ..)
    fun i => Nat.le_trans (s.blockElems_length_le _ d b i) (d.part_le ..)) (d.blockRanges b rows cols) ?_
  change execMloadB t s = _
  rw [execMloadB, h.issues.onThread,
    h.issueMove hb (region := fun b _ => (b.off, 32 + 144 / (bitsOf b.w6 17 16 + 1) * 72)) (by simp)]
  simp only [hpart, hstraight, Bool.false_eq_true, hrows, hcols, or_self, if_false, hread.moveRead]
  rfl

/-- MLOAD_B, transposed, builds a stationary tile of the tensor's columns under its header (R242). -/
theorem mloadB_transposed_lands (houter : d.outerIn b.o = true) (hn0 : rows = inBounds (b.o.getD 0 0) b.rows (d.extent 0))
    (hn1 : cols = inBounds (b.o.getD 1 0) b.cols (d.extent 1)) (hrows : rows ≠ 0) (hcols : cols ≠ 0)
    (h : s.MoveReady t 0x71 q cmd false tileFmt (b.off, 32 + 144 / (bitsOf b.w6 17 16 + 1) * 72) d)
    (htransposed : cmd.bit 1 16 = true) (hread : s.Readable (s.threadPart t) (d.blockRanges b cols rows)) :
    ∃ u, Machine.exec (.mloadB t) s = .next u
      ∧ s.Landed u t q cmd b.off
        ((tileHeader b.handle (b.o.getD 1 0 / (576 / fmtBits d.fmt)) 1 d.fmt (b.w6 % 2 ^ 16) true).map (fun x => (x, false))
          ++ s.loadTransposed (s.threadPart t) d b (144 / (bitsOf b.w6 17 16 + 1)) (576 / fmtBits d.fmt)) := by
  rw [State.loadTransposed_eq]
  refine State.landed_of_exec (tile_open hb (.inr rfl) (Nat.le_trans (Nat.div_le_self ..) (by decide)) h (tileHeader_length ..)
    (s.columnElems_length_le (s.threadPart t) d b)) (d.blockRanges b cols rows) ?_
  change execMloadB t s = _
  rw [execMloadB, h.issues.onThread,
    h.issueMove hb (region := fun b _ => (b.off, 32 + 144 / (bitsOf b.w6 17 16 + 1) * 72)) (by simp)]
  simp only [htransposed, houter, if_true, ← hn0, ← hn1, hrows, hcols, or_self, if_false, hread.moveRead]
  rfl

/-- MMASK lands a row mask (R94, R215). -/
theorem mmask_lands (hpart : d.part b 1 b.cols = (1, cols)) (hcols : cols ≠ 0)
    (h : s.MoveReady t 0x77 q cmd false anyFmt (b.off, 36) d)
    (hread : s.Readable (s.threadPart t) (d.blockRanges b 1 cols)) :
    ∃ u, Machine.exec (.mmask t) s = .next u
      ∧ s.Landed u t q cmd b.off ((padTo 36 (packRowP d.fmt (s.rowElems (s.threadPart t) d.fmt (d.blockRow b 0)
        (b.o.getD 0 0) cols))).take 36) := by
  have hregion : b.off + 36 ≤ 0x1E0000 := h.room (Nat.zero_lt_succ 35)
  refine State.landed_of_exec (fun i hi => scratchOpen_region (n := 36) (by omega) ?_) (d.blockRanges b 1 cols) ?_
  · exact Nat.lt_of_lt_of_le hi (List.length_take_le ..)
  · change execMmask t s = _
    rw [execMmask, h.issues.onThread, h.issueMove hb (region := fun b _ => (b.off, 36)) (by simp)]
    simp only [hpart, hcols, or_false, Nat.one_ne_zero, if_false, hread.moveRead]
    rfl

/-- MLOAD_S lands a scale tile in its slot (R126, R239). -/
theorem mloadS_lands {slot count base : Nat} (hslot : slot = bitsOf b.w4 20 16) (hslots : slot ≤ 23)
    (h : s.MoveReady t 0x72 q cmd true (fun _ => true) (0, 0) d) (hin : b.w6 * b.cols < d.channels) (hcols : 0 < b.cols)
    (hcount : count = min b.cols (d.channels - b.w6 * b.cols)) (hfits : count ≤ 288)
    (hbase : base = (s.desc (s.threadPart t) d.scaleHandle).base + 16 * (b.w6 * b.cols))
    (hread : s.Readable (s.threadPart t) [(base, 16 * count)]) :
    ∃ u, Machine.exec (.mloadS t) s = .next u
      ∧ s.Landed u t q cmd (slotAt slot) (s.scaleTileBytes (s.threadPart t) d b base count) := by
  have hsome : ¬ d.channels ≤ b.w6 * b.cols ∧ count ≠ 0 := by omega
  refine State.landed_of_exec (fun i hi => scratchOpen_region (n := 4640) ?_ ?_) [(base, 16 * count)] ?_
  · unfold slotAt generalEnd
    omega
  · rwa [s.scaleTileBytes_length _ d b base hfits] at hi
  · change execMloadS t s = _
    rw [execMloadS, h.issues.onThread,
      h.issueMove hb (region := fun _ _ => (0, 0)) (slots := fun b => [bitsOf b.w4 20 16]) (by simpa [← hslot] using hslots)]
    simp only [ge_iff_le, hsome.1, if_false, ← hcount, hsome.2, scaleAt, ← hbase, ← hslot, hread.moveRead]
    rfl

end Loads

/-- The fields that a scale tile's header spells (Table 4.7). -/
theorem field_scaleHeader (d : Desc) (b : MBlk) (count : Nat) :
    field ((scaleHeader d b count).take 12) 0 2 = count % 2 ^ 16
      ∧ field ((scaleHeader d b count).take 12) 3 1 = b.rows % 256
      ∧ field ((scaleHeader d b count).take 12) 4 2 = b.handle % 2 ^ 16
      ∧ field ((scaleHeader d b count).take 12) 8 4 = b.w6 % 2 ^ 32 :=
  ⟨leNat_leBytes 2 count, leNat_leBytes 1 b.rows, leNat_leBytes 2 b.handle, leNat_leBytes 4 b.w6⟩

/-- Each line of host memory that has arrived has its 64 bytes. -/
def State.hostLinesWhole (s : State) : Prop := ∀ k a x, s.hostLine k a = some x → x.bytes.length = 64

theorem State.readLine_length {s : State} (hwhole : s.hostLinesWhole) (p : Part) (va : Nat) :
    (s.readLine p va).1.length = 64 := by
  unfold State.readLine
  split
  · exact Memory.readBytes_length ..
  · exact Memory.readBytes_length ..
  · split
    · rename_i x hx
      exact hwhole _ _ x hx
    · rfl
  · split
    · simp [Core.readScratch, upTo]
    · rfl
  · simp
  · rfl

/-- A read brings all its bytes where host lines are whole. -/
theorem State.readVa_length {s : State} (hwhole : s.hostLinesWhole) (p : Part) (va n : Nat) : (s.readVa p va n).length = n := by
  unfold State.readVa linesOf
  rw [List.length_take, List.length_drop, length_flatMap_of_length fun l _ => State.readLine_length hwhole p l]
  split
  · rename_i hn
    rw [hn, Nat.zero_min]
  · rw [List.length_map, upTo, List.length_range]
    omega

/-- Where host lines are whole, MLOAD_S copies the entries of its channels into the slot, zeros after them, under a header
that names how many, the role, the handle and the axis index, and nothing else in scratch changes (R126, R239). -/
theorem mloadS_fills_slot {s : State} {t : Thread} {q : QEntry} {cmd : Cmd} {d : Desc} {b : MBlk} {p : Part}
    {slot count base : Nat} (hwhole : s.hostLinesWhole) (hb : b = mblkOf (s.context t) cmd) (hp : p = s.threadPart t)
    (hslot : slot = bitsOf b.w4 20 16) (hslots : slot ≤ 23)
    (h : s.MoveReady t 0x72 q cmd true (fun _ => true) (0, 0) d) (hin : b.w6 * b.cols < d.channels) (hcols : 0 < b.cols)
    (hcount : count = min b.cols (d.channels - b.w6 * b.cols)) (hfits : count ≤ 288)
    (hbase : base = (s.desc p d.scaleHandle).base + 16 * (b.w6 * b.cols))
    (hread : s.Readable p [(base, 16 * count)]) :
    ∃ u, Machine.exec (.mloadS t) s = .next u
      ∧ (u.core (threadCore t)).scaleTile slot = ⟨count, b.rows % 256, b.handle, b.w6⟩
      ∧ (u.core (threadCore t)).readScratch (slotAt slot + 32) (16 * count) = s.readVa p base (16 * count)
      ∧ (∀ x, slotAt slot + 32 + 16 * count ≤ x ∧ x < slotAt slot + 4640 →
        Memory.read (u.core (threadCore t)).scratch x = 0)
      ∧ (∀ x, x < slotAt slot ∨ slotAt slot + 4640 ≤ x →
        Memory.read (u.core (threadCore t)).scratch x = Memory.read (s.core (threadCore t)).scratch x) := by
  subst hp
  obtain ⟨u, hexec, hlanded⟩ := mloadS_lands hb hslot hslots h hin hcols hcount hfits hbase hread
  have hlen := s.scaleTileBytes_length (s.threadPart t) d b base hfits
  have hentries := State.readVa_length hwhole (s.threadPart t) base (16 * count)
  have hopen : ∀ i, i < (s.scaleTileBytes (s.threadPart t) d b base count).length → scratchOpen (slotAt slot + i) :=
    fun i hi => scratchOpen_region (n := 4640) (by unfold slotAt generalEnd; omega) (by rwa [hlen] at hi)
  have hbytes := s.map_fst_scaleTileBytes (s.threadPart t) d b base count
  refine ⟨u, hexec, ?_, ?_, fun x hx => ?_, fun x hx => hlanded.others x (by rwa [hlen])⟩
  · have hhead : (u.core (threadCore t)).readScratch (slotAt slot) 12 = (scaleHeader d b count).take 12 := by
      refine (hlanded.readScratch hopen (k := 0) (n := 12) (by omega)).trans ?_
      rw [hbytes, List.drop_zero, List.take_append_of_le_length (by simp)]
    obtain ⟨hcountField, hrole, hhandle, haxis⟩ := field_scaleHeader d b count
    have hhandleFits : b.handle < 2 ^ 16 := hb ▸ Nat.mod_lt _ (by decide)
    have haxisFits : b.w6 < 2 ^ 32 := hb ▸ cmd.w6.isLt
    have htile : ∀ c : Core, c.scaleTile slot = ⟨field (c.readScratch (slotAt slot) 12) 0 2,
        field (c.readScratch (slotAt slot) 12) 3 1, field (c.readScratch (slotAt slot) 12) 4 2,
        field (c.readScratch (slotAt slot) 12) 8 4⟩ := fun _ => rfl
    rw [htile, hhead, hcountField, hrole, hhandle, haxis, Nat.mod_eq_of_lt (show count < 2 ^ 16 by omega),
      Nat.mod_eq_of_lt hhandleFits, Nat.mod_eq_of_lt haxisFits]
  · rw [hlanded.readScratch hopen (by omega), hbytes, List.drop_left' (scaleHeader_length ..), List.take_left' hentries]
  · have hbyte := hlanded.bytes (x - slotAt slot) (by omega)
    rw [show slotAt slot + (x - slotAt slot) = x by omega] at hbyte
    have hpast : (scaleHeader d b count ++ s.readVa (s.threadPart t) base (16 * count)).length ≤ x - slotAt slot := by
      rw [List.length_append, scaleHeader_length, hentries]
      omega
    rw [hbyte, fst_getD, hbytes, ← List.append_assoc, List.getD_eq_getElem?_getD, List.getElem?_append_right hpast,
      List.getElem?_replicate]
    split <;> rfl

/-! ## A scale tensor in host memory -/

/-- A vector of four INT8 elements in page 0, with scale tensor 2. -/
def scaledVector : Desc := ⟨1, 0x1000, 2 * 2 ^ 48 + 0x42, [4], [4], [0, 32], 0, 0, 0, true⟩

/-- Its scale tensor, in page 1. -/
def scalesOnHost : Desc := ⟨2, 0x200000, 0x4F, [4], [4], [0, 64], 0, 0, 0, true⟩

/-- MLOAD_S of the four channels of tensor 1 into slot 0. -/
def loadScales : Cmd := ⟨0x72000000, 1, 0, 0, 0, 4, 0, 0⟩

/-- Where it stands in the queue. -/
def loadScalesEntry : QEntry := ⟨loadScales, 0, .sound⟩

/-- A live module on which thread 0 is to issue that command. Page 0 lies in HBM, with the descriptors; page 1 in host
memory at port 0, and of its first line `line` has arrived. -/
def hostScales (line : List Byte) : State :=
  { State.reset with
    power := { Power.off with pwrEn := true, railsUp := 10, vaux := true, pwrGood := true }
    boot := { Boot.off with stage := .firmware, locked := true, ready := true }
    parts := [(0, { Partition.init with
      pageTable := [(0, ⟨true, true, .hbm, 0, false, false, 0⟩), (1, ⟨true, true, .host, 0, false, false, 0⟩)] })]
    cores := [(0, { Core.init with contexts := [(0, { Context.init with
      run := .running, move := { StreamState.init with queue := [loadScalesEntry] } })] })]
    hbm := Memory.writeBytes (Memory.writeBytes [] 128 (descBytes scaledVector)) 256 (descBytes scalesOnHost)
    rcl := [(0, { State.reset.rclPort 0 with hostBuf := [⟨0, line, false⟩] })] }

/-- The bytes 0 to 63. -/
def countedLine : List Byte := (List.range 64).map (BitVec.ofNat 8)

/-- The fields of that command (Table 7.11). -/
def loadScalesBlock : MBlk := ⟨1, [0, 0, 0, 0, 0, 0], 0, 4, 0, 0, 0⟩

theorem hostScales_block : ∀ line ∈ [[], countedLine],
    (hostScales line).threadPart 0 = 0 ∧ mblkOf ((hostScales line).context 0) loadScales = loadScalesBlock := by
  decide +kernel

theorem hostScales_ready : ∀ line ∈ [[], countedLine], (hostScales line).MoveReady 0 0x72 loadScalesEntry loadScales true
    (fun _ => true) (0, 0) ((hostScales line).desc 0 1) := by
  have hissues : ∀ line ∈ [[], countedLine],
      (hostScales line).issuable 0 .move 0x72 = some (loadScalesEntry, loadScales)
        ∧ (hostScales line).signalBad 0 loadScales = false := by decide +kernel
  have hhandle : ∀ line ∈ [[], countedLine], (hostScales line).ready 0 ((hostScales line).handleRanges 0 1) = true
      ∧ (hostScales line).checkHandle 0 1 true = .ok ((hostScales line).desc 0 1)
      ∧ ((hostScales line).desc 0 1).overDim = none := by decide +kernel
  intro line hline
  obtain ⟨hissuable, hsignal⟩ := hissues line hline
  obtain ⟨hranges, hcheck, hshape⟩ := hhandle line hline
  obtain ⟨hpart, hblock⟩ := hostScales_block line hline
  refine ⟨⟨hissuable, hsignal⟩, ?_, ?_, rfl, hshape, fun hregion => absurd hregion (by decide)⟩
  · rw [hpart, hblock]
    exact hranges
  · rw [hpart, hblock]
    exact hcheck

/-- What the command loads: four entries from the start of page 1. -/
theorem hostScales_reads : ∀ line ∈ [[], countedLine], ((hostScales line).desc 0 1).channels = 4
    ∧ ((hostScales line).desc 0 ((hostScales line).desc 0 1).scaleHandle).base = 0x200000
    ∧ (hostScales line).upperHalf 0 [(0x200000, 64)] = none ∧ (hostScales line).ready 0 [(0x200000, 64)] = true
    ∧ (hostScales line).readVa 0 0x200000 64 = line := by decide +kernel

theorem countedLine_whole : (hostScales countedLine).hostLinesWhole := by
  have hall : ∀ k, ∀ x ∈ ((hostScales countedLine).rclPort k).hostBuf, x.bytes.length = 64 := by decide +kernel
  exact fun k _ x hx => hall k x (List.mem_of_find?_eq_some hx)

/-- `mloadS_fills_slot` at work: the line that has arrived stands in slot 0 under its header. -/
theorem witness_mloadS_fills_slot : ∃ u, Machine.exec (.mloadS 0) (hostScales countedLine) = .next u
    ∧ (u.core 0).scaleTile 0 = ⟨4, 0, 1, 0⟩ ∧ (u.core 0).readScratch (slotAt 0 + 32) 64 = countedLine := by
  have hline : countedLine ∈ [[], countedLine] := by simp
  obtain ⟨hpart, hblock⟩ := hostScales_block _ hline
  obtain ⟨hchannels, hbase, hlower, hready, hread⟩ := hostScales_reads _ hline
  obtain ⟨u, hexec, htile, hentries, -⟩ := mloadS_fills_slot (slot := 0) (count := 4) (base := 0x200000) countedLine_whole
    hblock.symm hpart.symm rfl (by decide) (hostScales_ready _ hline) (by rw [hchannels]; decide) (by decide)
    (by rw [hchannels]; decide) (by decide) (by rw [hbase]; decide) ⟨hlower, hready⟩
  exact ⟨u, hexec, htile, hentries.trans hread⟩

/-- Refutes O20: the scale tensor lies in host memory and its line has arrived with no bytes, so MLOAD_S reads nothing, and the
64 bytes of its slot are not what it read. The statement does not ask that a host line has its 64 bytes; where each has,
`mloadS_fills_slot` says what the slot holds, and blocks, tiles and masks land whatever the lines are (`mload_lands` to
`mmask_lands`, `State.getElem_loadBlock`). -/
theorem not_loadsLandInScratch : ¬ Obligations.LoadsLandInScratch := by
  unfold Obligations.LoadsLandInScratch
  rintro ⟨-, -, hscales⟩
  have hline : [] ∈ [[], countedLine] := by simp
  obtain ⟨hpart, hblock⟩ := hostScales_block _ hline
  obtain ⟨hchannels, hbase, hlower, hready, hread⟩ := hostScales_reads _ hline
  obtain ⟨u, -, -, -, -, -, hentries, -⟩ := hscales (hostScales []) 0 loadScalesEntry loadScales loadScalesBlock _ 0 0
    0x200000 4 hblock.symm hpart.symm rfl (by decide) (hostScales_ready _ hline) (by rw [hchannels]; decide) (by decide)
    (by rw [hchannels]; decide) (by decide) (by rw [hbase]; decide) ⟨hlower, hready⟩
  rw [hread] at hentries
  simpa [Core.readScratch, upTo] using congrArg List.length hentries

end Sys2Proof.Machine
